-- ==== Sys2Proof/Word.lean ====
section
/-! DEFINITION. The word types of the block and the plainest arithmetic on them.
All multi-byte fields are little-endian (R7). -/

namespace Sys2Proof

abbrev Byte := BitVec 8
abbrev W16 := BitVec 16
abbrev W32 := BitVec 32
abbrev W48 := BitVec 48
abbrev W64 := BitVec 64
/-- A 32-byte string: an SM3 digest, an identity, a measurement register. -/
abbrev Digest := BitVec 256

/-- A ring (and flow) number. -/
abbrev RingId := Fin 64
/-- A physical lantern number: 0-16 on the west die, 17-33 on the east die (R95). -/
abbrev Phys := Fin 34
/-- A logical lantern number. -/
abbrev Logical := Fin 32

/-- A point or a displacement, in mm. -/
structure Vec3 where
  x : Rat
  y : Rat
  z : Rat
  deriving DecidableEq, Repr, Inhabited

/-- An axis-aligned box, in mm. -/
structure Box where
  lo : Vec3
  hi : Vec3
  deriving DecidableEq, Repr, Inhabited

end Sys2Proof
end

