-- ==== Sys2Proof/Syntax.lean ====
section
/-! DEFINITION. The commands and events the block takes, one constructor of `Instr` per row of the opcode table,
and the records that are their operands: what the device reads from host memory, receives on a port, or observes. -/

namespace Sys2Proof

/-! ## Names shared by the operands -/

/-- A running or waiting job, named by ring and descriptor index. -/
structure JobRef where
  ring  : RingId
  index : W32
  deriving DecidableEq, Repr, Inhabited

/-- Grades of R1. -/
inductive Grade where
  | zg3200 | zg2800 | zg2400
  deriving DecidableEq, Repr, Inhabited

/-- The event classes of R517, in class-number order from 0x01. -/
inductive EventClass where
  | intakeOverrun | cfgLoadActive | fabricEccCorr | fabricEccFatal | memAtomicInvalid | memRetainedAccess
  | cisternLate | memDdrWindow | ddrRefreshLimit | memEccCorr | planEccFatal | sluiceEccFatal | mgmtEccCorr
  | mgmtEccFatal | emberEccFatal | spoutEccFatal | slotOverrun | rillLate | intakeLate | brickDirFull | hotFull
  | trackOverflow | beaconBadId | duplicateMismatch | spliceStale | inferInboxFull | faultQueueOverflow
  | stopReleaseEarly | reflectorBudget | reflectorFault | reflectorDisagree | reflectorTail
  | reflectorDisagreeRepeat | camPatternFail | camProbeFail | camSuspect | camRestored | worldStale | diagOverdue
  | lanternSelftestFail | ringOverrun | ringOwnerLost | sluiceAfterSelf | spoutGateFail | lockWrongOwner
  | lockForcedRelease | klinkCertFail | klinkRetrain | klinkDown | groupMapReject | groupMapChanged | klinkLate
  | groupEpochSkew | klinkExchExpired | groupPeerAbort | groupJobRemap | camFrameBad | camConfigFail | camAdmitted
  | camDetached | timeSyncLost | timeSyncRestored | motionTagFail | driveFound | driveMismatch | driveLost
  | jointStateStale | bootCfgFail | cfgRecoveryRefuse | glowBusViolation | glowParseMismatch | glowUnavailable
  | glowRestart | glowHeld | glowLoadFail | powerFail | emberFlashFail | emberFreezeRefused | frozenDrops
  | emberCleared | pilotReqRefused | ddrTrainFail | d2dTrainFail | deviceReset | railUndervolt | tempLow | tempWarn
  | tempTrip
  deriving DecidableEq, Repr, Inhabited

/-! ## Plan images (R84 to R89) -/

/-- A slot table entry (R86); `reservedZero` says that its reserved bits and bytes are 0. -/
structure SlotEntry where
  stageMap       : Nat
  context        : Nat
  safetyRelevant : Bool
  output         : Bool
  reservedZero   : Bool
  slotWork       : Nat
  ctrlOff        : Nat
  ctrlLen        : Nat
  confirmCycle   : Nat
  deriving DecidableEq, Repr, Inhabited

/-- A region entry (R88). `kindOk`: the kind byte is 0 or 1. `reservedZero`: flag bits [7:1] and bytes 14 and 15 are 0. -/
structure Region where
  base   : Nat
  size4k : Nat
  isDram : Bool
  loaded : Bool
  kindOk : Bool
  reservedZero : Bool
  deriving DecidableEq, Repr, Inhabited

/-- A free window entry (R89). `reservedZero`: bytes 6, 7 and 12 to 15 are 0. -/
structure FreeWin where
  slot    : Nat
  startUs : Nat
  slices  : Nat
  mask    : W32
  reservedZero : Bool
  deriving DecidableEq, Repr, Inhabited

/-- A weight set that an image names: identity, expected layout digest and placement (R261). -/
structure WeightRef where
  id     : W32
  layout : W64
  isDram : Bool
  base   : Nat
  deriving DecidableEq, Repr, Inhabited

/-! ## Configuration contexts -/

/-- A BFX16 block exponent, −64 to +63 (R37). -/
abbrev BlockExp := BitVec 7

/-- What a context names for a drain (R35, R38): a target with its shift, the signed requantisation multipliers by channel, or
the block numbers of the two factors and of the target in the block exponent table. -/
inductive DrainDecl where
  | int32
  | requant (wide : Bool) (m : List (BitVec 16)) (s : Fin 48)
  | bfx16 (a b out : Nat)
  | fromInt16 (wide : Bool) (s : Int)
  | fp32
  | bf16
  | e4m3
  | e5m2
  deriving DecidableEq, Repr, Inhabited

/-- A candidate interval declaration (R40): the candidate of index `index` is evaluated on logical lantern `lantern` in
the cycles `first` to `last`. -/
structure Span where
  index   : Nat
  lantern : Nat
  first   : Nat
  last    : Nat
  deriving DecidableEq, Repr, Inhabited

/-- The three problem kinds of the cascade (R172). -/
inductive SolveKind where
  | gn | ik | ts
  deriving DecidableEq, Repr, Inhabited

/-- The cycle interval of an iteration of a solve on a lantern, or of a seed's assembly (R190): `iter` is 0 for an assembly,
`phase` names the solve of the seed phase (R176). -/
structure SolveSpan where
  seed  : Nat
  kind  : SolveKind
  phase : Bool
  iter  : Nat
  first : Nat
  last  : Nat
  deriving DecidableEq, Repr, Inhabited

/-- The cycles for which a solve of a kind occupies its lane, by joint count: its set-up's and each iteration's (R174). -/
structure SolveCycles where
  kind   : SolveKind
  joints : Nat
  setup  : Nat
  iter   : Nat
  deriving DecidableEq, Repr, Inhabited

/-- Beacon parameters of a context (R214), and the basin addresses of a list's payload rows (R216), of its own result block
and of a merge's result block (R222). -/
structure BeaconCfg where
  k         : Nat
  row       : Nat
  lambda    : Nat
  redundant : Nat
  rowsAt    : Nat
  listAt    : Nat
  blockAt   : Nat
  deriving DecidableEq, Repr, Inhabited

/-- Cascade parameters of a context (R175). `epsIk` is in 1/16 mm or mrad; `guard` is G of the block scale; `eDiag`, `eIk`, `eFit`
and `eK` are the exponents of the blocks that are factorised: the diagonal blocks of `GN`, the system of `IK`, BᵀB and K of `TS`;
`eRhs`, `eCtrl`, `eFactor` and `eStep` those of the right-hand-side, control-point, factor and step blocks. `cycles` are the
figures of R174. `measAt` and `asmAt` are
the pool addresses of the measurement blocks on a checking lantern and on the assembler (log 131). -/
structure CascadeCfg where
  capGn    : Nat
  capIk    : Nat
  capTs    : Nat
  tauShift : Nat
  epsGn    : Nat
  epsTs    : Nat
  epsIk    : Nat
  wSm      : Nat
  wCl      : Nat
  wGo      : Nat
  muShift  : Nat
  lambdaSh : Nat
  rhoExp   : Int
  tsMargin : Nat
  stall    : Nat
  guard    : Nat
  eDiag    : BlockExp
  eIk      : BlockExp
  eFit     : BlockExp
  eK       : BlockExp
  eRhs     : BlockExp
  eCtrl    : BlockExp
  eFactor  : BlockExp
  eStep    : BlockExp
  cycles   : List SolveCycles
  measAt   : Nat
  asmAt    : Nat
  deriving DecidableEq, Repr, Inhabited

/-- A group exchange that an image declares: sent in slot `slot`, read at cycle `readCycle` of slot + lag (R383). -/
structure Exchange where
  slot      : Nat
  readCycle : Nat
  deriving DecidableEq, Repr, Inhabited

/-- What a group image declares (R381). -/
structure GroupCfg where
  size      : Nat
  lag       : Nat
  exchanges : List Exchange
  deriving DecidableEq, Repr, Inhabited

/-- The inference operators of R249; softmax stands apart from the other activations for its limit. -/
inductive OpKind where
  | conv2d | conv1d | fullyConnected | attention | layerNorm | pooling | elementwise | resize | activation | softmax | topK
  | other
  deriving DecidableEq, Repr, Inhabited

/-- The element types of tensors (R25, R251). -/
inductive ElemType where
  | int4 | int8 | int16 | int32 | e4m3 | e5m2 | bf16 | fp32
  deriving DecidableEq, Repr, Inhabited

/-- One operator an image declares, with the numbers R249 limits. Kernel or window, stride, dilation and padding are by
axis, height first; `dims` are the tensor's N, C, H and W; `types` those of the operands. -/
structure OpDecl where
  kind     : OpKind
  dims     : List Nat
  kernel   : List Nat
  stride   : List Nat
  dilation : List Nat
  padding  : List Nat
  tokens   : Nat
  heads    : Nat
  headSize : Nat
  inputs   : Nat
  outputs  : Nat
  factor   : List Nat
  slope    : Nat
  k        : Nat
  elements : Nat
  types    : List ElemType
  deriving DecidableEq, Repr, Inhabited

/-- An input of a network (R257): its type, offset, shift and fill code. -/
structure InputDecl where
  bf16   : Bool
  offset : Int
  shift  : Int
  fill   : W16
  deriving DecidableEq, Repr, Inhabited

/-- A top-k of a network (R267): the dimensions N, C, H and W of its input tensor, the element type, the compile-time shift of
floating elements, and which end it selects. -/
structure TopKDecl where
  dims    : List Nat
  type    : ElemType
  shift   : Int
  largest : Bool
  deriving DecidableEq, Repr, Inhabited

/-- The grasp head of an image (R263): the cameras by the index N of its tensor, the head's channels, height and width, and
how many image pixels lie between its cells. -/
structure GraspHead where
  ports  : List (Fin 4)
  chans  : Nat
  height : Nat
  width  : Nat
  step   : Nat
  deriving DecidableEq, Repr, Inhabited

/-- A configuration context of an image (chapter 2, Configuration contexts; R175, R214): the 64 KiB of the configuration
store as bytes, the microcode of the wicks' instruction-store regions of this context, by 256 × wick + place in the region
of 256 instructions (R21), and what the rules read of the store: the drains,
the BFX16 block exponent table, the predicate set-up, the candidate and solve intervals, the stage parameters, the
sampler's planned rate and cycles (R166), the inputs of a network (R257), its activation tables (R253), the ε of its layer
normalisations as binary32 (R254), its top-k inputs (R267) and the orders of its floating sums (R268). -/
structure CtxCfg where
  store    : List Byte
  code     : List (Nat × BitVec 128)
  drains   : List DrainDecl
  blockExp : List BlockExp
  preds    : BitVec 16
  spans    : List Span
  solves   : List SolveSpan
  beacon   : BeaconCfg
  cascade  : CascadeCfg
  sampP    : Rat
  sampC    : Nat
  inputs   : List InputDecl
  tables   : List (Vector Byte 256)
  epsilon  : W32
  topKs    : List TopKDecl
  sums     : List (List Nat)
  deriving DecidableEq, Repr, Inhabited

/-- The atomic operations (R53). -/
inductive AtomicOp where
  | add32 | addSat32 | swap32 | swap64
  deriving DecidableEq, Repr, Inhabited

/-- What the rill-side port of the pool does with a word (R50, R54). -/
inductive RillAcc where
  | read
  | write (be : BitVec 8) (data : W64)
  | atomic (op : AtomicOp) (data : W64)
  deriving DecidableEq, Repr, Inhabited

/-- An addressed word of the device's data memory. -/
inductive Place where
  | basin (l : Phys) (addr : Nat)
  | cistern (addr : Nat)
  | dram (addr : Nat)
  deriving DecidableEq, Repr, Inhabited

/-- An access that a plan has a DMA engine make (R51, R55): an atomic, or an access to a word of a lantern's pool, by its
pool-view address. -/
inductive DmaAcc where
  | atomic (place : Place) (op : AtomicOp) (x : W64)
  | word (l : Logical) (addr : Nat) (acc : RillAcc)
  deriving DecidableEq, Repr, Inhabited

/-- A memory that a control stream puts into retention or wakes (R56, R94): a basin by its lantern's logical number, or a
cistern bank group. -/
inductive PlanUnit where
  | basin (l : Logical)
  | group (g : Fin 48)
  deriving DecidableEq, Repr, Inhabited

/-- The near end, the far address and the length of a planned transfer (R94, R97): `basin` is a logical number. -/
structure Xfer where
  basin : Logical
  addr  : Nat
  far   : Nat
  bytes : Nat
  deriving DecidableEq, Repr, Inhabited

/-- The other end of a rill transfer (R97): another lantern's basin, or the hub, which sends or takes the bytes. -/
inductive RillEnd where
  | lantern (src : Logical)
  | fromHub (data : List Byte)
  | toHub
  deriving DecidableEq, Repr, Inhabited

/-- A command of a control stream (R94). -/
inductive CtrlOp where
  | rill (x : Xfer) (far : RillEnd)
  | multicast (mask : W32) (addr : Nat) (src : Logical) (srcAddr : Nat)
  | cisternRead (x : Xfer)
  | cisternWrite (x : Xfer)
  | dramRead (x : Xfer)
  | dramWrite (x : Xfer)
  | contextLoad (l : Logical) (target : Fin 4) (number : Nat)
  | sleep (u : PlanUnit)
  | wake (u : PlanUnit)
  | dma (c : Fin 16) (acc : DmaAcc)
  deriving DecidableEq, Repr, Inhabited

/-- A command with the cycle of the slot in which it issues (R94). -/
structure CtrlCmd where
  cycle : Nat
  op    : CtrlOp
  deriving DecidableEq, Repr, Inhabited

/-- A control stream where the body holds it: its offset within the body and its length in bytes (R86). -/
structure CtrlStream where
  off  : Nat
  len  : Nat
  cmds : List CtrlCmd
  deriving DecidableEq, Repr, Inhabited

/-- The bytes with which a load fills a `LOADED` region of the cistern or of DRAM (R72, R88). -/
structure Fill where
  isDram : Bool
  base   : Nat
  bytes  : List Byte
  deriving DecidableEq, Repr, Inhabited

/-- Where a fusion image places the structures of the world (R106, R132, R141, R200, R230): cistern addresses, but for the
brick payloads, which lie in DRAM. `spec` is by window + 4 × parity. -/
structure WorldPlaces where
  coarseDist  : Nat
  coarseState : Nat
  directory   : Nat
  hot         : Nat
  masters     : List Nat
  spec        : List Nat
  route       : Nat
  probe       : Nat
  payload     : Nat
  inboxes     : List Nat
  deriving DecidableEq, Repr, Inhabited

/-- What the body of an image holds (R84): the contents of its configuration contexts, the control stream of each slot,
the versions of its stages, and what its contexts declare for the image as a whole. The spec gives these no byte
layout, so they stand as the records that the rules name. -/
structure PlanBody where
  stageVers   : List (Nat × Nat)
  contexts    : List CtxCfg
  ctrl        : List CtrlStream
  routeAt     : Nat
  fills       : List Fill
  trains      : Bool
  weights     : List WeightRef
  routePasses : Nat
  routeCycles : Nat
  seedEnd     : Nat
  measCycle   : Nat
  optSeeds    : Nat
  centresM    : Nat
  jointExp    : List BlockExp
  group       : Option GroupCfg
  ops         : List OpDecl
  tensorLen   : Nat
  specMasters : Bool
  brickBudget : Nat
  grasp       : GraspHead
  completes   : Bool
  places      : WorldPlaces
  deriving DecidableEq, Repr, Inhabited

/-- A plan image as the device reads it: header (R84), tables (R86 to R89) and body. -/
structure PlanImage where
  magic        : W32
  format       : W16
  hdrSize      : W16
  imageSize    : Nat
  planId       : W32
  slotLen      : Nat
  slotCount    : Nat
  reqActive    : Nat
  memDies      : BitVec 8
  partition    : BitVec 8
  flags        : BitVec 8
  lanternSet   : W32
  stageMaps    : List (List W16)
  freeWins     : List FreeWin
  regions      : List Region
  cisRegions   : Nat
  workCycles   : Nat
  planSeed     : W64
  offsets      : List Nat
  robot        : BitVec 8
  ownerKeyId   : W64
  bodyDigest   : Digest
  reservedZero : Bool
  slots        : List SlotEntry
  body         : PlanBody
  deriving DecidableEq, Repr, Inhabited

/-- A plan image at SRC: the bytes of its header and tables, its body, and the security engine's verdicts on it (R92,
second row). -/
structure PlanBlob where
  bytes    : List Byte
  body     : PlanBody
  sigOk    : Bool
  digestOk : Bool
  deriving DecidableEq, Repr, Inhabited

/-! ## Recipes (R105 to R107, R143 to R145, R197, R240, R293, R398, R443) -/

/-- One joint's limits (R143, R145), in 2^-16 rad or mm and seconds. -/
structure Joint where
  revolute : Bool
  qMin     : Int
  qMax     : Int
  vMax     : Int
  aMax     : Int
  jMax     : Int
  tauMax   : Rat
  aBrake   : Int
  jBrake   : Int
  sigmaMin : Rat
  sigmaMax : Rat
  deriving DecidableEq, Repr, Inhabited

/-- A sphere of a link group: its offset e_s from the bounding centre, radius and reach bounds per joint (mm). -/
structure Sphere where
  offset : Rat
  radius : Rat
  reach  : List Rat
  deriving DecidableEq, Repr, Inhabited

/-- A link group with its bounding sphere (R144). -/
structure LinkGroup where
  spheres : List Sphere
  radius  : Rat
  reach   : List Rat
  carried : Bool
  deriving DecidableEq, Repr, Inhabited

/-- A capsule of the reflector's model (R290, R293). -/
structure Capsule where
  group  : Nat
  radius : Rat
  length : Rat
  reach  : List Rat
  deriving DecidableEq, Repr, Inhabited

/-- A robot model of the recipe (R143). -/
structure RobotModel where
  joints   : List Joint
  groups   : List LinkGroup
  capsules : List Capsule
  envelope : Box
  taskRows : Fin 7
  deriving DecidableEq, Repr, Inhabited

/-- The formats of an image that a camera sends for inference (R256, R391). -/
inductive ImageKind where
  | raw8 | raw12 | yuv422
  deriving DecidableEq, Repr, Inhabited

/-- The binding of a camera to a port, its images, intrinsics and extrinsics (R112, R297, R391, R393). `depthVc` is the virtual
channel of the depth stream and of the embedded-data line; a confidence image is assigned by its virtual channel, an image for
inference by its format and its virtual channel. -/
structure CamCfg where
  port     : Fin 4
  provId   : W48
  bus      : Fin 2
  pattern  : W32
  depthVc  : Nat
  conf     : Option Nat
  image    : Option (ImageKind × Nat)
  width    : Nat
  height   : Nat
  fx       : Rat
  fy       : Rat
  cx       : Rat
  cy       : Rat
  rot      : List Rat
  trans    : Vec3
  deriving DecidableEq, Repr, Inhabited

inductive NodeKind where
  | drive | encoder
  deriving DecidableEq, Repr, Inhabited

/-- An entry of the node table (Camera intake and motion ports, before R399). `wrapped` is the node's master key, encrypted to the
device's identity public key (R420, R427). -/
structure NodeCfg where
  nodeId     : W16
  kind       : NodeKind
  port       : Fin 2
  keyRef     : W64
  wrapped    : List Byte
  robot      : Nat
  firstAxis  : Nat
  axes       : Nat
  controlled : Bool
  deriving DecidableEq, Repr, Inhabited

inductive StopRel where
  | host | auto
  deriving DecidableEq, Repr, Inhabited

/-- A group of a carried part (R144, R199): its spheres, the reach bounds of its bounding sphere, the distance e_T from the
tool centre point to the bounding centre and the radius r_B. -/
structure PartGroup where
  spheres : List Sphere
  reach   : List Rat
  eT      : Rat
  rB      : Rat
  deriving DecidableEq, Repr, Inhabited

/-- A carried part (R262, R264). -/
structure CarriedPart where
  groups : List PartGroup
  deriving DecidableEq, Repr, Inhabited

/-- A legacy I²C target that a recipe declares with its static address (R393). -/
structure I2cTarget where
  bus     : Fin 2
  address : BitVec 7
  deriving DecidableEq, Repr, Inhabited

/-- The tables of a recipe. Distances named `…16` are in 1/16 mm; `…Us`, `…Ms` are times; speeds are mm/s. `fills` is what
the recipe places in `LOADED` regions (R72, R88). -/
structure Recipe where
  bodyDigest   : Digest
  volume       : Option (Vec3 × Nat × Nat × Nat)
  depthMin     : Nat
  depthMax     : Nat
  confMin      : Nat
  selfFilter   : Nat
  syncTolUs    : Nat
  setTimeoutMs : Nat
  wMax         : Nat
  wOcc         : Nat
  hotSlots     : Nat
  margin16     : Nat
  inflate      : Nat
  inferredTtl  : Nat
  trackGate    : Nat
  trackGrowth  : Nat
  vMaxObject   : Nat
  windows      : List Vec3
  clearMin16   : Nat
  penalty16    : Nat
  vDynMax      : Nat
  tMinMs       : Nat
  tMaxMs       : Nat
  tailT0Ms     : Nat
  goalTol16    : Nat
  wPath        : Nat
  wTime        : Nat
  wClear       : Nat
  confirm16    : Nat
  spliceUs     : Nat
  routeOrigin  : Nat × Nat × Nat
  routeN       : Nat × Nat × Nat
  routeRadius  : Nat
  routeTick    : Nat
  routeNear16  : Nat
  routeCost    : Nat
  partInflate  : Nat
  robots       : List (Nat × RobotModel)
  cameras      : List CamCfg
  nodes        : List NodeCfg
  deviceNode   : W16
  stopRelease  : StopRel
  worldSource  : Option (Fin 8)
  conveyor     : Option Box
  beltDir      : Vec3
  envelopePart : CarriedPart
  envelopeCaps : List Capsule
  payloadMax   : Rat
  triggers     : List (EventClass × List Nat)
  portMbps     : List Nat
  fills        : List Fill
  legacy       : List I2cTarget
  deriving DecidableEq, Repr, Inhabited

/-- A signed blob at SRC: its bytes, of which the first 256 are its header, and the security engine's verdicts on it
(R419, R420). -/
structure Blob where
  bytes    : List Byte
  sigOk    : Bool
  digestOk : Bool
  deriving DecidableEq, Repr, Inhabited

/-- The header of a signed blob (R419). -/
structure BlobHdr where
  magic        : W32
  format       : W16
  hdrSize      : W16
  blobSize     : Nat
  weightId     : W32
  placeKind    : BitVec 8
  placeBase    : Nat
  layoutDigest : W64
  ownerKeyId   : W64
  bodyDigest   : Digest
  reservedZero : Bool
  deriving DecidableEq, Repr, Inhabited

/-- The parameters of a recipe that have a default (R106, R145, R197, R240, R264, R286); those of the joints stand for all
joints at once. -/
inductive Param where
  | depthMin | depthMax | confMin | selfFilter | syncTol | setTimeout | wMax | wOcc | hotSlots | resampleMargin
  | inferredInflate | inferredTtl | trackGate | trackGrowth | vMaxObject | clearMin | penaltyMargin | vDynMax | tMin | tMax
  | tailT0 | aBrake | jBrake | goalTol | wPath | wTime | wClear | sigma | routeOrigin | routeN | routeRadius | routeTick
  | routeNear | routeCost | confirmMargin | spliceLead | partInflate | stopRelease | windowTable
  deriving DecidableEq, Repr, Inhabited

/-- What glow's parse of a recipe gives sconce (R432 steps 2 and 3); `absent` lists the parameters that the recipe does
not carry. -/
structure ParseResult where
  digestOk : Bool
  tables   : Recipe
  absent   : List Param
  deriving DecidableEq, Repr, Inhabited

/-! ## Rings -/

/-- A descriptor as a poll reads it: 64 bytes. -/
structure RawDesc where
  ring   : RingId
  bytes  : List Byte
  deriving DecidableEq, Repr, Inhabited

/-- The ways of R333 to become detached. -/
inductive DetachCause where
  | linkDown | busMasterCleared | d3hot | fatalError
  deriving DecidableEq, Repr, Inhabited

/-! ## Fabric and memory -/

/-- MAC operand types (R21, R25). -/
inductive MacType where
  | int8 | int4int8 | fp8e4m3 | fp8e5m2 | int16 | bf16
  deriving DecidableEq, Repr, Inhabited

/-- Integer ALU operations (R21). -/
inductive AluOp where
  | add | sub | cmp | min | max | and | or | xor | addSat
  deriving DecidableEq, Repr, Inhabited

/-- Drain targets with the context values they use (R35, R38). -/
inductive DrainFmt where
  | int32
  | requant (wide : Bool) (m : Int) (s : Nat)
  | bfx16 (s : Int)
  | fromInt16 (wide : Bool) (s : Int)
  | fp32
  | bf16
  | e4m3
  | e5m2
  deriving DecidableEq, Repr, Inhabited

inductive MeshDir where
  | north | east | south | west
  deriving DecidableEq, Repr, Inhabited

/-- A structure of a lantern that SECDED protects (R29). -/
inductive FabricStore where
  | config | instr | regs
  deriving DecidableEq, Repr, Inhabited

/-- Activation functions (R249, R253). -/
inductive ActFn where
  | identity | relu | relu6 | leaky (k : Nat) | sigmoid | tanh | silu | gelu | hardSigmoid | hardSwish | exp
  deriving DecidableEq, Repr, Inhabited

/-- The elementwise operators that compute (R249); the others move elements. -/
inductive ElemOp where
  | add | sub | mul | min | max
  deriving DecidableEq, Repr, Inhabited

inductive PoolKind where
  | max | average
  deriving DecidableEq, Repr, Inhabited

/-- The work of the standard stages and of the inference stage, as their chapters bind it. A stage instruction acts for
the job dispatched on the lantern, on the registers and the context of the wick that issues it. `merge` names each source
and whether its merged result is meant or its list; `bilinear` places the output element by its numerator over twice the
factor on each axis. -/
inductive StageOp where
  | worldFuse
  | worldDistance
  | worldMasters
  | drawSeeds
  | generate (l : Logical) (index : Nat)
  | torque (l : Logical) (index : Nat)
  | query (index : Nat)
  | score (index : Nat)
  | measure (seed : Nat)
  | offer (decl : Nat) (pos : List Nat) (reg : BitVec 8)
  | offerRaw (first : BitVec 8)
  | merge (sources : List (Fin 64 × Bool))
  | routeEnds
  | routePass
  | routeExtract
  | routeTargets
  | routeSeed
  | assemble (seed : Nat)
  | tsSetup (seed : Nat)
  | ikGoal
  | iterate (seed : Nat) (kind : SolveKind)
  | inputPixel (port : Fin 4) (decl index dst : Nat)
  | activate (fn : ActFn) (wide : Bool) (reg : BitVec 8)
  | lookup (table : Nat) (reg : BitVec 8)
  | softmax (first : BitVec 8) (n : Nat)
  | layerNorm (first : BitVec 8) (n : Nat)
  | channelScale (acc : Fin 8) (k : BitVec 6) (bias : BitVec 8)
  | elementwise (op : ElemOp) (type : ElemType) (rd ra rb : BitVec 8)
  | pool (kind : PoolKind) (type : ElemType) (first : BitVec 8) (n : Nat) (rd : BitVec 8)
  | bilinear (type : ElemType) (first : BitVec 8) (x y : Nat × Nat) (rd : BitVec 8)
  | sumParts (order : Nat) (first rd : BitVec 8)
  | inputImage (port : Fin 4) (index dst n : Nat)
  | graspPose (row : Nat)
  | postSolution (pose : Nat)
  | carriedFit (port : Fin 4) (maskAt n : Nat)
  | inboxBrick (first : BitVec 8)
  deriving DecidableEq, Repr, Inhabited

/-- One operation of a wick's microcode (R21): an instruction's encoding states its cycle count (R22). `align` raises an
accumulator from the exponent of blocks `a` and `b` to that of block `dst` (R37); `pred` acts only while the predicate
has the value asked for. -/
inductive WickOp where
  | idle
  | mac (t : MacType) (ra rb : BitVec 8)
  | bias (acc : Fin 8) (r : BitVec 8)
  | alu (op : AluOp) (rd ra rb : BitVec 8)
  | cmpx (ra rb : BitVec 8)
  | shift (acc : Fin 8) (s : Int)
  | align (acc : Fin 8) (a b dst : Nat)
  | drain (decl : Nat) (n : Fin 9) (rd : BitVec 8)
  | gatherRead (addr : Nat) (rd : BitVec 8)
  | gatherWrite (addr : Nat) (be : BitVec 8) (ra : BitVec 8)
  | gatherAtomic (op : AtomicOp) (addr : Nat) (ra rd : BitVec 8)
  | setPred (p : Fin 16) (r : BitVec 8)
  | pred (p : Fin 16) (want : Bool) (op : WickOp)
  | mesh (dir : MeshDir) (ra rd : BitVec 8)
  | eccRead (st : FabricStore) (double : Bool)
  | stage (op : StageOp)
  deriving DecidableEq, Repr, Inhabited

/-- Who asks for an access to memory (R45, R51, R55). A DMA command that a plan issues names its job and the cycle of the
slot in which it issues (R94). -/
inductive Requester where
  | wick (l : Phys)
  | rill (l : Phys)
  | dma (c : Fin 16) (plan : Option (JobRef × Nat))
  | host
  | debug
  deriving DecidableEq, Repr, Inhabited

/-- A request that reaches the rill side of a basin while the wicks are issued an instruction, from cycle `from_` of it on
(R48, R50, R54): an access to one word of the pool, `addr` in the pool view; the arrival of line `line` of a transfer in flight (R97,
R98); or the reading of line `line` of a transfer that the basin sends, whose banks were not free when it issued. -/
inductive RillPort where
  | word (from_ addr : Nat) (acc : RillAcc) (req : Requester)
  | line (from_ id line : Nat)
  | fetch (from_ id line : Nat)
  deriving DecidableEq, Repr, Inhabited

/-- A memory that can be put into retention (R56). -/
inductive SleepUnit where
  | basin (l : Phys)
  | group (g : Fin 48)
  deriving DecidableEq, Repr, Inhabited

/-- A plan-issued transfer (R60, R66, R94, R97): the job whose control stream issues it, and the cycle of the slot. -/
structure PlanXfer where
  job   : JobRef
  cycle : Nat
  x     : Xfer
  deriving DecidableEq, Repr, Inhabited

/-! ## Intake, motion and groups -/

/-- A depth pixel: its index in the image, row by row, its depth in mm and its confidence (R111, R114). -/
structure Pixel where
  index : Nat
  depth : Nat
  conf  : Nat
  deriving DecidableEq, Repr, Inhabited

/-- The CSI-2 data types of a port's streams (R297, R391). -/
inductive CsiType where
  | raw16 | embedded | raw8 | raw12 | yuv422
  deriving DecidableEq, Repr, Inhabited

/-- What a camera sends under one virtual channel and data type for one CSI-2 frame: its frame number, and whether each of its packets
passed ECC and CRC (R391, R392). -/
structure CsiPart where
  vc    : Nat
  type  : CsiType
  frame : W16
  ok    : Bool
  deriving DecidableEq, Repr, Inhabited

/-- What the intake receives of a depth frame (R298, R391, R392): its CSI-2 frame number and the parts that the port received up to
its end; the embedded-data line's counter and pattern; its pixels that hold a depth, and the pixels of the
injected patch (R299) that the unpacker delivered with another value, by index `u + 64 v`; the bytes of its image for
inference (R256). -/
structure FrameObs where
  frame     : W16
  parts     : List CsiPart
  embedded  : Option (W32 × W32)
  pixels    : List Pixel
  patchErr  : List (Nat × Nat)
  image     : List Byte
  deriving DecidableEq, Repr, Inhabited

/-- A joint-state frame (R403). Axis values: position, velocity, torque. -/
structure JointFrame where
  nodeId   : W16
  counter  : W32
  status   : Byte
  heldId   : W32
  timeNs   : Nat
  axes     : List (Int × Int × Int)
  deriving DecidableEq, Repr, Inhabited

/-- A hello frame (R404). -/
structure HelloFrame where
  nodeId    : W16
  counter   : W32
  kind      : Byte
  axes      : Byte
  robot     : Byte
  firstAxis : Byte
  keyId     : W64
  deriving DecidableEq, Repr, Inhabited

/-- A group map (R378): the links give, for each member and port, the partner's group number. -/
structure GroupMap where
  version : W32
  members : List Digest
  links   : List (List (Option Nat))
  active  : List Nat
  deriving DecidableEq, Repr, Inhabited

/-- A published trajectory as it crosses to partners and to the motion port (R388, R401): P_0 to P_11 by joint in rad
or mm, the tail's duration T_b in µs and its rest position, and the payload row. -/
structure Traj where
  id       : W32
  robot    : Nat
  startNs  : Nat
  tUs      : Nat
  tail     : Rat
  ctrl     : List (List Rat)
  rest     : List Rat
  row      : List Byte
  deriving DecidableEq, Repr, Inhabited

/-- The tag of an exchange (R383). -/
structure ExchTag where
  planId : W32
  tag    : W32
  slot   : Nat
  epoch  : W32
  source : Fin 8
  deriving DecidableEq, Repr, Inhabited

/-- A beacon row: ID, score, payload row. DESIGN CHOICE (log 98): the goal state that its candidate inherited (R150) goes
with it, since the payload row does not carry it. -/
structure BRow where
  id    : W32
  score : Nat
  pay   : List Byte
  goal  : List Rat
  deriving DecidableEq, Repr, Inhabited

/-- A beacon list or result (R216 to R225). -/
structure BList where
  rows     : List BRow
  tie      : Nat
  mass     : Nat                -- M relative to the first row
  sFirst   : Nat
  selected : Nat
  leftover : Nat
  dup      : Nat
  mismatch : Bool
  clamped  : Bool
  sources  : Nat
  lambda   : Nat                -- ℓ of the merge that formed it (R222)
  deriving DecidableEq, Repr, Inhabited

/-- A K-link packet as the receiver sees it (R373); `raw` is a raw depth frame of the world source with
its camera's extrinsics and its capture time in ns (R387). -/
structure KPacket where
  sync   : BitVec 2
  crcOk  : Bool
  seq    : BitVec 12
  len    : Nat
  ack    : BitVec 12
  raw    : Option (CamCfg × FrameObs × Nat)
  deriving DecidableEq, Repr, Inhabited

/-- A part of the world set that a source sends at an epoch (R386): bytes of its window masters, of its speculation
masters by window + 4 × parity, and of its route clearance master; `complete` marks the arrival of the last part. -/
structure WorldSet where
  epoch    : W32
  teNs     : Nat
  complete : Bool
  masters  : List (Fin 4 × List (Nat × Byte))
  spec     : List (Fin 8 × List (Nat × Byte))
  route    : List (Nat × Byte)
  deriving DecidableEq, Repr, Inhabited

/-! ## Management, security and power -/

/-- A spout channel: non-secure N0 to N3, or secure S0 to S15 (R353, log 135). -/
inductive Chan where
  | n (i : Fin 4)
  | s (i : Fin 16)
  deriving DecidableEq, Repr, Inhabited

/-- The three messages of the SM2 key exchange (R422), with the checks only the security engine makes; `payload` holds the agent's
certificate, ephemeral public key and nonce. -/
inductive KeMsg where
  | first (certOk : Bool) (payload : List Byte)
  | second
  | third (confirmOk : Bool) (secret : Digest)
  deriving DecidableEq, Repr, Inhabited

/-- What start-up meets (R471, R473): verdicts of the checks and trainings, and the configuration block read. `density` is
the density of the DRAM parts in the order of R63: 8, 12, 16 and 24 Gb. -/
structure StartupObs where
  trimTest   : Bool
  fusesOk    : Bool
  cfgOk      : Bool
  cfgPeriod  : Nat
  hostWin    : Nat
  dataRate   : Nat
  motOffset  : Nat
  spWin      : Nat
  linkEnable : BitVec 4
  grandmaster : Bool
  priority1  : Byte
  triggers   : List (EventClass × List Nat)
  cfgDigest  : Digest
  glowOk     : Bool
  glowDigest : Digest
  romDigest  : Digest
  patchDigest : Digest
  ddrFail    : BitVec 4
  d2dFail    : BitVec 4
  density    : Fin 4
  selftestFail : List Phys
  reflectorOk : Bool
  hottest    : Int
  ticks      : Nat
  deriving DecidableEq, Repr, Inhabited

/-- What a relight meets (R305): dies failing training or self-test, lanterns failing self-test, the reflector
check's verdict, and the pilot ticks it took. -/
structure RelightObs where
  diesFail     : BitVec 4
  selftestFail : List Phys
  reflectorOk  : Bool
  damagedPlans : List W32
  ticks        : Nat
  deriving DecidableEq, Repr, Inhabited

/-- Why a freeze ends (R456). -/
inductive UnfreezeCause where
  | write | timeout
  deriving DecidableEq, Repr, Inhabited

/-- What wakes the device from doze (R467). -/
inductive WakeCause where
  | descriptor | dozeDisabled | memoryAccess
  deriving DecidableEq, Repr, Inhabited

/-- The monitored rails of R487. -/
inductive Rail where
  | cmp | mem | hub | pilot
  deriving DecidableEq, Repr, Inhabited

/-- Access sizes of R312. `other` is any size or alignment that BAR0 and BAR2 do not accept. -/
inductive AccSize where
  | b4 | b8 | other
  deriving DecidableEq, Repr, Inhabited

/-- The two BARs (R311). -/
inductive Bar where
  | bar0 | bar2
  deriving DecidableEq, Repr, Inhabited

/-- How a camera leaves its port (R394). -/
inductive DetachKind where
  | noFrames | i3cSilent
  deriving DecidableEq, Repr, Inhabited

end Sys2Proof

namespace Sys2Proof.Machine

open Sys2Proof

/-! ## What a saved context holds of a job (R276) -/

/-- A sparse table: entries by strictly rising key. -/
abbrev SMap (α : Type) := List (Nat × α)

/-- A seed of a job: 32 waypoints and the goal by joint, in rad or mm, the intended control points P_3 to P_11 by joint
once a `TS` solve gave them, those of the slot's check with their duration (R176), the solve status byte (R194), the stall count (R178) and how far the slot's measurement is (R177). -/
structure JobSeed where
  waypoints : List (List Rat)
  ctrl      : List (List Rat)
  tUs       : Nat
  base      : List (List Rat) × Nat
  goal      : List Rat
  refit     : Bool               -- the refit of the previous trajectory (R179)
  status    : Byte
  stalls    : Nat
  fresh     : Bool               -- in the slot of its seed phase: W_CL is taken as 0
  measured  : Bool               -- COMPLETE
  moved     : Bool               -- its block has reached the assembler
  deriving DecidableEq, Repr, Inhabited

/-- A centre of R157: control points P_3 to P_11 by joint, T and the goal state. -/
structure Centre where
  ctrl : List (List Rat)
  tUs  : Nat
  goal : List Rat
  deriving DecidableEq, Repr, Inhabited

/-- Route status of R208. -/
inductive RouteStatus where
  | found | noRoute | notSearched | noGoal | outsideGrid
  deriving DecidableEq, Repr, Inhabited

structure Route where
  status : RouteStatus
  cost   : Nat
  moves  : Nat
  passes : Nat
  v      : SMap Nat             -- V(c, s) below 255
  start  : Option (Nat × Nat × Nat)
  goal   : Option (Nat × Nat × Nat)
  pose   : List Rat             -- the tool pose of the route goal (R202)
  joint  : List Rat             -- its joint goal
  path   : List (Nat × Nat × Nat)
  seed   : Option JobSeed       -- the route seed (R206)
  deriving DecidableEq, Repr, Inhabited

/-- The counts of R170, R195, R229 and R266, in report order. -/
structure Counts where
  generated : Nat
  valid     : Nat
  marks     : Vector Nat 7
  dropped   : Nat
  gn        : Nat
  ik        : Nat
  ts        : Nat
  pivot     : Nat
  capped    : Nat
  discarded : Nat
  noMeasure : Nat
  replaced  : Nat
  withheld  : Nat
  dups      : Nat
  mismatch  : Nat
  badId     : Nat
  envelope  : Nat
  inboxOver : Nat
  inboxSup  : Nat
  posted    : Nat
  deriving DecidableEq, Repr, Inhabited

/-- The best infeasible candidate (R245). -/
structure BestInf where
  id        : W32
  clearance : Int
  sphere    : Nat
  waypoint  : Nat
  marks     : BitVec 7
  epoch     : W32
  deriving DecidableEq, Repr, Inhabited

end Sys2Proof.Machine

namespace Sys2Proof

/-- A saved context (R276): the header's fields, the world copy with its T_e, the seeds in use, those not yet used and those that were
replaced, the last beacon result with the centres that came from it, and the job's state. `exps` and `robot` are the image's, for
the rows of the seed list; `carried` and `parts` are the spheres with which the job was dispatched (R262); `tag` is the seal's (R277). The window is the one that the job named (DEDUCED, log 33). -/
structure SavedCtx where
  planId       : W32
  bodyDigest   : Digest
  savedActive  : Nat
  reqActive    : Nat
  nextSlot     : Nat
  epoch        : W32
  planSeed     : W64
  start        : List (Rat × Rat × Rat)
  spliceNs     : Nat
  recipeDigest : Digest
  window       : Nat
  exps         : List BlockExp
  robot        : Byte
  world        : List Byte
  winTe        : Nat
  seeds        : List Machine.JobSeed
  pool         : List Machine.JobSeed
  spent        : List Machine.JobSeed
  result       : Option BList
  centres      : List Machine.Centre
  sigma        : List Rat
  sigmaT       : Rat
  best         : Option Machine.BestInf
  marksSeen    : BitVec 7
  route        : Machine.Route
  counts       : Machine.Counts
  carried      : Option CarriedPart
  parts        : Machine.SMap CarriedPart
  tag          : BitVec 128
  deriving DecidableEq, Repr, Inhabited

/-- The commands and events of the block: one constructor per row of the opcode table, in the table's order. -/
inductive Instr where
  | planLoad (ring : RingId) (blob : PlanBlob)
  | planRun (ring : RingId) (index : W32)
  | goalSet (ring : RingId) (record : List Byte)
  | seedsLoad (ring : RingId) (buffer : List Byte)
  | weightsLoad (ring : RingId) (blob : Blob)
  | weightsReplaceWrite (id : W32)
  | recipeLoad (ring : RingId) (blob : Blob)
  | recipeParseDone (ring : RingId) (parse : ParseResult)
  | glowUnavailable (ring : RingId)
  | contextSave (ring : RingId)
  | contextSaveComplete (ring : RingId)
  | contextRestore (ring : RingId) (index : W32) (saved : SavedCtx)
  | restoreVerified (ring : RingId) (index : W32)
  | cancel (ring : RingId) (index : W32)
  | fence (ring : RingId)
  | query (ring : RingId)
  | poll (doorbell : List W64) (descs : List RawDesc)
  | recordRelease (ring : RingId)
  | shadowHeaderRefresh
  | ringEnable (ring : RingId) (value : W32) (replay : List RawDesc)
  | ringDisable (ring : RingId) (value : W32)
  | deviceDetach (cause : DetachCause)
  | deviceReattach (doorbell : List W64) (replay : List RawDesc)
  | slotBoundary (late : List Phys)
  | wickInstruction (l : Phys) (cycles : Nat) (ops : List (Fin 64 × WickOp)) (rill : List RillPort)
  | contextSwitch (l : Phys) (target : Fin 4)
  | contextLoad (job : JobRef) (cycle : Nat) (l : Logical) (target : Fin 4) (number : Nat)
  | atomicOperation (req : Requester) (place : Place) (op : AtomicOp) (operand : W64)
  | rillTransfer (x : PlanXfer) (far : RillEnd)
  | multicast (job : JobRef) (cycle : Nat) (mask : W32) (addr : Nat) (src : Logical) (srcAddr : Nat)
  | cisternRead (x : PlanXfer)
  | cisternWrite (x : PlanXfer)
  | dramRead (x : PlanXfer)
  | dramWrite (x : PlanXfer)
  | plannedDelivery (id : Nat) (arrived : Bool)
  | memorySleep (job : JobRef) (cycle : Nat) (unit : PlanUnit)
  | memoryWake (job : JobRef) (cycle : Nat) (unit : PlanUnit)
  | memoryWakeComplete (unit : SleepUnit)
  | ddrRefreshLimit (channel : Fin 24)
  | d2dRetrain (die : Fin 4)
  | budgetGuard (job : JobRef) (l : Logical)
  | measurementTransfer (job : JobRef)
  | epochCheck (job : JobRef)
  | reflectorAttempt (job : JobRef)
  | reflectorVerdict (job : JobRef)
  | reflectorSelfCheck (ok : Bool)
  | startOfFrame (port : Fin 4) (timeNs : Nat)
  | frameReceived (port : Fin 4) (frame : FrameObs)
  | setTimeout
  | probeCompare (port : Fin 4)
  | camDetached (port : Fin 4) (kind : DetachKind)
  | i3cInBandEvent (bus : Fin 2) (hotJoin : Bool)
  | cameraDiscovered (port : Fin 4) (bus : Fin 2) (provId : W48)
  | cameraConfigured (port : Fin 4) (ok : Bool)
  | worldStale
  | selftestSlice (l : Phys) (pass : Bool)
  | diagOverdue (l : Phys)
  | diagAdmitHold (l : Phys)
  | faultEvent (cls : EventClass) (unit : Nat) (words : List W32) (job : Option JobRef)
  | faultHandlingComplete
  | relight (obs : RelightObs)
  | lockstepMismatch
  | stopRelease
  | ptpFrameReceived (sync : Bool) (valid : Bool) (timeNs : Nat) (announced : Option (Byte × Bool))
  | timeSyncLost
  | qbvCycle (port : Fin 2)
  | helloTransmit
  | helloReceived (frame : List Byte) (tagOk : Bool)
  | jointStateReceived (frame : List Byte) (tagOk : Bool)
  | driveLost (node : Fin 32)
  | klPortEnable (value : W32)
  | klinkTrained (port : Fin 4)
  | klinkTrainTimeout (port : Fin 4)
  | klinkCertReceived (port : Fin 4) (chainOk : Bool) (ownerKey : BitVec 512) (partner : Digest)
  | klinkCertTimeout (port : Fin 4)
  | klinkLockLoss (port : Fin 4)
  | klinkPacketReceived (port : Fin 4) (packet : KPacket)
  | groupMapIssue (map : GroupMap)
  | groupMapReceived (map : GroupMap) (sigOk : Bool)
  | deviceUnreachable (member : Digest)
  | klinkExchangeReceived (tag : ExchTag) (data : BList)
  | klinkExchangeRead (job : JobRef)
  | klinkExchExpired (tag : ExchTag)
  | groupAbortReceived (planId tag : W32)
  | worldMasterReceived (set : WorldSet)
  | publishedTrajReceived (traj : Traj)
  | partnerResetReport (partner : Fin 7)
  | spoutSend (ch : Chan) (clear : BitVec 2) (msg : Option (List Byte))
  | gateLockoutEnd
  | spoutReceive (ch : Chan) (word : Fin 16)
  | spoutAck (ch : Chan) (seq code : W16)
  | driverReset
  | agentReset
  | keyExchange (msg : KeMsg)
  | ownerEnrol (publicKey : BitVec 512) (sigOk readBackOk : Bool)
  | ownerLock (sigOk : Bool)
  | attestationReport (nonce : Digest)
  | emberClear (clearSeq : W32) (signed sigOk : Bool)
  | lockRead (req : Fin 11) (lock : Fin 64)
  | lockWrite (req : Fin 11) (lock : Fin 64) (value : W32)
  | emberWriteComplete
  | emberFlush
  | emberFlushComplete (ok : Bool)
  | emberFreeze
  | emberUnfreeze (cause : UnfreezeCause)
  | emberCursorWrite (value : W32)
  | emberFillComplete
  | glowHeartbeat (word : W32)
  | glowRestart (imageOk flashOk : Bool) (digest : Digest)
  | glowBusViolation (addr : W32) (write : Bool)
  | glowLoadMeasure (busyPercent : Nat)
  | glowLoadWinWrite (offset : BitVec 16) (data : List Byte)
  | glowLoadGo (ok : Bool) (digest : Digest)
  | dozeEntry
  | dozeWake (cause : WakeCause)
  | pilotArmWrite (value : W32)
  | pilotEntry
  | pilotWake (digestOk : Bool) (ticks : Nat) (obs : StartupObs)
  | powerOn (obs : StartupObs)
  | startupHeartbeatTimeout (reflectorOk imageOk flashOk : Bool) (digest : Digest)
  | deviceReset
  | perstDeassert (obs : StartupObs)
  | pwrFailAssert
  | pwrFailDeassert (obs : StartupObs)
  | railUndervolt (rail : Rail)
  | tempRead (readings : List (Fin 7 × Int))
  | basinPoolModeWrite (value : W32)
  | planGridWrite (value : W32)
  | specCtrlWrite (value : W32)
  | memWindowAccess (offset : BitVec 22) (size : AccSize) (write : Bool) (data : W64)
  | traceWinRead (offset : BitVec 12) (size : AccSize)
  | rcFieldRead (bar : Bar) (offset : BitVec 24) (size : AccSize) (counted : W64)
  | pilotTimeRead
  | registerWrite (bar : Bar) (offset : BitVec 24) (size : AccSize) (data sets : W64)
  | pwrGoodDeassert
  | railRecovery (rail : Rail) (obs : StartupObs)
  | debugAttach
  | debugAccess (place : Place) (write : Bool) (data : W64)
  | motionPortLinkChange (port : Fin 2) (up : Bool)
  deriving DecidableEq, Repr, Inhabited

end Sys2Proof
end

