-- ==== Sys2Proof/Decode.lean ====
section
/-! DEFINITION. Decoding of a word by the bits of the opcode table: the table gives no row any bits, because the block
takes commands, not instruction words. -/

namespace Sys2Proof

/-- The command that a word spells by the table's bits: none, since no row has bits. -/
def decodeTableWord (_nbits _w : Nat) : Option Instr := none

end Sys2Proof
end

