-- ==== Sys2Proof/Config.lean ====
section
/-! DEFINITION. What an implementation fixes: the severities of the event classes, the numbers of chapters 0 to 24
that are one constant of the device, and the free values (constants with no body) that the spec leaves open. -/

namespace Sys2Proof

/-! ## Event classes (R517) -/

/-- Class number of R517: the classes stand in class-number order from 0x01. -/
def EventClass.number (c : EventClass) : Nat := c.ctorIdx + 1

/-- Severity of R517. -/
def EventClass.severity : EventClass → Nat
  | .fabricEccFatal | .cisternLate | .ddrRefreshLimit | .planEccFatal | .sluiceEccFatal | .mgmtEccFatal
  | .slotOverrun | .rillLate | .faultQueueOverflow | .reflectorFault | .reflectorDisagreeRepeat
  | .lanternSelftestFail | .tempTrip => 1
  | .cfgLoadActive | .memAtomicInvalid | .memRetainedAccess | .memDdrWindow | .klinkLate | .groupEpochSkew
  | .groupPeerAbort | .groupJobRemap | .timeSyncLost | .driveLost | .jointStateStale | .cfgRecoveryRefuse
  | .glowUnavailable => 2
  | _ => 3

/-- Classes whose events the compute and memory-side dies raise, and which R284 and R515 suppress while those dies
are in reset (DEDUCED, log 9). -/
def EventClass.computeDie : EventClass → Bool
  | .cfgLoadActive | .fabricEccCorr | .fabricEccFatal | .memAtomicInvalid | .memRetainedAccess | .cisternLate
  | .memDdrWindow | .ddrRefreshLimit | .planEccFatal | .slotOverrun | .rillLate
  | .lanternSelftestFail => true
  | _ => false

/-! ## Times, in pilot ticks of 31.25 ns (R461) -/

def ticksPerUs : Nat := 32
def ticksPerMs : Nat := 32000
def ticksPerSec : Nat := 32000000

/-! ## Free values

Each is a constant with no body: nothing in Lean can evaluate it, so a statement holds for every value of it. -/

namespace Config

/-- A byte of memory that lost its contents: `gen` counts the losses, `addr` is the byte's address (R70 to R72). -/
opaque lostByte (gen addr : Nat) : BitVec 8
/-- A byte that a plan reads while a plan write to it may be incomplete (R60, R66), by the image's body, the slot, the cycle
of the slot and the byte's address: the bits of a job depend on nothing else (R269). -/
opaque earlyByte (image : Digest) (slot cycle addr : Nat) : BitVec 8
/-- A byte of an output tensor that the job has not sent to the hub (R262), by the image's body and the byte's place. -/
opaque unsentByte (image : Digest) (i : Nat) : BitVec 8
/-- The position of an axis that no node carries or that has sent no frame yet (R111, R136, R405). -/
opaque absentAxis (recipe : Digest) (robot axis : Nat) : Rat
/-! Kinematics and dynamics of a robot model. The spec names the model tables of a recipe and gives no layout or
convention for their kinematic part, so each is a free function of the recipe, the robot number and the joint values. -/

/-- Centre of sphere `sphere` of link group `group`. -/
opaque sphereCentre (recipe : Digest) (robot group sphere : Nat) (q : List Rat) : Vec3
/-- Bounding centre of link group `group`. -/
opaque boundCentre (recipe : Digest) (robot group : Nat) (q : List Rat) : Vec3
/-- Centre of sphere `sphere` of group `group` of a carried part. -/
opaque partCentre (recipe : Digest) (robot : Nat) (part : CarriedPart) (group sphere : Nat) (q : List Rat) : Vec3
/-- End points of a reflector capsule. -/
opaque capsuleEnds (recipe : Digest) (robot capsule : Nat) (q : List Rat) : Vec3 × Vec3
/-- Position (mm) and orientation (quaternion) of the tool centre point. -/
opaque toolPose (recipe : Digest) (robot : Nat) (q : List Rat) : Vec3 × List Rat
/-- A point of the axis of joint `j` and the axis's direction. -/
opaque jointAxis (recipe : Digest) (robot j : Nat) (q : List Rat) : Vec3 × Vec3
/-- By how many units in the last place the reflector's fp32 value of a joint's spline at time `t` misses the exact one: the spec gives
no order of the operations (R292). -/
opaque splineErr (points : List Rat) (T t : Rat) : Int
/-- The same in a braking tail, and for Bézier point `i` of the tail. -/
opaque tailErr (endPos endVel endAcc tb t : Rat) : Int
opaque tailPointErr (endPos endVel endAcc tb : Rat) (i : Nat) : Int
/-- Torque of joint `j` by the Newton-Euler pass of R152. -/
opaque jointTorque (recipe : Digest) (robot j : Nat) (payload : Rat) (q v a : List Rat) : Rat
/-- The virtual camera of the injected patches, fixed in the device (R141). -/
opaque probeCam : CamCfg
/-- The 64 fixed check voxels of a probe region (R299). -/
opaque checkVoxels : List Nat
/-- The origin of the one window of a recipe that carries no window table, in 20 mm: R106 gives the count and no origin. -/
opaque defaultWindow : Int × Int × Int
/-- The root secret, programmed at manufacture; nothing carries it (R409). -/
opaque rootSecret : Digest
/-- The SM3 hash function (named, not defined, by the spec). -/
opaque sm3 (bytes : List (BitVec 8)) : Digest
/-- SM3-HMAC of `bytes` under `key` (named, not defined, by the spec). -/
opaque hmac (key bytes : List (BitVec 8)) : Digest
/-- SM4-CTR (R425): the cipher text of `bytes` under a 16 B key with the given start of the counter block. -/
opaque sm4Ctr (key prefix_ bytes : List (BitVec 8)) : List (BitVec 8)
/-- The SM2 algorithms (named, not defined, by the spec): reduction into the scalar range and the public key of a private one (R409);
an SM2 signature, where `n` counts the signatures made; decryption (R420). -/
opaque sm2Scalar (bytes : List (BitVec 8)) : BitVec 256
opaque sm2Public (key : BitVec 256) : BitVec 512
opaque signature (key : BitVec 256) (n : Nat) (digest : Digest) : BitVec 512
opaque sm2Decrypt (key : BitVec 256) (cipher : List (BitVec 8)) : List (BitVec 8)
/-- Sconce's confirmation hash in the SM2 key exchange, from its identity and ephemeral keys and the agent's first message (R422). -/
opaque sm2Confirm (key ephemeral : BitVec 256) (peer : List (BitVec 8)) : Digest
/-- The MAC address of a node, which enters a frame's TAG (R399): the spec names no table that holds it. -/
opaque nodeMac (recipe : Digest) (node : BitVec 16) : BitVec 48
/-- What glow takes a service of its spouts for (R438), since the spec numbers no service of N0 and N1: 1 a telemetry request,
2 periodic telemetry, 3 a report of an unknown node or of a link. -/
opaque glowService (service : Nat) : Nat
/-- Which services sconce offers on an inbox other than S0, by channel: the spec numbers none (R363). -/
opaque sconceService (channel service : Nat) : Bool
/-- Whether a write of a flash page fails, by how many have been made (R452). -/
opaque pageWriteFails (n : Nat) : Bool
/-- The next draw of the security engine's random source. -/
opaque random (n : Nat) : Digest

/-- Whether the device supports a version of a stage (R92). -/
opaque stageVersion (stage version : Nat) : Bool
/-- By how many units in the last place the reciprocal of a pivot misses the correctly rounded one: R183 bounds it by one. -/
opaque recipErr (pivot : Int) : Int
/-- The rotation from one orientation to another, as a vector in mrad: the orientation rows of a tool-pose task (R186). -/
opaque turn (from_ to_ : List Rat) : Vec3
/-- The error of task row `row` that the recipe declares, and its derivative by joint `joint` (R186). -/
opaque taskRow (recipe : Digest) (robot row : Nat) (q : List Rat) : Rat
opaque taskGrad (recipe : Digest) (robot row joint : Nat) (q : List Rat) : Rat
/-- Whether sin(t·θ) / sin θ, where `c` is cos θ, is held to the next step above or the one below it: the spec states no
precision for it (R206). -/
opaque sineUp (c t : Rat) : Bool
/-- Whether a root is held to the next step above or the one below it: the spec states no precision for it (R157). -/
opaque rootUp (square : Rat) : Bool
/-- The duration in µs with which a library or `IK` seed begins, by its waypoints (R153). -/
opaque seedTime (waypoints : List (List Rat)) : Nat
/-- The fit that the fixed stage makes of a held part's points, if it finds one: the spec names no algorithm (R264). -/
opaque fitPart (points : List Vec3) : Option CarriedPart
/-- Bounding centre of group `group` of a carried part. -/
opaque partBound (recipe : Digest) (robot : Nat) (part : CarriedPart) (group : Nat) (q : List Rat) : Vec3
/-- By how many units in the last place the reciprocal of a binary32 code misses the correctly rounded one (R183, R254). -/
opaque recipErr32 (code : Nat) : Int
/-- The value with which the reciprocal square root of a binary32 code begins, and by how many units in the last place each
of its steps misses the correctly rounded one: the spec gives the number of steps (R254). -/
opaque rsqrtStart (code : Nat) : Nat
opaque rsqrtErr (step code : Nat) : Int
/-- By how many units in the last place an activation misses the exact value, a fixed function of the stage version that
R253 bounds. -/
opaque actErr (fn : ActFn) (wide : Bool) (code : Nat) : Int
/-- The activation of an infinity or a NaN, for which R253 states no value. -/
opaque actSpecial (fn : ActFn) (wide : Bool) (code : Nat) : Nat
/-- The orientation that the approach vector and the rotation output of a grasp head stand for (R263). -/
opaque graspOrient (approach : Vec3) (rotation : Rat) : List Rat
/-- Result codes of the integer ALU's compare and of the compare-exchange unit's order, which the spec names only. -/
opaque aluCompare (a b : BitVec 32) : BitVec 32
/-- Whether the compare-exchange unit swaps two key-payload pairs. -/
opaque exchanges (a b : BitVec 64) : Bool

end Config

end Sys2Proof
end

