-- ==== Sys2Proof/Machine/State.lean ====
section
/-! DEFINITION. The state of the block as plain data: every register, table, queue, buffer and pin the spec gives it,
in one structure per unit, the queue of waiting commands, and the state after reset. -/

namespace Sys2Proof.Machine

open Sys2Proof

/-! ## Containers -/

/-- A byte-addressed memory. An unlisted byte reads 0 while `gen` is 0 and as the free byte
`Config.lostByte gen addr` after a loss of contents (R72); see `Ram.read` in Machine/Ops.lean. -/
structure Ram where
  gen   : Nat
  cells : List Host.Cell
  deriving DecidableEq, Repr, Inhabited

/-! ## Power, pins, fuses, configuration block (chapters 22 and 23, R1 to R3, R69, R410, R414) -/

/-- Power states of R464. -/
inductive PState where
  | run | hold | doze | pilot
  deriving DecidableEq, Repr, Inhabited

structure Pwr where
  pwrGood     : Bool
  perstN      : Bool      -- level of PERST_N
  perstSeen   : Bool      -- PERST_N has been high since the latest power-on (R474)
  pwrFailN    : Bool      -- level of PWR_FAIL_N
  railLow     : BitVec 4  -- rails below minimum (R487): cmp, mem, hub, pilot
  hub         : Bool      -- hub domains outside the pilot domain are powered and out of reset
  ticks       : Nat       -- pilot oscillator cycles since power-on (R461)
  timeHi      : W16       -- PILOT_TIME_HI latch (R477)
  step        : Nat       -- PILOT_STATE.STEP
  ready       : Bool
  pstate      : PState
  fail        : Byte
  waitGlow    : Bool      -- start-up step 9 waits for glow's first heartbeat (R471)
  reflectorOk : Bool      -- verdict the reflector check of step 10 will give
  dozeEn      : Bool
  pilotArm    : Bool
  dozeIdle    : Byte
  idleSince   : Nat       -- tick since which the doze conditions of R466 have held
  pll         : BitVec 14
  tjMax       : Byte
  hottest     : Nat
  warn        : Bool
  tripped     : Bool
  low         : Bool
  stop        : Bool      -- STOP_REQ_N is asserted (R285)
  wakeN       : Bool      -- WAKE_N is asserted (R470)
  preS1       : List EventClass -- S1 events queued before READY (R515)
  trimTest    : Bool      -- PILOT_TRIM_TEST level (R482)
  resetPend   : Bool      -- a device reset holds the hub until PERST_N is high and the flush has ended (R475)
  powerFail   : Bool      -- an assertion of PWR_FAIL_N or a low rail is in force (R476)
  heldStart   : Option StartupObs -- what the start-up that waits at step 2 for a cooler part will meet (R497)
  dozeAt      : Nat       -- tick of the latest doze entry (R303)
  saveDigest  : Option Digest -- SM3 digest of the saved hub state, in the pilot domain's key store (R469)
  deriving DecidableEq, Repr, Inhabited

/-- A slot of the owner fuse bank (R410). -/
structure OwnerSlot where
  key    : BitVec 512
  anyBit : Bool
  commit : Bool
  deriving DecidableEq, Repr, Inhabited

structure Fuses where
  grade     : Grade
  suffixX   : Bool
  stepping  : Byte
  disabled  : List Phys
  spares    : List Phys
  retired   : List Phys
  owner0    : OwnerSlot
  owner1    : OwnerSlot
  lock      : Bool        -- owner lock fuse (R413)
  patchVer  : BitVec 7
  identity  : Digest      -- SM3 of the identity public key (R377)
  deriving DecidableEq, Repr, Inhabited

/-- The slot grid (R80) and the two time bases a slot and the motion ports use. -/
structure Grid where
  running   : Bool
  period    : Nat         -- in force, in 10 µs
  retain    : Nat         -- RETAIN_SLOTS in force
  regPeriod : Nat         -- as read back
  regRetain : Nat
  pending   : Bool
  count     : Nat         -- boundaries so far
  base      : Nat         -- 1.0 GHz cycles from the grid's first start to the latest boundary
  sub       : Nat         -- quarter nanoseconds since the latest boundary
  asTime    : Nat         -- 802.1AS time in quarter nanoseconds
  deriving DecidableEq, Repr, Inhabited

/-! ## Lanterns and memory (chapters 2 to 4) -/

/-- A wick: eight 48-bit accumulators, 256 registers of 32 bits (R21) and the predicates of R22. -/
structure Wick where
  acc   : Vector W48 8
  regs  : SMap W32
  preds : BitVec 16
  deriving DecidableEq, Repr, Inhabited

/-- Retention (R56). `sleeping`: a sleep command waits for the accesses in flight to complete. -/
inductive Retain where
  | awake | sleeping | retained | waking (until_ : Nat)
  deriving DecidableEq, Repr, Inhabited

/-- An access of the rill side to the byte `addr` of a basin that the cycles of an instruction have not completed (R54);
`begun` says that an atomic has held its word for one cycle. -/
structure RillTry where
  addr  : Nat
  acc   : RillAcc
  req   : Requester
  begun : Bool
  deriving DecidableEq, Repr, Inhabited

structure Lantern where
  ctx       : Fin 4
  switches  : List (Fin 4 × Nat)   -- switches in progress: target and end cycle (R26, R28)
  contexts  : Vector CtxCfg 4      -- configuration store and instruction-store regions, by context (R27)
  cycle     : Nat                  -- cycle of the slot
  job       : Option JobRef
  gated     : Bool
  rangeCtr  : W32
  offers    : List BRow            -- offers that its list has not applied yet, in their order (R215)
  fresh     : List BRow            -- offers of the cycle (R215)
  counted   : List Nat             -- cycles of the slot in which an element was counted (R39, R40, R190)
  eccCorr   : W16
  collide   : Bool
  rill      : List RillTry         -- accesses that wait at the rill side of its pool, in their order (R46, R54)
  retain    : Retain
  idle      : Option Nat           -- boundaries since its job ended or its basin's wake completed (R81)
  basin     : Ram
  wicks     : SMap Wick
  diagStart : Nat                  -- tick of the last complete self-test pass
  slices    : Nat                  -- slices of the current pass done
  ret       : W64                  -- word last returned to a requester of this lantern (R50, R53)
  overdue   : Bool                 -- diagnostic age above 100 ms, as logged
  diagHold  : Bool                 -- age has reached 200 ms (R303)
  deriving DecidableEq, Repr, Inhabited

structure DmaCh where
  collide  : Bool
  busy     : Bool
  excluded : Bool
  ret      : W64        -- word last returned to the engine
  deriving DecidableEq, Repr, Inhabited

/-- A planned transfer in flight, held at the rill port until its latency has elapsed (R60, R66, R97). `source` is
the place read, `hub` says that the hub takes the data, `done` lists the lines that reached a destination in
the cycles of an instruction (R50), `taken` those that a busy source basin delivered late (R48). -/
structure Flight where
  id      : Nat
  job     : JobRef
  due     : Nat
  cistern : Bool
  dests   : List Phys
  addr    : Nat
  data    : List Byte
  source  : Option Place
  hub     : Bool
  done    : List (Phys × Nat)
  taken   : List Nat
  deriving DecidableEq, Repr, Inhabited

/-- A plan write that may not be complete yet (R60, R66): until cycle `until_` its bytes read as free values. `source` is
the place that it reads and `taken` the lines that it read late (R48). -/
structure RecentWrite where
  id     : Nat
  isDram : Bool
  start  : Nat
  len    : Nat
  until_ : Nat
  source : Place
  taken  : List Nat
  deriving DecidableEq, Repr, Inhabited

/-- A host access to DRAM that waits. -/
structure HostAcc where
  addr  : Nat
  bytes : Nat
  write : Bool
  data  : W64
  deriving DecidableEq, Repr, Inhabited

/-- Whose load filled a cistern region (R72). -/
inductive FillOwner where
  | plan (id : W32)
  | weights (id : W32)
  | recipe
  deriving DecidableEq, Repr, Inhabited

/-- A backing copy in DRAM of what a load placed in a region (R72). -/
structure Backing where
  owner : FillOwner
  fill  : Fill
  deriving DecidableEq, Repr, Inhabited

structure MemUnit where
  cistern   : Ram
  dram      : Ram
  groups    : Vector Retain 48
  compat    : Bool         -- pool mode in force (R52)
  poolReg   : Bool         -- BASIN_POOL_MODE.COMPAT as read back
  poolPend  : Bool
  memWin    : W32          -- GLB_MEM_WIN
  present   : BitVec 4
  ddrFail   : BitVec 4
  d2dFail   : BitVec 4
  hostWin   : Nat
  dataRate  : Nat
  capacity  : Nat          -- MEM_DDR_SCHED.CAPACITY, GiB
  density   : Fin 4        -- density of the DRAM parts, in the order of R63
  dma       : Vector DmaCh 16
  flights   : List Flight
  nextId    : Nat
  dramKey   : Nat          -- generation of the DRAM keys (R70)
  recent    : List RecentWrite
  waits     : List HostAcc -- host DRAM accesses that wait for an idle device (R67)
  backing   : List Backing -- backing copies of the filled regions (R72)
  hubIn     : List (JobRef × List Byte) -- what planned transfers have brought to the hub (R97), newest last
  hubSave   : List Byte    -- the reserved region of DRAM: the hub's state as the pilot state's entry writes it (R469)
  deriving DecidableEq, Repr

/-! ## World (chapters 5, 8, 11) -/

/-- A fine voxel (R113); DIST in 1/16 mm. -/
structure Voxel where
  tsdf     : Int
  weight   : Nat
  inferred : Bool
  occupied : Bool
  dist     : Int
  deriving DecidableEq, Repr, Inhabited

/-- A directory entry (R118). -/
structure DirEntry where
  bx       : Nat
  by_      : Nat
  bz       : Nat
  valid    : Bool
  tomb     : Bool
  hot      : Bool
  hasInf   : Bool
  payload  : Nat
  hotSlot  : Nat
  free     : Nat
  infEpoch : W32
  deriving DecidableEq, Repr, Inhabited

/-- A coarse voxel (R125); distance in 1/4 mm. -/
structure Coarse where
  seen     : Bool
  occupied : Bool
  bricked  : Bool
  overflow : Bool
  dist     : Int
  deriving DecidableEq, Repr, Inhabited

/-- A track or a cluster that is not yet one (R137, R138). -/
structure Track where
  num      : Nat
  box      : Box
  centroid : Vec3
  vel      : Vec3
  teNs     : Nat
  missed   : Nat
  isNew    : Bool
  belt     : Bool
  deriving DecidableEq, Repr, Inhabited

/-- A frame in a set: its port, its pattern counter, its start-of-frame in ns, its pixels, and what differs in its
patch (R299). -/
structure SetFrame where
  port     : Fin 4
  counter  : W32
  sofNs    : Nat
  pixels   : List Pixel
  patchErr : List (Nat × Nat)
  image    : List Byte          -- the image for inference (R256)
  deriving DecidableEq, Repr, Inhabited

/-- A complete, unfused frame set (R17, R110). -/
structure FrameSet where
  teNs   : Nat
  frames : List SetFrame
  deriving DecidableEq, Repr, Inhabited

/-- The open frame set (R108). -/
structure OpenSet where
  teNs   : Nat
  opened : Nat
  ports  : List (Fin 4)      -- cameras taking part (R395)
  joined : List (Fin 4)      -- ports whose start-of-frame joined it
  got    : List SetFrame
  deriving DecidableEq, Repr, Inhabited

/-- An inference inbox (R265). -/
structure Inbox where
  count    : Nat            -- entries that the delivery holds; their bytes lie in the cistern
  complete : Bool
  deriving DecidableEq, Repr, Inhabited

structure World where
  epoch       : W32
  lastAdvance : Nat           -- tick of the latest advance, or of power-on (R301)
  built       : Bool
  primed      : Bool          -- the first fused set since power-on, reset, relight or clear has started the tracks
  camsLast    : Nat
  dirFull     : W16
  fuseCutoff  : W16
  staleLogged : Bool
  teNs        : Nat
  era         : Bool          -- the epoch has advanced since the latest power-on, reset, relight or world clear (R231)
  tePrev      : Option Nat    -- T of the epoch before, if it lies in the same era
  dir         : SMap DirEntry
  voxels      : SMap Voxel    -- by 512 × directory index + voxel
  coarse      : SMap Coarse   -- by x + 256 y + 65536 z
  tracks      : List Track
  overflowBox : List Track
  changed     : List Nat      -- bricks whose occupancy changed in this epoch
  changedPrev : List Nat
  probe       : SMap Voxel    -- by 16384 × port + voxel (R141)
  probeFail   : BitVec 4
  inboxes     : Vector Inbox 2
  newestInbox : Option (Fin 2)
  deliveries  : Nat           -- deliveries so far (R265)
  superseded  : Nat
  fullLogged  : Bool
  hotLogged   : Bool
  trackLogged : Bool
  cut         : List Nat      -- bricks that the latest run cut off (R117)
  refused     : List (Nat × Nat × Nat) -- bricks whose allocation was refused and not yet made good (R120)
  formed      : Option (Nat × Option Box) -- W_OCC and conveyor region under which OCCUPIED was last formed (R107, R115)
  clears      : Nat           -- world clears so far: a run dispatched before one writes nothing after it (R107)
  probed      : Vector (Option (W32 × List (Nat × Nat))) 4 -- frame counter and patch with which each region was filled (R299)
  places      : WorldPlaces   -- where the latest fusion image places the world's structures (R106)
  specHas     : List (Nat × W32) -- epoch of each speculation master, by window + 4 × parity (R230)
  waiting     : List FrameSet
  openSet     : Option OpenSet
  buffers     : Vector (Option (W32 × FrameSet)) 2 -- the frames of an epoch that each parity buffer holds (R256; as records, log 141)
  spheres     : SMap CarriedPart -- carried-part spheres by robot model (R262)
  deriving DecidableEq, Repr

/-! ## Loads and descriptors (chapters 6, 11, 14, 15) -/

/-- A seed of a library (R318): 32 waypoints and a goal, 12 joints each. -/
structure LibSeed where
  waypoints : List (List Int)
  goal      : List Int
  deriving DecidableEq, Repr, Inhabited

structure Goal where
  tool   : Bool                -- KIND 1
  robot  : Nat
  cls    : Nat
  values : List Int            -- 12 joint values, or 3 + 4 of the pose
  deriving DecidableEq, Repr, Inhabited

/-- A loaded weight set; `next` holds the sets that are to replace it once its jobs have ended, in the order of their loads
(R260). -/
structure WeightSet where
  hdr  : BlobHdr
  next : List (List Byte × RingId × W32)
  since : Nat
  deriving DecidableEq, Repr, Inhabited

/-- A grasp pose, position in mm and orientation as a quaternion, with its `IK` solution (R202, R263). -/
structure PosedSeed where
  row    : Nat                 -- the row of the head's result
  pose   : List Rat
  joints : List Rat
  deriving DecidableEq, Repr, Inhabited

/-- A posted seed set (R338). -/
structure SeedSet where
  solutions : List PosedSeed
  deriving DecidableEq, Repr, Inhabited

/-- A `RECIPE_LOAD` whose parse is under way (R432, R433). -/
structure RecipeWork where
  ring    : RingId
  index   : W32
  hdr     : BlobHdr
  started : Nat
  deriving DecidableEq, Repr, Inhabited

/-- What the opcode-dependent bytes of a descriptor say (R316). -/
inductive DescBody where
  | planLoad (src len : Nat) (planId : W32)
  | planRun (planId minEpoch : W32) (goal seedSet window : Nat) (tokens : BitVec 4) (afterSeq : W32)
      (planSeed : W64) (result resultLen : Nat)
  | goalSet (src len goal : Nat)
  | seedsLoad (src len cls mode : Nat)
  | weightsLoad (src len : Nat) (weightId : W32)
  | recipeLoad (src len : Nat)
  | contextSave (ring : Nat) (index : W32) (dst dstLen : Nat)
  | contextRestore (src len result resultLen : Nat)
  | cancel (ring : Nat) (index : W32)
  | fence (mask : W64)
  | query (dst len kind : Nat)
  | bad
  deriving DecidableEq, Repr, Inhabited

structure Desc where
  irq       : Bool
  specOk    : Bool
  seedGiven : Bool
  encrypted : Bool
  tag       : W32
  body      : DescBody
  deriving DecidableEq, Repr, Inhabited

/-- Completion statuses of R320. -/
inductive Status where
  | ok | okReplayed | cancelled | noRoute | noConfirmedPlan | infeasibleBest | refusedNoWorld | noFreshWorld
  | planMismatch | rangeExceeded | sealFail | deviceDetachedHold | jobFault
  deriving DecidableEq, Repr, Inhabited

/-- The outcome of a descriptor, as it waits in its release place (R344, R345). -/
structure Result where
  status : Status
  detail : Byte
  epoch  : W32
  restored : Bool
  report : Option (List Byte)   -- the job report, 512 B (R321)
  length : Nat                  -- bytes of the result buffer
  deriving DecidableEq, Repr, Inhabited

/-- Where an accepted descriptor stands. -/
inductive Stage where
  | entered      -- accepted, in the weir, its own step not yet taken
  | waiting      -- a job waiting for operands, or a fence or save that waits
  | ready        -- a job whose tokens are all matched
  | executing    -- a non-job descriptor whose execution has begun
  | running      -- a dispatched job
  | done (r : Result)
  deriving DecidableEq, Repr, Inhabited

/-! ## Jobs (chapters 4, 6 to 12) -/

/-- A fine sample of a sphere-waypoint: sphere, waypoint, judged clearance in 1/16 mm, gradient in 1/1,024 (R163,
R165). -/
structure FineSample where
  sphere   : Nat
  waypoint : Nat
  clear    : Int
  grad     : List Int
  deriving DecidableEq, Repr, Inhabited

/-- A candidate under evaluation (R146 to R169). `ctrl` holds the stored BFX16 mantissas of P_3 to P_11 by joint;
`lantern` is the checking lantern, which R218 may make another than the ID's. -/
structure Cand where
  id      : W32
  lantern : Nat
  index   : Nat                  -- its place in the lantern's order (R155)
  tUs     : Nat
  ctrl    : List (List Int)
  goal    : List Rat
  tail    : Option Rat           -- T_b in s
  marks   : BitVec 7
  queries : Nat                  -- queries done, of the 1,456 of R160
  torqued : Bool                 -- its 32 waypoints have been tested for torque (R152)
  coarse  : List (Nat × Nat × Int) -- sphere, waypoint, coarse bound in 1/16 mm (R161)
  fine    : List FineSample
  least   : Option (Int × Nat × Nat) -- smallest judged clearance, sphere, waypoint (R245)
  spans   : List (Nat × Nat × Nat) -- declared evaluation intervals: logical lantern, first and last cycle (R40)
  scored  : Bool
  deriving DecidableEq, Repr, Inhabited

/-- A Gauss-Newton system (R180): diagonal blocks, right-hand-side blocks, smoothness weight of the off-diagonal. -/
structure GnSystem where
  diag : List (List (List Rat))
  rhs  : List (List Rat)
  wSm  : Nat
  deriving DecidableEq, Repr, Inhabited

/-- A scalar factorisation (R182): pivots as 32-bit mantissas, factor entries as BFX16 mantissas. -/
structure Factor where
  pivots : List Int
  lower  : List (List Int)
  deriving DecidableEq, Repr, Inhabited

/-- An iterate of a solve: its number, its value, z and w of a `TS` solve by joint (R189), the flags with which it ends, the factors,
and the blocks Lb[k] of R181. -/
structure Iterate where
  iter    : Nat
  value   : List (List Rat)
  split   : List (List Rat)
  dual    : List (List Rat)
  flags   : Byte
  factors : List Factor
  lb      : List (List (List Rat))
  deriving DecidableEq, Repr, Inhabited

/-- A `GN`, `IK` or `TS` solve. `trial` holds what the interval in progress has formed and its residual's norm, with the lantern
whose counted elements may discard it: an assembly has number 0 (R190). -/
structure Solve where
  seed    : Nat
  kind    : SolveKind
  cur     : Iterate              -- the last tested iterate (R192)
  trial   : Option (Phys × Iterate × Rat)
  ended   : Bool
  phase   : Bool                 -- a solve of the seed phase (R176)
  lane    : Option (Nat × Nat)   -- logical lantern and lane that run it (R171)
  until_  : Nat                  -- cycle of the slot up to which it occupies that lane (R174)
  sys     : Option GnSystem      -- the system of a `GN` solve
  tUs     : Nat                  -- T of a `TS` solve (R188)
  target  : List Rat             -- the pose of an `IK` solve: position in mm, orientation as a quaternion
  deriving DecidableEq, Repr, Inhabited

/-- How a running job is to end at the next boundary. -/
inductive JobEnd where
  | none | cancelled | abort
  | fault (cls : EventClass)     -- at the end of its last slot (R57, R66)
  | faultNow (cls : EventClass)  -- at the next slot boundary (R383, R385, R397, R405)
  deriving DecidableEq, Repr, Inhabited

/-- The progress of the output phase of a slot (R237 to R241). -/
structure OutPhase where
  rows      : List BRow          -- valid rows 0 to 3
  confirmed : List Nat           -- row numbers still to try
  checked   : Bool
  attempts  : Nat                -- attempts started
  active    : Option Nat         -- row number under its attempt
  deriving DecidableEq, Repr, Inhabited

/-- What kind of slot a job is in (R274, R279). -/
inductive SlotKind where
  | work | save | restore
  deriving DecidableEq, Repr, Inhabited

structure Job where
  ref        : JobRef
  img        : PlanImage
  desc       : Desc
  slot       : Nat
  kind       : SlotKind
  spec       : Bool              -- speculative results (R234)
  epoch      : W32
  replayed   : Bool
  restored   : Bool
  recipe     : Option Recipe     -- the recipe in force at dispatch (R107)
  planSeed   : W64
  window     : Nat
  seedSet    : Nat
  goal       : Option Goal
  start      : List (Rat × Rat × Rat)   -- q0, v0, a0 by joint (R246)
  spliceNs   : Nat
  startNs    : Nat               -- 802.1AS time of the slot's boundary
  stream     : List CtrlCmd      -- commands of the slot's control stream that have not issued (R94)
  endAs      : JobEnd
  saver      : Option JobRef     -- the CONTEXT_SAVE that takes it (R274)
  lists      : SMap BList        -- by checking lantern
  result     : Option BList      -- merged result of the slot, the newest
  lastResult : Option BList      -- the latest slot's (R276)
  results    : SMap BList        -- merged results of the slot by the lantern that formed them (R225)
  ownSent    : List (Nat × BList) -- own results sent to the group, by slot (R383, R384)
  exchRead   : List Nat          -- slots whose exchanges have been read (R383)
  centres    : List Centre
  win        : Ram               -- the run's copy of its window and dynamic layer (R15, R233)
  winTe      : Nat               -- T_e of that layer, ns
  routeWin   : Ram               -- the run's copy of the route clearance master (R200)
  cands      : List Cand
  out        : OutPhase
  published  : Option Traj
  confirmedRow : Option BRow     -- first confirmed row of a restored run (R280)
  tried      : Bool              -- an attempt was made (R244)
  selected   : Bool              -- a feasible candidate was selected for output (R211)
  best       : Option BestInf
  marksSeen  : BitVec 7
  specBest   : Option BestInf    -- the same of the run's slots that are still speculative (R245)
  specMarks  : BitVec 7
  range      : W32
  counts     : Counts
  seeds      : List JobSeed
  pool       : List JobSeed      -- seeds of R153 not yet used
  spent      : List JobSeed      -- seeds that others replaced (R178)
  sigma      : List Rat
  sigmaT     : Rat
  route      : Route
  solves     : List Solve
  solutions  : List PosedSeed    -- grasp solutions to post (R263)
  carried    : Option CarriedPart -- the part's spheres the job was dispatched with (R262)
  parts      : SMap CarriedPart  -- those of every robot model at its dispatch (R111, R262)
  worldGen   : Nat               -- world clears before its dispatch (R107)
  fitted     : Option CarriedPart -- the fit to deliver at its end (R264)
  inbox      : Option Nat        -- the delivery that a fusion run merges, by its number (R126)
  bricks     : List (BitVec 20 × BitVec 512) -- its entries, or those that a completion job has written (R265)
  inboxLog   : Bool
  badLogged  : Bool              -- BEACON_BAD_ID logged in this slot (R213)
  fusing     : Option FrameSet
  phase      : Nat               -- phases of the fusion run done: fusion, distance fields, masters
  wasSpec    : Bool              -- dispatched speculatively, confirmed or not (R243)
  member     : Option Nat        -- this device's group number, in a group job (R382)
  deriving DecidableEq, Repr

/-- An accepted, unreleased descriptor: its weir entry, its release place, or both in turn (R335, R344). -/
structure DescEntry where
  ref      : JobRef
  desc     : Desc
  stage    : Stage
  matched  : BitVec 4            -- WORLD, GOAL, SEEDS, AFTER
  begun    : Bool                -- dispatched, or execution begun, since acceptance or the latest relight (R329)
  ever     : Bool                -- the same, through relights (R333)
  replayed : Bool
  cancelled : Bool               -- cancel mark (R329)
  verified : Bool                -- a restore's context is verified (R279)
  ctx      : Option SavedCtx
  resume   : Option Job          -- state from which an aborted speculation reruns (R242)
  notBefore : Option W32         -- epoch that a replayed encrypted result must leave behind (R426)
  deriving DecidableEq, Repr

/-! ## Rings and host memory (chapter 14) -/

/-- `RING_CTRL.STATE` (R322). -/
inductive RState where
  | off | running | notOwner | draining | stopped
  deriving DecidableEq, Repr, Inhabited

/-- What tells the counter blocks of encrypted results of a ring apart: session, GENERATION, DESC_INDEX and epoch (R425, R426). -/
structure EncOut where
  session    : Option Nat
  generation : W32
  index      : W32
  epoch      : W32
  deriving DecidableEq, Repr, Inhabited

structure Ring where
  base      : W64
  cq        : W64
  size      : Nat                -- SIZE_LOG2
  enable    : Bool
  sealed    : Bool
  startSrc  : Bool
  irqMode   : BitVec 2
  vector    : BitVec 6
  state     : RState
  owner     : W32
  startAcc  : W32
  startCmp  : W32
  accepted  : W32
  readTo    : W32                -- one past the last descriptor read: behind ACCEPTED while re-execution is due (R330)
  complete  : W32
  served    : Bool               -- has been in STATE 1 since it was last enabled
  lost      : Bool               -- records are discarded: the owner was lost (R331)
  session   : Option Nat         -- the session bound at enable (R423)
  encOut    : List EncOut        -- the counter blocks under which it has written encrypted results (R425, R426)
  deriving DecidableEq, Repr, Inhabited

structure Rings where
  ring      : Vector Ring 64
  dbBase    : W64
  shBase    : W64
  interval  : Nat
  statusVec : BitVec 6
  detached  : Bool
  held      : Bool               -- DEVICE_STATE.DETACHED
  header    : List Nat           -- shadow header fields as last written: DEVICE_STATE, epoch, ACTIVE, RELIGHTS
  deriving DecidableEq, Repr, Inhabited

/-- What the host sees: host memory as the device has read and written it, interrupts, the data of the last read. -/
structure HostIf where
  mem      : Ram
  irqs     : List Nat            -- MSI-X vectors raised, newest last
  busRead  : W64
  collide  : Bool                -- GLB_HOST_STATUS.POOL_COLLIDE
  ur       : Bool                -- GLB_HOST_STATUS.ACCESS_UR
  msix     : SMap W32            -- MSI-X table words, each entry's mask in its fourth word (R311)
  pba      : W64                 -- MSI-X pending-bit array
  deriving DecidableEq, Repr

/-! ## Sluice (chapter 15) -/

structure TraceRec where
  seq    : W32
  kind   : Nat
  flags  : Byte
  ring   : Nat
  arg    : Byte
  index  : W32
  slot   : Nat
  detail : Byte
  cycle  : Nat
  planId : W32
  time   : W48
  deriving DecidableEq, Repr, Inhabited

structure Sluice where
  prio      : Vector (BitVec 3) 64
  weirMax   : Nat
  traceMask : Byte
  traceSeq  : W32
  trace     : SMap TraceRec
  cursor    : BitVec 14
  goals     : SMap Goal
  seedSets  : SMap SeedSet
  specEn    : Bool               -- in force
  specReg   : Bool               -- SPEC_CTRL.ENABLE as read back
  confirmed : W16
  aborted   : W16
  images    : SMap PlanImage
  weights   : SMap WeightSet
  libs      : SMap (List LibSeed)
  recipe    : Option Recipe
  nextRec   : Option Recipe      -- installed, in force from the next boundary (R107)
  parse     : List RecipeWork
  deriving DecidableEq, Repr, Inhabited

/-! ## Safety (chapter 13) -/

/-- A cell of the reflector's conveyor bitmap: its key, the encoder position and the time (ns) at capture (R291, R405). -/
structure BeltCell where
  key : Nat
  pos : Int
  ns  : Nat
  deriving DecidableEq, Repr, Inhabited

/-- `SAFE_STATUS.STATE`. -/
inductive SState where
  | startup | service | relight | halt
  deriving DecidableEq, Repr, Inhabited

structure Safety where
  state     : SState
  handed    : Bool               -- a hand-off has followed the latest assertion of STOP_REQ_N
  current   : Option (EventClass × Nat)   -- the event handled and its severity
  suspended : List (EventClass × Nat)
  queue     : List (EventClass × Nat)
  overflow  : Nat                -- how often FAULT_QUEUE_OVERFLOW stands at the head of the queue
  relightAt : List Nat           -- ticks at which relights began, newest first
  relights  : W16
  disSlots  : W16
  disHist   : List Nat           -- grid counts of disagreement slots since the last relight
  degraded  : Bool
  stale     : Bool
  bitmap    : SMap Bool          -- reflector cells observed: occupied or free (R291)
  belt      : List BeltCell      -- conveyor cells (R291)
  deriving DecidableEq, Repr, Inhabited

/-! ## Intake and motion (chapter 18, R297 to R300) -/

/-- A checked frame: its counter, what differs in its patch, its verdict, and whether that verdict has been made since verdicts were last
judged (R300). -/
structure SeenFrame where
  counter  : W32
  patchErr : List (Nat × Nat)
  verdict  : Option Bool
  made     : Bool
  deriving DecidableEq, Repr, Inhabited

structure CamPort where
  state     : Nat                -- 0 to 4 (R394)
  cfgFails  : Nat
  refCtr    : Option W32         -- reference counter (R298)
  sofs      : Nat                -- start-of-frames since the reference frame
  lastSof   : Nat                -- tick
  sofNs     : Nat                -- start-of-frame of the frame in reception
  accepted  : Option Nat         -- start-of-frame of the previous accepted frame, ns (R392)
  early     : Bool               -- the frame in reception started too early (R392)
  inSet     : Bool               -- the frame in reception belongs to the open set (R108)
  late      : Bool               -- its set completed before it ended (R109)
  hist      : List SeenFrame     -- newest first (R300)
  failRun   : Nat
  passRun   : Nat
  patFail   : Bool
  probeFail : Bool
  pattern   : W32
  deriving DecidableEq, Repr, Inhabited

structure NodeState where
  present  : Bool
  hello    : Nat                 -- tick of the last valid hello
  rx       : Option W32          -- last COUNTER accepted
  tx       : W32                 -- next COUNTER to send
  hist     : List JointFrame     -- joint-state frames, newest first (R111, R136)
  deriving DecidableEq, Repr, Inhabited

/-- A setpoint frame as sent (R400). -/
structure Setpoint where
  nodeId   : W16
  counter  : W32
  timeNs   : Nat
  trajId   : W32
  still    : Bool
  stopReq  : Bool
  startNs  : Nat
  tUs      : Nat
  tailUs   : Nat
  winNs    : Nat
  ctrl     : List (List Int)
  rest     : List Int
  window   : List (List (Int × Int))
  deriving DecidableEq, Repr, Inhabited

structure Motion where
  cams     : Vector CamPort 4
  nodes    : Vector NodeState 32
  keyId    : W64
  trajs    : SMap (List Traj)    -- hand-offs by robot, newest first (R246)
  handedAt : SMap Nat            -- 802.1AS time of a robot's newest hand-off, ns (R402)
  sync     : Bool
  syncLost : Bool                -- a loss has been logged and not yet ended (R397)
  gm       : Bool
  gmRole   : Bool
  priority1 : Byte               -- this device's in the best master clock algorithm (R397)
  link     : BitVec 2
  tagFail  : Byte
  tagLog   : Option Nat
  awaitSync : Bool               -- publishing jobs wait for synchronisation after a pilot wake (R470)
  syncAt   : Nat
  offset   : Nat
  spWin    : Nat
  sent     : List Setpoint       -- setpoint frames of the last Qbv cycle
  hellos   : List (W16 × W32)    -- hellos of the last transmission: node, counter
  wire     : List (List Byte)    -- the frames of the last cycle or transmission as sent, with TAG (R399, R400, R404)
  i3c      : List (Nat × Bool)   -- in-band events passed to glow
  deriving DecidableEq, Repr, Inhabited

/-! ## K-links (chapter 17) -/

/-- What the device sends over the links: a group map by its version, an abort by PLAN_ID and TAG, a hand-off by its
ID, the world set of an epoch, a frame for receivers' reflectors, the data of a group exchange (R378, R383 to R388). -/
inductive KMsg where
  | map (version : W32)
  | abort (planId tag : W32)
  | traj (id : W32)
  | world (epoch : W32)
  | raw (port : Fin 4) (counter : W32)
  | exchange (tag : ExchTag) (data : BList)
  deriving DecidableEq, Repr, Inhabited

structure KPort where
  state    : Nat
  attempts : Nat
  partner  : Option Digest
  retrains : Byte
  crcErr   : W16
  crcRun   : Nat
  rxSeq    : BitVec 12           -- next sequence number expected
  txSeq    : BitVec 12           -- next sequence number to send
  txAck    : BitVec 12           -- cumulative acknowledgement received
  replay   : List (BitVec 12 × KMsg) -- replay buffer: what has been sent and not acknowledged, oldest first (R373)
  since    : Nat                 -- tick of entry to the state
  rxBytes  : Nat
  deriving DecidableEq, Repr, Inhabited

structure Klink where
  enable   : BitVec 4
  ports    : Vector KPort 4
  map      : GroupMap
  seen     : W32                 -- highest version seen
  pendMap  : Option GroupMap
  store    : List (ExchTag × BList × Nat)    -- waiting exchange data and its arrival boundary (R383)
  partners : List Traj
  changeAt : Option Nat          -- tick of the event that calls for a new map (R379)
  sent     : List KMsg           -- what has been sent to the other members, newest last
  peerAborts : List (W32 × W32)  -- aborts received since the latest boundary: PLAN_ID, TAG (R385)
  routes   : List (Option (Nat × Nat)) -- by member: next hop and port (R380)
  lostAt   : List (Digest × Nat) -- members of the map that are unreachable, and since which tick
  deriving DecidableEq, Repr, Inhabited

/-! ## Spouts and locks (chapter 16) -/

structure SChan where
  buf      : Vector Byte 64
  full     : Bool
  dropped  : Bool
  blocked  : Bool
  epoch    : Byte                -- SENDER_EPOCH
  msgEpoch : Byte
  ackSeq   : W16
  ackCode  : W16
  lastAck  : Option (Byte × W16 × W16) -- the receiver's memory of R364: MSG_EPOCH, SEQ and CODE last acknowledged
  nextSeq  : W16                 -- SEQ of the next new message of a sender within the device (R363)
  unacked  : Option (List Byte)  -- such a sender's message that no acknowledgement has ended (R364)
  deriving DecidableEq, Repr, Inhabited

/-- The spout channels and the lock bank. N4 to N15 are reserved and mapped nowhere (R353), so no access reaches one and the state holds
N0 to N3 (DEDUCED, log 135). -/
structure Spout where
  n        : Vector SChan 4
  sec      : Vector SChan 16
  cfg      : W32                 -- SPOUT_HOST_CFG, RW bits
  locks    : Vector (Option (Fin 11)) 64
  gateFail : Nat
  lockout  : Option Nat          -- tick at which the gate's lockout ends
  gateKey  : Bool
  signals  : Nat                 -- internal interrupts to sconce (R358)
  glowSignals : Nat              -- internal interrupts to glow
  deriving DecidableEq, Repr, Inhabited

/-! ## Security and management (chapters 19 and 20) -/

inductive Session where
  | none | unowned | owned
  deriving DecidableEq, Repr, Inhabited

structure Sec where
  session   : Session
  sessId    : Nat
  secret    : Digest
  earlier   : Option (Nat × Digest) -- earlier owned session that rings still bind, with its secret
  ke        : Nat                 -- message of the key exchange last taken
  keCert    : Bool
  kePeer    : List Byte           -- the agent's certificate, ephemeral public key and nonce (R422)
  keOut     : List Byte           -- what of the second message is still to be sent on S1 (R422)
  meas      : Vector Digest 8     -- M0 to M7
  debugSeen : Bool
  debugOff  : Bool                -- JTAG debug disabled since this boot (R413)
  cfgRec    : Bool
  hostload  : Bool
  reports   : W32
  reportOut : List Byte           -- report bytes before the signature
  reporting : Bool
  deriving DecidableEq, Repr, Inhabited

structure Mgmt where
  glow      : Nat                 -- GLOW_STATE
  restarts  : Byte
  viol      : Byte
  violLog   : Option Nat
  beatAt    : Nat
  restartAt : List Nat
  page      : BitVec 4
  busy      : Bool
  loadFail  : Bool
  image     : Ram
  sram      : Ram                 -- glow's data SRAM of 512 KiB (R431)
  beat      : W32                 -- the heartbeat word as glow last wrote it (R431)
  digest    : Digest              -- digest of the last verified load
  high      : Nat                 -- consecutive intervals above 90 %
  lowRun    : Nat                 -- consecutive intervals below 70 %
  deriving DecidableEq, Repr, Inhabited

/-! ## Ember log (chapter 21) -/

structure EmberRec where
  seq      : W32
  time     : W48
  cls      : EventClass
  sat      : Bool
  folded   : Bool
  damaged  : Bool
  spec     : Bool
  repeat_  : Nat
  words    : List W32
  defined  : Nat
  deriving DecidableEq, Repr, Inhabited

/-- A class's pending slot (R448). -/
structure PendSlot where
  cls      : EventClass
  count    : Nat
  sat      : Bool
  folded   : Bool
  words    : List W32
  defined  : Nat
  first    : Nat                  -- tick of its first event
  spec     : Bool
  deriving DecidableEq, Repr, Inhabited

structure Ember where
  next     : W32
  clear    : W32                  -- C
  reserve  : W32
  tail     : SMap EmberRec
  head     : SMap EmberRec
  flash    : SMap EmberRec
  headCopy : SMap EmberRec        -- the control area's copy of the head area (R450)
  flashed  : W32                  -- records below it are in flash
  last     : Option EmberRec
  writing  : Bool
  pend     : List PendSlot
  frozen   : Bool
  frozenAt : Nat
  frozenN  : Nat
  frozenS2 : Nat
  frozenS3 : Nat
  flushing : Bool
  flushTo  : W32                  -- the flush takes the records below it: those up to its latest trigger (R452)
  flashFail : Bool
  pages    : Nat                  -- writes of flash pages so far
  pageFail : Bool                 -- the last of them has failed, and its event is not yet logged (R452)
  index    : W16
  area     : BitVec 2
  winReady : Bool
  window   : List (Option EmberRec) -- the 64 records with which the window was last filled from flash (R454)
  online   : Bool                 -- the control area has been read (start-up step 5)
  held     : List PendSlot        -- events before that, at most 32
  heldDrop : Nat
  heldS2   : Nat                  -- of those beyond 32: severity 2, severity 3
  heldS3   : Nat
  triggers : List (EventClass × List Nat)
  clearing : Option (W16)         -- SEQ of the EMBER_CLEAR message awaiting its flush
  deriving DecidableEq, Repr, Inhabited

/-! ## The state -/

structure State where
  pwr      : Pwr
  fuses    : Fuses
  grid     : Grid
  lanterns : Vector Lantern 34
  map      : List Phys            -- physical lantern of logical 0, 1, … (R101)
  mapRetired : List Phys         -- lanterns that were retired when the numbers were last assigned (R11, R509)
  mapSet   : Bool                 -- the numbers have been assigned since the latest power-on or device reset (R509)
  mem      : MemUnit
  world    : World
  rings    : Rings
  host     : HostIf
  sluice   : Sluice
  descs    : List DescEntry       -- in acceptance order
  jobs     : List Job
  safety   : Safety
  motion   : Motion
  klink    : Klink
  spout    : Spout
  sec      : Sec
  mgmt     : Mgmt
  ember    : Ember
  free     : Nat                  -- the model's own: how many free values have been drawn
  pending  : List Instr
  deriving DecidableEq, Repr

/-- Why the block stops. No command of the block does: every command has the effect that the spec gives it, so the
type has no value. -/
inductive Fault where
  deriving DecidableEq, Repr

/-- Why a command has no meaning. -/
inductive Refusal where
  /-- The command is not modelled yet: raised by the arm of `exec` that names it. Safe. -/
  | notModelled (mnemonic : String)
  deriving DecidableEq, Repr

/-! ## Reset values -/

def Ram.empty : Ram := ⟨0, []⟩

/-- PWR_GOOD is low: nothing has started; STOP_REQ_N reads asserted (R489). -/
def Pwr.reset : Pwr :=
  { pwrGood := false, perstN := false, perstSeen := false, pwrFailN := true, railLow := 0, hub := false, ticks := 0
    timeHi := 0, step := 0, ready := false, pstate := .run, fail := 0, waitGlow := false, reflectorOk := true
    dozeEn := false, pilotArm := false, dozeIdle := 100, idleSince := 0, pll := 0, tjMax := 0, hottest := 0
    warn := false, tripped := false, low := false, stop := true, wakeN := false, preS1 := [], trimTest := false
    resetPend := false, powerFail := false, heldStart := none, dozeAt := 0, saveDigest := none }

def OwnerSlot.blank : OwnerSlot := ⟨0, false, false⟩

/-- DESIGN CHOICE (log 2): the fuses of a new ZG-3200-S: no owner, no retired lantern, spares 16 and 33. -/
def Fuses.reset : Fuses :=
  { grade := .zg3200, suffixX := false, stepping := 1, disabled := [], spares := [16, 33], retired := []
    owner0 := .blank, owner1 := .blank, lock := false, patchVer := 0, identity := 0 }

/-- The default period of R80 is 100, in 10 µs. -/
def Grid.reset : Grid :=
  { running := false, period := 100, retain := 2, regPeriod := 100, regRetain := 2, pending := false, count := 0
    base := 0, sub := 0, asTime := 0 }

def Wick.zero : Wick := ⟨Vector.replicate 8 0, [], 0⟩

/-- A configuration context after its lantern's reset. DESIGN CHOICE (log 80): the spec gives no contents. -/
def blankCtx : CtxCfg :=
  { store := [], code := [], drains := [], blockExp := [], preds := 0, spans := [], solves := [], beacon := default, cascade := default
    sampP := 0, sampC := 0, inputs := [], tables := [], epsilon := 0, topKs := [], sums := [] }

def Lantern.reset : Lantern :=
  { ctx := 0, switches := [], contexts := Vector.replicate 4 blankCtx, cycle := 0, job := none, gated := false, rangeCtr := 0, offers := [], fresh := [], counted := []
    eccCorr := 0, collide := false, rill := [], retain := .awake, idle := none, basin := .empty, wicks := [], diagStart := 0
    slices := 0, ret := 0, overdue := false, diagHold := false }

def MemUnit.reset : MemUnit :=
  { cistern := .empty, dram := .empty, groups := Vector.replicate 48 .awake, compat := false, poolReg := false
    poolPend := false, memWin := 3, present := 0, ddrFail := 0, d2dFail := 0, hostWin := 0, dataRate := 0
    capacity := 0, density := 0, dma := Vector.replicate 16 ⟨false, false, false, 0⟩, flights := [], nextId := 0, dramKey := 0
    recent := [], waits := [], backing := [], hubIn := [], hubSave := [] }

/-- The places of R106's structures one after another from address 0. DESIGN CHOICE (log 91): where a device that has run
no fusion image keeps the masters it receives (R386). -/
def packedPlaces : WorldPlaces :=
  { coarseDist := 0, coarseState := 0x0100_0000, directory := 0x0180_0000, hot := 0x01C0_0000
    masters := (List.range 4).map fun i => 0x03C0_0000 + 0x70_8000 * i
    spec := (List.range 8).map fun i => 0x0582_0000 + 0x70_8000 * i
    route := 0x08C0_0000, probe := 0x08D0_0000, payload := 0, inboxes := [0x08E0_0000, 0x08E8_0000] }

def World.reset : World :=
  { epoch := 0, lastAdvance := 0, built := false, primed := false, camsLast := 0, dirFull := 0, fuseCutoff := 0
    staleLogged := false, teNs := 0, era := false, tePrev := none, dir := [], voxels := [], coarse := [], tracks := []
    overflowBox := [], changed := [], changedPrev := [], probe := [], probeFail := 0
    inboxes := Vector.replicate 2 ⟨0, false⟩, newestInbox := none, deliveries := 0, superseded := 0, fullLogged := false
    hotLogged := false, trackLogged := false, cut := [], refused := [], formed := none, clears := 0, probed := Vector.replicate 4 none, places := packedPlaces, specHas := [], waiting := [], openSet := none
    buffers := Vector.replicate 2 none, spheres := [] }

def Ring.reset : Ring :=
  { base := 0, cq := 0, size := 4, enable := false, sealed := false, startSrc := false, irqMode := 0, vector := 0
    state := .off, owner := 0, startAcc := 0, startCmp := 0, accepted := 0, readTo := 0, complete := 0, served := false
    lost := false, session := none, encOut := [] }

def Rings.reset : Rings :=
  { ring := Vector.replicate 64 .reset, dbBase := 0, shBase := 0, interval := 4, statusVec := 0, detached := false
    held := false, header := [] }

def HostIf.reset : HostIf :=
  { mem := .empty, irqs := [], busRead := 0, collide := false, ur := false, msix := [], pba := 0 }

def Sluice.reset : Sluice :=
  { prio := Vector.replicate 64 4, weirMax := 256, traceMask := 0xFF, traceSeq := 0, trace := [], cursor := 0
    goals := [], seedSets := [], specEn := true, specReg := true, confirmed := 0, aborted := 0, images := []
    weights := [], libs := [], recipe := none, nextRec := none, parse := [] }

def Safety.reset : Safety :=
  { state := .startup, handed := false, current := none, suspended := [], queue := [], overflow := 0
    relightAt := [], relights := 0, disSlots := 0, disHist := [], degraded := false, stale := false, bitmap := []
    belt := [] }

def CamPort.reset : CamPort :=
  { state := 0, cfgFails := 0, refCtr := none, sofs := 0, lastSof := 0, sofNs := 0, accepted := none, early := false
    inSet := false, late := false, hist := [], failRun := 0, passRun := 0, patFail := false, probeFail := false
    pattern := 0 }

def NodeState.reset : NodeState := ⟨false, 0, none, 0, []⟩

/-- The default setpoint window of R398 is 40 µs. -/
def Motion.reset : Motion :=
  { cams := Vector.replicate 4 .reset, nodes := Vector.replicate 32 .reset, keyId := 0, trajs := [], handedAt := [], sync := false, syncLost := false
    gm := false, gmRole := false, priority1 := 0, link := 0, tagFail := 0, tagLog := none, awaitSync := false, syncAt := 0, offset := 0, spWin := 40
    sent := [], hellos := [], wire := [], i3c := [] }

def KPort.reset : KPort := ⟨0, 0, none, 0, 0, 0, 0, 0, 0, [], 0, 0⟩

def Klink.reset : Klink :=
  { enable := 0, ports := Vector.replicate 4 .reset, map := ⟨0, [], [], []⟩, seen := 0, pendMap := none, store := []
    partners := [], changeAt := none, sent := [], peerAborts := [], routes := [], lostAt := [] }

def SChan.reset : SChan := ⟨Vector.replicate 64 0, false, false, false, 0, 0, 0xFFFF, 0xFFFF, none, 0, none⟩

def Spout.reset : Spout :=
  { n := Vector.replicate 4 .reset, sec := Vector.replicate 16 .reset, cfg := 0, locks := Vector.replicate 64 none
    gateFail := 0, lockout := none, gateKey := false, signals := 0, glowSignals := 0 }

def Sec.reset : Sec :=
  { session := .none, sessId := 0, secret := 0, earlier := none, ke := 0, keCert := false, kePeer := [], keOut := []
    meas := Vector.replicate 8 0, debugSeen := false, debugOff := false, cfgRec := false, hostload := false
    reports := 0, reportOut := [], reporting := false }

def Mgmt.reset : Mgmt :=
  { glow := 1, restarts := 0, viol := 0, violLog := none, beatAt := 0, restartAt := [], page := 0, busy := false
    loadFail := false, image := .empty, sram := .empty, beat := 0, digest := 0, high := 0, lowRun := 0 }

/-- R458: Haldalmern clears each log at manufacture. DESIGN CHOICE (log 3): that clear record has SEQ 0. -/
def EmberRec.manufacture : EmberRec := ⟨0, 0, .emberCleared, false, false, false, false, 1, [0, 0, 0, 1], 4⟩

def Ember.reset : Ember :=
  { next := 0, clear := 0, reserve := 65536, tail := [], head := [], flash := [(0, .manufacture)], headCopy := [(0, .manufacture)], flashed := 1
    last := none, writing := false, pend := [], frozen := false, frozenAt := 0, frozenN := 0, frozenS2 := 0
    frozenS3 := 0, flushing := false, flushTo := 0, flashFail := false, pages := 0, pageFail := false, index := 0, area := 0, winReady := true, window := [], online := false
    held := [], heldDrop := 0, heldS2 := 0, heldS3 := 0, triggers := [], clearing := none }

/-- The block before its first power-on: PWR_GOOD is low, every register has its reset value, no command waits.
The command `POWER_ON` starts it (log 1). -/
def State.reset : State :=
  { pwr := .reset, fuses := .reset, grid := .reset, lanterns := Vector.replicate 34 .reset, map := [], mapRetired := [], mapSet := false
    mem := .reset, world := .reset, rings := .reset, host := .reset, sluice := .reset, descs := [], jobs := []
    safety := .reset, motion := .reset, klink := .reset, spout := .reset, sec := .reset, mgmt := .reset
    ember := .reset, free := 0, pending := [] }

end Sys2Proof.Machine
end

