-- ==== Sys2Proof/Machine/Ops.lean ====
section
/-! DEFINITION. Named operations over the state: sparse tables and memories, byte strings, lanterns, jobs, descriptors,
host memory, the shadow block, interrupts and the sluice trace. -/

namespace Sys2Proof.Machine

open Sys2Proof

/-- The outcomes of a command. -/
abbrev Out := Host.Outcome State Fault Refusal

/-! ## Bytes and numbers -/

def b2n (b : Bool) : Nat := if b then 1 else 0

/-- `n` bytes of `v`, little-endian (R7). -/
def leBytes : Nat → Nat → List Byte
  | 0, _ => []
  | n + 1, v => BitVec.ofNat 8 v :: leBytes n (v / 256)

/-- The number that bytes spell, little-endian (R7). -/
def leNat : List Byte → Nat
  | [] => 0
  | b :: t => b.toNat + 256 * leNat t

/-- Two's complement reading of the low `w` bits. -/
def sgn (w v : Nat) : Int :=
  let u := v % 2 ^ w
  if u < 2 ^ (w - 1) then (u : Int) else (u : Int) - 2 ^ w

/-- Two's complement writing on `w` bits. -/
def uns (w : Nat) (i : Int) : Nat := (i % (2 ^ w : Int)).toNat

/-- Bytes `off` to `off + n - 1` of a byte string, zero where it ends. -/
def slice (bs : List Byte) (off n : Nat) : List Byte :=
  let t := (bs.drop off).take n
  t ++ List.replicate (n - t.length) 0

/-- The little-endian field of `n` bytes at `off`. -/
def field (bs : List Byte) (off n : Nat) : Nat := leNat (slice bs off n)

/-- Bits `hi` to `lo` of a number. -/
def bits (v hi lo : Nat) : Nat := v / 2 ^ lo % 2 ^ (hi + 1 - lo)

def bit (v i : Nat) : Bool := v / 2 ^ i % 2 == 1

/-- `a` lies before `b` in serial-number order (R139). -/
def serialLt (a b : W32) : Bool := a != b && (b - a).toNat < 2 ^ 31

def serialLe (a b : W32) : Bool := a == b || serialLt a b

/-- Saturating increment of a counter. -/
def satInc {w : Nat} (c : BitVec w) : BitVec w := if c = BitVec.allOnes w then c else c + 1

def clampInt (lo hi v : Int) : Int := if v < lo then lo else if hi < v then hi else v

def sumNat (l : List Nat) : Nat := l.foldl (· + ·) 0

def sumInt (l : List Int) : Int := l.foldl (· + ·) 0

def nth {α : Type} (l : List α) (i : Nat) (d : α) : α := (l[i]?).getD d

def setNth {α : Type} (l : List α) (i : Nat) (v : α) : List α := l.set i v

/-! ## Sparse tables -/

def SMap.find {α : Type} : SMap α → Nat → Option α
  | [], _ => none
  | (j, v) :: t, k => if j = k then some v else SMap.find t k

def SMap.put {α : Type} : SMap α → Nat → α → SMap α
  | [], k, v => [(k, v)]
  | (j, w) :: t, k, v =>
    if k < j then (k, v) :: (j, w) :: t
    else if k = j then (k, v) :: t
    else (j, w) :: SMap.put t k v

def SMap.del {α : Type} (m : SMap α) (k : Nat) : SMap α := m.filter fun e => e.1 != k

/-- The canonical form of a table: keys strictly rising. -/
abbrev SMap.wf {α : Type} (m : SMap α) : Prop := (m.map Prod.fst).Pairwise (· < ·)

/-! ## Byte memories -/

/-- One byte. What an unlisted byte reads as: 0 before any loss of contents (log 4), then free (R71, R72). -/
def Ram.read (r : Ram) (a : Nat) : Byte :=
  match SMap.find r.cells a with
  | some v => v
  | none => if r.gen = 0 then 0 else Config.lostByte r.gen a

def Ram.write (r : Ram) (a : Nat) (v : Byte) : Ram :=
  if r.gen = 0 ∧ v = 0 then { r with cells := SMap.del r.cells a } else { r with cells := SMap.put r.cells a v }

/-- The canonical form of a memory. -/
abbrev Ram.wf (r : Ram) : Prop := SMap.wf r.cells ∧ (r.gen = 0 → ∀ c ∈ r.cells, c.2 ≠ 0)

def Ram.readN (r : Ram) (a n : Nat) : List Byte := (List.range n).map fun i => r.read (a + i)

def Ram.writeN (r : Ram) (a : Nat) : List Byte → Ram
  | [] => r
  | b :: t => Ram.writeN (r.write a b) (a + 1) t

/-- Loss of contents, but for the listed bytes at the addresses that `keep` names: they were restored. -/
def Ram.loseExcept (r : Ram) (keep : Nat → Bool) : Ram := ⟨r.gen + 1, r.cells.filter fun c => keep c.1⟩

/-- Loss of contents. -/
def Ram.lose (r : Ram) : Ram := r.loseExcept fun _ => false

/-- Writes the bytes whose addresses exist and drops the others. -/
def Ram.writeWhere (r : Ram) (ok : Nat → Bool) (a : Nat) : List Byte → Ram
  | [] => r
  | b :: t => Ram.writeWhere (if ok a then r.write a b else r) ok (a + 1) t

/-- A copy of the first `len` bytes of `src` laid over `dst` from `base` on. Where only one of the two has lost its
contents, the bytes that neither lists read as free in the result (log 4). -/
def Ram.overlay (dst src : Ram) (base len : Nat) : Ram :=
  ⟨max dst.gen src.gen,
   (dst.cells.filter fun c => decide (c.1 < base))
     ++ (src.cells.filter fun c => decide (c.1 < len)).map (fun c => (c.1 + base, c.2))
     ++ dst.cells.filter fun c => decide (base + len ≤ c.1)⟩

/-- Bytes of `data` that `be` enables, over what the word held. -/
def mergeBytes (be : BitVec 8) (old new : List Byte) : List Byte :=
  (List.range 8).map fun i => if be.getLsbD i then nth new i 0 else nth old i 0

/-! ## Lanterns -/

def lant (s : State) (p : Phys) : Lantern := s.lanterns.get p

/-- The configuration context that is active on a lantern. -/
def activeCtx (l : Lantern) : CtxCfg := l.contexts.get l.ctx

/-- Instruction `k` of a wick's store of 1,024, 0 where nothing has been loaded: that of the region of context k / 256 (R21,
R27). -/
def instrAt (l : Lantern) (wick : Fin 64) (k : Fin 1024) : BitVec 128 :=
  (((l.contexts.get (Fin.ofNat 4 (k.val / 256))).code.find? fun e => e.1 == 256 * wick.val + k.val % 256).map (·.2)).getD 0

/-- A context becomes active: its predicate set-up is taken. -/
def enterCtx (l : Lantern) (c : Fin 4) : Lantern :=
  { l with ctx := c, wicks := l.wicks.map fun e => (e.1, { e.2 with preds := (l.contexts.get c).preds }) }

def setLant (s : State) (p : Phys) (l : Lantern) : State := { s with lanterns := s.lanterns.set p l }

def modLant (s : State) (p : Phys) (f : Lantern → Lantern) : State := setLant s p (f (lant s p))

/-- The physical lantern that carries a logical number (R101). -/
def physOf (s : State) (n : Nat) : Option Phys := s.map[n]?

/-- The logical number of a physical lantern. -/
def logicalOf (s : State) (p : Phys) : Option Nat := s.map.findIdx? (· == p)

/-- The current active lantern count N. -/
def activeCount (s : State) : Nat := s.map.length

def allPhys : List Phys := List.finRange 34

/-! ## Grades and fuses (R1, R101) -/

def dieOf (p : Phys) : Nat := if p.val < 17 then 0 else 1

/-- Active and spare lanterns per die of a grade (R1). -/
def gradeActive : Grade → Nat
  | .zg3200 => 16 | .zg2800 => 14 | .zg2400 => 12

def gradeSpares : Grade → Nat
  | .zg3200 => 1 | .zg2800 => 1 | .zg2400 => 0

/-- The spares of a lantern's die: as many as the grade has, of those the fuses mark. -/
def dieSpares (f : Fuses) (p : Phys) : List Phys :=
  (allPhys.filter fun q => dieOf q == dieOf p && f.spares.contains q && !f.disabled.contains q).take (gradeSpares f.grade)

def isSpare (f : Fuses) (p : Phys) : Bool := (dieSpares f p).contains p

def isRetired (f : Fuses) (p : Phys) : Bool := f.retired.contains p

/-- The lanterns of a die that are built as active: as many as the grade has. -/
def dieActive (f : Fuses) (p : Phys) : List Phys :=
  (allPhys.filter fun q => dieOf q == dieOf p && !isSpare f q && !f.disabled.contains q).take (gradeActive f.grade)

/-- Lanterns that are neither active nor spare are disabled for good (R1). -/
def isDisabled (f : Fuses) (p : Phys) : Bool := !isSpare f p && !(dieActive f p).contains p

def spareNow (s : State) (p : Phys) : Bool :=
  isSpare s.fuses p && !s.mapRetired.contains p && !s.map.contains p

/-- The physical lanterns of a 32-bit mask of logical numbers. -/
def maskPhys (s : State) (m : W32) : List Phys :=
  (List.range 32).filterMap fun n => if m.getLsbD n then physOf s n else none

def maskLogical (m : W32) : List Nat := (List.range 32).filter fun n => m.getLsbD n

/-! ## Memory-side dies -/

def diePresent (s : State) (d : Nat) : Bool := s.mem.present.getLsbD d

def presentDies (s : State) : Nat := ((List.range 4).filter (diePresent s)).length

/-- The memory-side die and the bank group of a cistern address (R59). -/
def cisternDie (a : Nat) : Nat := a / 0x0300_0000

def cisternGroup (a : Nat) : Nat := 12 * cisternDie a + (a % 0x0300_0000) / 0x0040_0000

def cisternHas (s : State) (a : Nat) : Bool := a < 0x0C00_0000 && diePresent s (cisternDie a)

def gib : Nat := 2 ^ 30

def dramHas (s : State) (a : Nat) : Bool := a < s.mem.capacity * gib

/-- The channel of a DRAM address: the page modulo the channels in service (R64, R104), numbered in die order. -/
def dramChannel (s : State) (a : Nat) : Nat :=
  let chans := (List.range 24).filter fun c => diePresent s (c / 6)
  nth chans (a / 4096 % chans.length) 0

/-- The window of the 10 µs period in which a cycle of the slot lies (R65). -/
def windowOf (cycle : Nat) : Nat := cycle % 10000 / 625

def hostWindows (s : State) : List Nat := [4, 12, 2, 10].take s.mem.hostWin

def planWindow (s : State) (cycle : Nat) : Bool :=
  let w := windowOf cycle
  w != 0 && w != 8 && !(hostWindows s).contains w

/-! ## Contents of the data memories (R1, R44, R59, R64, R104) -/

def basinSize : Nat := 0x80_0000

/-- Bytes of a window with its dynamic layer (R132). -/
def masterLen : Nat := 0x70_8000

def placeAddr : Place → Nat
  | .basin _ a => a
  | .cistern a => a
  | .dram a => a

/-- Byte `a` of the memory in which the place lies exists. -/
def placeHas (s : State) (pl : Place) (a : Nat) : Bool :=
  match pl with
  | .basin l _ => decide (a < basinSize) && !isDisabled s.fuses l
  | .cistern _ => cisternHas s a
  | .dram _ => dramHas s a

def placeRam (s : State) : Place → Ram
  | .basin l _ => (lant s l).basin
  | .cistern _ => s.mem.cistern
  | .dram _ => s.mem.dram

def setPlaceRam (s : State) (pl : Place) (r : Ram) : State :=
  match pl with
  | .basin l _ => modLant s l fun x => { x with basin := r }
  | .cistern _ => { s with mem := { s.mem with cistern := r } }
  | .dram _ => { s with mem := { s.mem with dram := r } }

/-- `n` bytes from a place on; addresses that do not exist read 0. -/
def placeRead (s : State) (pl : Place) (n : Nat) : List Byte :=
  (List.range n).map fun i => if placeHas s pl (placeAddr pl + i) then (placeRam s pl).read (placeAddr pl + i) else 0

/-- Addresses that do not exist ignore writes. -/
def placeWrite (s : State) (pl : Place) (bs : List Byte) : State :=
  setPlaceRam s pl ((placeRam s pl).writeWhere (placeHas s pl) (placeAddr pl) bs)

/-- Bytes at addresses of a structure that begins at `base` in the cistern. -/
def storeAt (s : State) (base : Nat) (bs : List (Nat × Byte)) : State :=
  bs.foldl (fun s e => placeWrite s (.cistern (base + e.1)) [e.2]) s

/-- The first `len` bytes of a structure in the cistern, as a memory of their own. -/
def cisternCopy (s : State) (base len : Nat) : Ram :=
  ⟨s.mem.cistern.gen, (s.mem.cistern.cells.filter fun c => decide (base ≤ c.1 ∧ c.1 < base + len)).map fun c => (c.1 - base, c.2)⟩

/-- Speculation master `k` (window + 4 × parity) now belongs to epoch `e`. -/
def noteSpec (s : State) (k : Nat) (e : W32) : State :=
  { s with world := { s.world with specHas := (s.world.specHas.filter fun x => x.1 != k) ++ [(k, e)] } }

def word8 (bs : List Byte) : W64 := BitVec.ofNat 64 (field bs 0 8)

/-- A value returned to its requester. -/
def reqReturn (s : State) (req : Requester) (v : W64) : State :=
  match req with
  | .wick l => modLant s l fun x => { x with ret := v }
  | .rill l => modLant s l fun x => { x with ret := v }
  | .dma c _ => { s with mem := { s.mem with dma := s.mem.dma.set c { s.mem.dma.get c with ret := v } } }
  | .host => { s with host := { s.host with busRead := v } }
  | .debug => { s with host := { s.host with busRead := v } }

/-! ## Host accesses to DRAM (R67) -/

def hostWaits (s : State) : Bool := s.mem.hostWin == 0 && !s.jobs.isEmpty

def hostDram (s : State) (h : HostAcc) : State :=
  if h.write then placeWrite s (.dram h.addr) (leBytes h.bytes h.data.toNat)
  else reqReturn s .host (word8 (placeRead s (.dram h.addr) h.bytes))

/-- The accesses that waited are performed, in order. -/
def drainWaits (s : State) : State :=
  if hostWaits s then s
  else (s.mem.waits.foldl hostDram { s with mem := { s.mem with waits := [] } })

/-! ## Jobs and descriptors -/

end Sys2Proof.Machine

namespace Sys2Proof

open Sys2Proof.Machine

def PlanImage.hasStage (img : PlanImage) (b : Nat) : Bool := img.stageMaps.any fun m => m.any fun w => w.getLsbD b

def PlanImage.publishes (img : PlanImage) : Bool := img.flags.getLsbD 1

def PlanImage.fuses (img : PlanImage) : Bool := img.hasStage 0

def PlanImage.infers (img : PlanImage) : Bool := img.hasStage 9

/-- The stage set of logical lantern `n` in slot `k`. -/
def PlanImage.stageSet (img : PlanImage) (k n : Nat) : W16 :=
  match img.slots[k]? with
  | none => 0
  | some e => nth (nth img.stageMaps e.stageMap []) n 0

/-! What the image's body declares. -/

abbrev PlanImage.trains (img : PlanImage) : Bool := img.body.trains
abbrev PlanImage.weights (img : PlanImage) : List WeightRef := img.body.weights
abbrev PlanImage.routePasses (img : PlanImage) : Nat := img.body.routePasses
abbrev PlanImage.routeCycles (img : PlanImage) : Nat := img.body.routeCycles
abbrev PlanImage.seedEnd (img : PlanImage) : Nat := img.body.seedEnd
abbrev PlanImage.measCycle (img : PlanImage) : Nat := img.body.measCycle
abbrev PlanImage.optSeeds (img : PlanImage) : Nat := img.body.optSeeds
abbrev PlanImage.centresM (img : PlanImage) : Nat := img.body.centresM
abbrev PlanImage.jointExp (img : PlanImage) : List BlockExp := img.body.jointExp
abbrev PlanImage.group (img : PlanImage) : Option GroupCfg := img.body.group
abbrev PlanImage.ops (img : PlanImage) : List OpDecl := img.body.ops
abbrev PlanImage.tensorLen (img : PlanImage) : Nat := img.body.tensorLen
abbrev PlanImage.specMasters (img : PlanImage) : Bool := img.body.specMasters

/-- Configuration context `k` of the image. -/
def PlanImage.ctxAt (img : PlanImage) (k : Nat) : CtxCfg := nth img.body.contexts k blankCtx

def PlanImage.slotOf (img : PlanImage) (k : Nat) : SlotEntry := nth img.slots k default

/-- The control stream of slot `k`: the one that lies where the slot's entry says (R86, R94). -/
def PlanImage.ctrlOf (img : PlanImage) (k : Nat) : List CtrlCmd :=
  ((img.body.ctrl.find? fun c => c.off == (img.slotOf k).ctrlOff && c.len == (img.slotOf k).ctrlLen).map (·.cmds)).getD []

end Sys2Proof

namespace Sys2Proof.Machine

open Sys2Proof

def findJob (s : State) (r : JobRef) : Option Job := s.jobs.find? fun j => j.ref == r

def modJob (s : State) (r : JobRef) (f : Job → Job) : State :=
  { s with jobs := s.jobs.map fun j => if j.ref == r then f j else j }

def delJob (s : State) (r : JobRef) : State := { s with jobs := s.jobs.filter fun j => j.ref != r }

/-- The job dispatched on a lantern. -/
def jobOn (s : State) (p : Phys) : Option Job := (lant s p).job.bind (findJob s)

def jobPhys (s : State) (j : Job) : List Phys := maskPhys s j.img.lanternSet

def findDesc (s : State) (r : JobRef) : Option DescEntry := s.descs.find? fun d => d.ref == r

def modDesc (s : State) (r : JobRef) (f : DescEntry → DescEntry) : State :=
  { s with descs := s.descs.map fun d => if d.ref == r then f d else d }

def Stage.isDone : Stage → Bool
  | .done _ => true
  | _ => false

/-- Holds a weir entry (R335). -/
def Stage.inWeir : Stage → Bool
  | .entered | .waiting | .ready => true
  | _ => false

def DescBody.isJob : DescBody → Bool
  | .planRun .. | .contextRestore .. => true
  | _ => false

def DescBody.isCancel : DescBody → Bool
  | .cancel .. => true
  | _ => false

def DescBody.isFence : DescBody → Bool
  | .fence .. => true
  | _ => false

def DescBody.isGoalSet : DescBody → Bool
  | .goalSet .. => true
  | _ => false

def DescBody.isSeedsLoad : DescBody → Bool
  | .seedsLoad .. => true
  | _ => false

def DescBody.isQuery : DescBody → Bool
  | .query .. => true
  | _ => false

def DescBody.isPlanLoad : DescBody → Bool
  | .planLoad .. => true
  | _ => false

def DescBody.isWeightsLoad : DescBody → Bool
  | .weightsLoad .. => true
  | _ => false

def DescBody.isRecipeLoad : DescBody → Bool
  | .recipeLoad .. => true
  | _ => false

def DescBody.isRestore : DescBody → Bool
  | .contextRestore .. => true
  | _ => false

def DescBody.isBad : DescBody → Bool
  | .bad => true
  | _ => false

/-- `SLUICE_STATUS.WEIR_USED`: an entry that was given up at a dispatch is not taken again by a re-execution (R329, R335). -/
def weirUsed (s : State) : Nat := (s.descs.filter fun d => d.stage.inWeir && !d.ever).length

def weirOf (s : State) (r : RingId) : Nat := (s.descs.filter fun d => d.stage.inWeir && !d.ever && d.ref.ring == r).length

/-- Release places taken on a flow (R344): an aborted speculation keeps its place. -/
def placesOf (s : State) (r : RingId) : Nat := (s.descs.filter fun d => (!d.stage.inWeir || d.begun) && d.ref.ring == r).length

def imageOf (s : State) (planId : W32) : Option PlanImage := s.sluice.images.find planId.toNat

def jobImage (s : State) (d : DescEntry) : Option PlanImage :=
  match d.desc.body with
  | .planRun pid .. => imageOf s pid
  | .contextRestore .. => d.ctx.bind fun c => imageOf s c.planId
  | _ => none

def jobPlanId (d : DescEntry) : W32 :=
  match d.desc.body with
  | .planRun pid .. => pid
  | .contextRestore .. => (d.ctx.map (·.planId)).getD 0
  | _ => 0

def ringGet (s : State) (r : RingId) : Ring := s.rings.ring.get r

def setRing (s : State) (r : RingId) (v : Ring) : State :=
  { s with rings := { s.rings with ring := s.rings.ring.set r v } }

def modRing (s : State) (r : RingId) (f : Ring → Ring) : State := setRing s r (f (ringGet s r))

def RState.code : RState → Nat
  | .off => 0 | .running => 1 | .notOwner => 2 | .draining => 3 | .stopped => 4

def SState.code : SState → Nat
  | .startup => 0 | .service => 1 | .relight => 2 | .halt => 3

def PState.code : PState → Nat
  | .run => 0 | .hold => 1 | .doze => 2 | .pilot => 3

def Status.code : Status → Nat
  | .ok => 0x00 | .okReplayed => 0x01 | .cancelled => 0x02 | .noRoute => 0x03 | .noConfirmedPlan => 0x04
  | .infeasibleBest => 0x05 | .refusedNoWorld => 0x06 | .noFreshWorld => 0x07 | .planMismatch => 0x08
  | .rangeExceeded => 0x09 | .sealFail => 0x0A | .deviceDetachedHold => 0x0B | .jobFault => 0x0C

/-! ## Host memory, interrupts, the shadow block (R314) -/

def hostWrite (s : State) (a : Nat) (bs : List Byte) : State :=
  { s with host := { s.host with mem := s.host.mem.writeN a bs } }

/-- A word of the MSI-X table: an entry is masked at reset (PRESUMED from PCI Express, log 67). -/
def msixWord (h : HostIf) (off : Nat) : W32 := (h.msix.find off).getD (if off % 16 = 12 then 1 else 0)

/-- A vector is raised, or pends while it is masked. -/
def HostIf.irq (h : HostIf) (v : Nat) : HostIf :=
  if (msixWord h (16 * v + 12)).getLsbD 0 then { h with pba := h.pba ||| BitVec.ofNat 64 (2 ^ v) }
  else { h with irqs := h.irqs ++ [v] }

def raiseIrq (s : State) (v : Nat) : State := { s with host := s.host.irq v }

/-- A write of a word of the MSI-X table: an entry whose mask is cleared raises its vector if that pends. -/
def HostIf.msixWrite (h : HostIf) (off : Nat) (v : W32) : HostIf :=
  let h1 := { h with msix := h.msix.put off v }
  let n := off / 16
  if !(msixWord h1 (16 * n + 12)).getLsbD 0 && h.pba.getLsbD n then
    { h1 with pba := h.pba &&& ~~~ BitVec.ofNat 64 (2 ^ n), irqs := h.irqs ++ [n] }
  else h1

/-- A 48-bit pilot timestamp (R461). -/
def stamp (s : State) : Nat := s.pwr.ticks % 2 ^ 48

/-- The PCIe controller answers: powered, and out of the reset in which a low PERST_N holds it (R472). -/
def pcieUp (s : State) : Bool := s.pwr.hub && s.pwr.perstN

/-- Whether the device can write host memory: in service of the link (R333). -/
def hostReach (s : State) : Bool := pcieUp s && !s.rings.detached

def headerFields (s : State) : List Nat :=
  [b2n s.pwr.ready + 2 * s.safety.state.code + 8 * b2n s.rings.held, s.world.epoch.toNat, activeCount s,
   s.safety.relights.toNat]

def headerBytes (s : State) : List Byte :=
  ((headerFields s).flatMap (leBytes 4)) ++ leBytes 8 (stamp s) ++ List.replicate 40 0

def canWriteHeader (s : State) : Bool := hostReach s && s.rings.shBase != 0

def writeHeader (s : State) : State :=
  hostWrite { s with rings := { s.rings with header := headerFields s } } s.rings.shBase.toNat (headerBytes s)

/-- R314: the header is rewritten when one of its fields changes; R322: a change of DEVICE_STATE raises
STATUS_VECTOR. -/
def refreshHeader (s : State) : State :=
  if canWriteHeader s && s.rings.header != headerFields s then
    let s' := writeHeader s
    if s.rings.header.head? != (headerFields s).head? then raiseIrq s' s.rings.statusVec.toNat else s'
  else s

def entryBytes (s : State) (r : RingId) : List Byte :=
  let g := ringGet s r
  leBytes 4 g.accepted.toNat ++ leBytes 4 g.complete.toNat ++ leBytes 4 g.owner.toNat
    ++ leBytes 4 g.state.code ++ leBytes 8 (stamp s) ++ List.replicate 8 0

def entryAddr (s : State) (r : RingId) : Nat := s.rings.shBase.toNat + 0x40 + 32 * r.val

/-- Writes the shadow entry of a ring: never for a ring whose owner is lost or not yet proved (R331). -/
def writeEntry (s : State) (r : RingId) : State :=
  if hostReach s && s.rings.shBase != 0 && !(ringGet s r).lost && (ringGet s r).served && (ringGet s r).state != .notOwner then
    hostWrite s (entryAddr s r) (entryBytes s r)
  else s

def setRState (s : State) (r : RingId) (st : RState) : State := modRing s r fun g => { g with state := st }

/-! ## The trace (R349, R350) -/

def slotCycles (s : State) : Nat := s.grid.sub / 4

/-- One decision, if its kind is enabled. -/
def traceAdd (s : State) (kind : Nat) (r : JobRef) (fl : Byte) (arg : Nat) (slot : Nat) (detail : Byte)
    (planId : W32) : State :=
  let t : TraceRec :=
    { seq := s.sluice.traceSeq, kind, flags := fl, ring := r.ring.val, arg := BitVec.ofNat 8 arg, index := r.index
      slot, detail, cycle := slotCycles s, planId, time := BitVec.ofNat 48 s.pwr.ticks }
  { s with sluice :=
    if s.sluice.traceMask.getLsbD kind then
      { s.sluice with
        traceSeq := s.sluice.traceSeq + 1
        trace := s.sluice.trace.put (s.sluice.traceSeq.toNat % 16384) t }
    else s.sluice }

def traceFlags (spec replayed restored : Bool) : Byte :=
  BitVec.ofNat 8 (b2n spec + 2 * b2n replayed + 4 * b2n restored)

def isRestore (d : DescEntry) : Bool :=
  match d.desc.body with
  | .contextRestore .. => true
  | _ => false

/-- A decision about an accepted descriptor that is not running speculatively. -/
def traceDesc (s : State) (kind : Nat) (d : DescEntry) (arg : Nat) (detail : Byte) : State :=
  let spec := (findJob s d.ref).any (·.spec)
  let slot := ((findJob s d.ref).map (·.slot)).getD 0
  traceAdd s kind d.ref (traceFlags spec d.replayed (isRestore d)) arg slot detail (jobPlanId d)

/-! ## Tokens and readiness (R336, R339, R340) -/

/-- The tokens that a descriptor selects: WORLD, GOAL, SEEDS, AFTER. -/
def tokensOf (d : DescEntry) : BitVec 4 :=
  match d.desc.body with
  | .planRun _ _ _ _ _ t .. => t
  | _ => 0

/-- No descriptor that follows a `FENCE` on its ring becomes ready before the `FENCE` completes. -/
def fenced (s : State) (d : DescEntry) : Bool :=
  (s.descs.takeWhile fun e => e.ref != d.ref).any fun e =>
    e.ref.ring == d.ref.ring && e.desc.body.isFence && !e.stage.isDone

def fusionWaits (s : State) (d : DescEntry) : Bool :=
  ((jobImage s d).any (·.fuses)) && s.world.waiting.isEmpty

/-- Whether a job has all that R336, R340 and R279 ask of it to be ready. -/
def jobReady (s : State) (d : DescEntry) : Bool :=
  let selected := tokensOf d
  (selected &&& ~~~ d.matched) == 0 && !fenced s d && !fusionWaits s d
    && (match d.desc.body with
        | .planRun .. => true
        | .contextRestore .. => d.verified
        | _ => false)

/-- The sluice wakes the retained basins of undispatched lanterns that a ready job is to use (R18, R56); the device leaves
hold with it (R465). -/
def wakeLanterns (s : State) (ps : List Phys) : State :=
  let cold := ps.filter fun p => (lant s p).retain == .retained && (lant s p).job.isNone
  if cold.isEmpty || s.pwr.pstate == .doze || s.pwr.pstate == .pilot then s
  else
    let s1 := cold.foldl (fun s p => modLant s p fun l => { l with
      retain := .waking (s.pwr.ticks + 12 * ticksPerUs), idle := none }) s
    { s1 with pwr := { s1.pwr with pstate := .run } }

def wakeJob (s : State) (d : DescEntry) : State :=
  match jobImage s d with
  | some img => wakeLanterns s (maskPhys s img.lanternSet)
  | none => s

/-- The wakes of R18 for every job that is ready. -/
def wakeReady (s : State) : State := (s.descs.filter fun d => d.stage == .ready).foldl wakeJob s

/-- Brings a waiting job to ready, or an un-dispatched ready fusion job back to waiting. -/
def settleReady (s : State) (d : DescEntry) : State :=
  match d.stage with
  | .waiting =>
    if jobReady s d then wakeJob (traceDesc (modDesc s d.ref fun e => { e with stage := .ready }) 2 d 0 0) d else s
  | .ready => if jobReady s d then s else modDesc s d.ref fun e => { e with stage := .waiting }
  | _ => s

def settleAll (s : State) : State := s.descs.foldl settleReady s

/-- Matches token bit `b` of one descriptor, if it is selected and not yet matched. -/
def matchToken (b : Nat) (s : State) (d : DescEntry) : State :=
  if (tokensOf d).getLsbD b && !d.matched.getLsbD b && d.stage == .waiting then
    traceDesc (modDesc s d.ref fun e => { e with matched := e.matched ||| BitVec.ofNat 4 (2 ^ b) }) 1 d (2 ^ b) 0
  else s

/-- Matches token bit `b` of every waiting job that `p` admits, then settles readiness. -/
def matchWhere (s : State) (b : Nat) (p : DescEntry → Bool) : State :=
  settleAll ((s.descs.filter p).foldl (matchToken b) s)

def minEpoch (d : DescEntry) : W32 :=
  match d.desc.body with
  | .planRun _ m .. => m
  | _ => 0

def goalOf (d : DescEntry) : Nat :=
  match d.desc.body with
  | .planRun _ _ g .. => g
  | _ => 0

def seedSetOf (d : DescEntry) : Nat :=
  match d.desc.body with
  | .planRun _ _ _ ss .. => ss
  | _ => 0

def afterOf (d : DescEntry) : W32 :=
  match d.desc.body with
  | .planRun _ _ _ _ _ _ a .. => a
  | _ => 0

def matchWorld (s : State) : State := matchWhere s 0 fun d => serialLe (minEpoch d) s.world.epoch

def matchGoal (s : State) (g : Nat) : State := matchWhere s 1 fun d => goalOf d == g

def matchSeeds (s : State) (n : Nat) : State := matchWhere s 2 fun d => seedSetOf d == n

def matchAfter (s : State) (r : JobRef) : State :=
  matchWhere s 3 fun d => d.ref.ring == r.ring && afterOf d == r.index

/-- A condition of R466 does not hold at this moment: the idle time starts again. -/
def busyNow (s : State) : State := { s with pwr := { s.pwr with idleSince := s.pwr.ticks } }

/-! ## Sending over the links (R373, R380) -/

/-- A port queues a packet under its next sequence number and keeps it for replay. DESIGN CHOICE (log 70): one entry stands
for the packets of a message, whose formats the spec does not give. -/
def KPort.send (p : KPort) (m : KMsg) : KPort :=
  if p.state == 3 then { p with txSeq := p.txSeq + 1, replay := p.replay ++ [(p.txSeq, m)] } else p

/-- A message to the members that routes lead to, by the port of each route. -/
def Klink.sendOver (k : Klink) (routes : List (Option (Nat × Nat))) (m : KMsg) : Klink :=
  if routes.all (·.isNone) then k
  else routes.foldl (fun k r => match r with
    | some x => { k with ports := k.ports.set (Fin.ofNat 4 x.2) ((k.ports.get (Fin.ofNat 4 x.2)).send m) }
    | none => k) { k with sent := k.sent ++ [m] }

/-- A message to every other member of the installed map. -/
def Klink.send (k : Klink) (m : KMsg) : Klink := k.sendOver k.routes m

/-- A job that waits in the weir and runs a group image under a PLAN_ID and a TAG. -/
def isCopy (s : State) (planId tag : W32) (d : DescEntry) : Bool :=
  d.stage.inWeir && d.desc.tag == tag
    && (jobImage s d).any fun img => img.planId == planId && img.group.isSome

/-- A member that ends its copy of a group job early tells the other members (R385). -/
def sendAbort (s : State) (img : PlanImage) (tag : W32) : State :=
  if img.group.isSome then { s with klink := s.klink.send (.abort img.planId tag) } else s

/-- A running job that an S2 event ends at the next boundary; a cancel or an abort that comes first stands. -/
def JobEnd.orNow (e : JobEnd) (cls : EventClass) : JobEnd :=
  match e with
  | .none | .fault _ => .faultNow cls
  | .cancelled | .abort | .faultNow _ => e

/-! ## Completion (R319, R329, R345, R347) -/

/-- A descriptor completes: its result goes to its release place, the AFTER tokens that name it are matched and jobs
behind a completed `FENCE` settle. A replayed `OK` is `OK_REPLAYED` (R329). -/
def complete (s : State) (r : JobRef) (res : Result) : State :=
  match findDesc s r with
  | none => s
  | some d =>
    let st := if d.replayed && res.status == .ok then .okReplayed else res.status
    let s1 := modDesc (if d.stage.inWeir then busyNow s else s) r fun e => { e with stage := .done { res with status := st } }
    matchAfter (traceDesc s1 5 d st.code res.detail) r

/-- A result without a job report. -/
def plainResult (st : Status) (detail : Nat) : Result :=
  { status := st, detail := BitVec.ofNat 8 detail, epoch := 0, restored := false, report := none, length := 0 }

def finish (s : State) (r : JobRef) (st : Status) (detail : Nat) : State := complete s r (plainResult st detail)

/-- The flow's next non-job descriptor to execute (R340). -/
def headNonJob (s : State) (ring : RingId) : Option DescEntry :=
  s.descs.find? fun d => d.ref.ring == ring && !d.desc.body.isJob && !d.desc.body.isCancel && !d.stage.isDone

/-- A ring that a poll has found to be this device's since it was enabled has its descriptors executed (R328, R331). -/
def ringServes (s : State) (ring : RingId) : Bool := (ringGet s ring).served

/-- Whether the sluice may begin an execution on a flow: in service, attached, no power failure, a place free. -/
def mayBegin (s : State) (ring : RingId) : Bool :=
  s.pwr.hub && s.pwr.ready && s.safety.state == .service && !s.rings.detached && !s.pwr.powerFail
    && ringServes s ring && placesOf s ring < 1024

/-- The descriptor at the head of a flow's non-job order, if its execution can begin now. -/
def beginable (s : State) (ring : RingId) : Option DescEntry :=
  match headNonJob s ring with
  | some d => if d.stage == .entered && mayBegin s ring then some d else none
  | none => none

/-- Execution begins: the descriptor is ready, its weir entry is freed and a release place is taken (R335, R340, R344, R349). -/
def beginExec (s : State) (d : DescEntry) : State :=
  modDesc (busyNow (traceDesc s 2 d 0 0)) d.ref fun e => { e with stage := .executing, begun := true, ever := true }

/-! ## Commands reach the hub only while it is powered -/

/-- A command to a hub unit: without effect while the hub domains are unpowered or in reset. -/
def live (s : State) (f : State → State) : Out := .next (if s.pwr.hub then f s else s)

/-- An access of the host through the link: without effect while the PCIe controller is held in reset or unpowered (R472). -/
def busLive (s : State) (f : State → State) : Out := .next (if pcieUp s then f s else s)

/-- A command that comes over the link, or from a core of the device. -/
def viaBus (host : Bool) (s : State) (f : State → State) : Out := if host then busLive s f else live s f

/-- A command to a unit of the pilot domain, which runs while PWR_GOOD is asserted (R460). -/
def pilotLive (s : State) (f : State → State) : Out := .next (if s.pwr.pwrGood then f s else s)

/-- A command to the compute and memory-side dies: without effect unless the service runs. -/
def serve (s : State) (f : State → State) : Out :=
  live s fun s => if s.pwr.ready && s.safety.state == .service then f s else s

/-! ## The passing of time -/

/-- 802.1AS time in ns. -/
def asNs (s : State) : Nat := s.grid.asTime / 4

/-- One cycle of the pilot oscillator, 31.25 ns (R461): 125 quarter nanoseconds of the slot grid and of 802.1AS time. -/
def tickPass (s : State) : State :=
  if s.pwr.pwrGood then
    { s with
      pwr := { s.pwr with ticks := s.pwr.ticks + 1 }
      grid := { s.grid with sub := if s.grid.running then s.grid.sub + 125 else s.grid.sub
                            asTime := if s.pwr.hub then s.grid.asTime + 125 else s.grid.asTime } }
  else s

end Sys2Proof.Machine
end

