-- ==== Sys2Proof/Machine/Spline.lean ====
section
/-! DEFINITION. Trajectory arithmetic (R146 to R159): the clamped quintic B-spline, its derivative control points, the
clamping rebuild, the braking tail, waypoints and sweep radii, and the counter-based perturbation, in exact rationals. -/

namespace Sys2Proof.Machine

open Sys2Proof

/-! ## Rounding -/

/-- Round half to even of a rational: the rounding of R36, the only one the spec defines (DEDUCED, log 12). -/
def rhe (q : Rat) : Int :=
  let f := q.floor
  let r := q - f
  if r > 1 / 2 then f + 1
  else if r = 1 / 2 then (if f % 2 = 0 then f else f + 1)
  else f

/-- 2^e for a signed exponent. -/
def pow2 (e : Int) : Rat := if 0 ≤ e then (2 : Rat) ^ e.toNat else 1 / (2 : Rat) ^ (-e).toNat

/-- The value of a BFX16 mantissa (R31), and the stored mantissa of a value (R38). -/
def bfxVal (e m : Int) : Rat := m * pow2 e

def bfxStore (e : Int) (v : Rat) : Int := clampInt (-32768) 32767 (rhe (v / pow2 e))

/-- A value clamps as it is stored. -/
def bfxClamps (e : Int) (v : Rat) : Bool := rhe (v / pow2 e) < -32768 || 32767 < rhe (v / pow2 e)

def clampRat (lo hi v : Rat) : Rat := if v < lo then lo else if hi < v then hi else v

/-- The geometric mean of two positive values (R157). DESIGN CHOICE (log 24): the root is held in steps of 2^-32. -/
def geoMean (a b : Rat) : Rat :=
  clampRat a b (((Nat.sqrt (a * b * 2 ^ 64).floor.toNat + b2n (Config.rootUp (a * b)) : Nat) : Rat) / 2 ^ 32)

def absRat (q : Rat) : Rat := if q < 0 then -q else q

def sumRat (l : List Rat) : Rat := l.foldl (· + ·) 0

def maxRat (l : List Rat) : Rat := l.foldl (fun a b => if a < b then b else a) 0

/-- 2^-16 rad or mm as a value (R318). -/
def unit16 (n : Int) : Rat := (n : Rat) / 65536

/-! ## The spline (R146, R147) -/

def knot (i : Nat) : Rat := if i ≤ 5 then 0 else if 12 ≤ i then 1 else ((i : Rat) - 5) / 7

/-- Derivative control points of degree `d`: knots shifted by `off`. V is `diffPts 5 1 P`, A is `diffPts 4 2 V`, J is
`diffPts 3 3 A` (R147). -/
def diffPts (d off : Nat) (p : List Rat) : List Rat :=
  (List.range (p.length - 1)).map fun i =>
    (d : Rat) * (nth p (i + 1) 0 - nth p i 0) / (knot (i + 6) - knot (i + off))

def velPts (p : List Rat) : List Rat := diffPts 5 1 p

def accPts (p : List Rat) : List Rat := diffPts 4 2 (velPts p)

def jerkPts (p : List Rat) : List Rat := diffPts 3 3 (accPts p)

/-- Cox and de Boor basis function of degree `d` on the knots from `off` on; a term over an empty knot span is 0. -/
def basis (off : Nat) : Nat → Nat → Rat → Rat
  | 0, i, u => if knot (i + off) ≤ u ∧ u < knot (i + off + 1) then 1 else 0
  | d + 1, i, u =>
    let a := knot (i + off)
    let b := knot (i + off + d + 1)
    let c := knot (i + off + 1)
    let e := knot (i + off + d + 2)
    (if a = b then 0 else (u - a) / (b - a) * basis off d i u)
      + (if c = e then 0 else (e - u) / (e - c) * basis off d (i + 1) u)

/-- The curve of degree `d` with the given control points; at u = 1 it is the last one. -/
def curve (off d : Nat) (p : List Rat) (u : Rat) : Rat :=
  if 1 ≤ u then nth p (p.length - 1) 0
  else sumRat ((List.range p.length).map fun i => nth p i 0 * basis off d i u)

/-- Position, velocity and acceleration of the body at time `t` of a body of duration `T`, in seconds. -/
def bodyAt (p : List Rat) (T t : Rat) : Rat × Rat × Rat :=
  let u := t / T
  (curve 0 5 p u, curve 1 4 (velPts p) u / T, curve 2 3 (accPts p) u / T ^ 2)

/-- P_0 to P_2 from the start state (R147). -/
def headPts (q0 v0 a0 T : Rat) : List Rat :=
  let p1 := q0 + v0 * T * (knot 6 - knot 1) / 5
  let v1 := v0 * T + a0 * T ^ 2 * (knot 6 - knot 2) / 4
  [q0, p1, p1 + v1 * (knot 7 - knot 2) / 5]

/-- The clamping rebuild of R148 for one joint. -/
def rebuild (j : Joint) (q0 v0 a0 T : Rat) (pStar : List Rat) : List Rat :=
  let jmax := unit16 j.jMax * T ^ 3
  let amax := unit16 j.aMax * T ^ 2
  let vmax := unit16 j.vMax * T
  let js := jerkPts pStar
  let a := (List.range 9).foldl (fun (acc : List Rat) i =>
    let x := clampRat (-jmax) jmax (nth js i 0)
    acc ++ [clampRat (-amax) amax (nth acc i 0 + x * (knot (i + 6) - knot (i + 3)) / 3)]) [a0 * T ^ 2]
  let v := (List.range 10).foldl (fun (acc : List Rat) i =>
    acc ++ [clampRat (-vmax) vmax (nth acc i 0 + nth a i 0 * (knot (i + 6) - knot (i + 2)) / 4)]) [v0 * T]
  (List.range 11).foldl (fun (acc : List Rat) i =>
    acc ++ [clampRat (unit16 j.qMin) (unit16 j.qMax)
      (nth acc i 0 + nth v i 0 * (knot (i + 6) - knot (i + 1)) / 5)]) [q0]

def within (lim : Rat) (l : List Rat) : Bool := l.all fun x => absRat x ≤ lim

/-- The exact check of R149 for one joint. -/
def kinOk (j : Joint) (T : Rat) (p : List Rat) : Bool :=
  p.all (fun x => unit16 j.qMin ≤ x && x ≤ unit16 j.qMax)
    && within (unit16 j.vMax * T) (velPts p) && within (unit16 j.aMax * T ^ 2) (accPts p)
    && within (unit16 j.jMax * T ^ 3) (jerkPts p)

/-! ## The braking tail (R151) -/

/-- End state of a body: position, velocity, acceleration. -/
def endState (p : List Rat) (T : Rat) : Rat × Rat × Rat :=
  (nth p 11 0, nth (velPts p) 10 0 / T, nth (accPts p) 9 0 / T ^ 2)

def tailRest (e : Rat × Rat × Rat) (tb : Rat) : Rat := e.1 + e.2.1 * tb / 2 + e.2.2 * tb ^ 2 / 12

/-- The six Bézier points of the tail's quintic from the end state to (q_rest, 0, 0). -/
def tailBez (e : Rat × Rat × Rat) (tb : Rat) : List Rat :=
  let r := tailRest e tb
  [e.1, e.1 + e.2.1 * tb / 5, e.1 + 2 * e.2.1 * tb / 5 + e.2.2 * tb ^ 2 / 20, r, r, r]

def deltas (l : List Rat) : List Rat :=
  (List.range (l.length - 1)).map fun i => nth l (i + 1) 0 - nth l i 0

/-- Velocity Bézier points of a tail. -/
def tailVel (e : Rat × Rat × Rat) (tb : Rat) : List Rat := (deltas (tailBez e tb)).map fun d => 5 * d / tb

/-- Step 3 of R151 for one joint, on the Bézier points of its tail. -/
def tailWithin (j : Joint) (b : List Rat) (tb : Rat) : Bool :=
  let d1 := deltas b
  let d2 := deltas d1
  let d3 := deltas d2
  b.all (fun x => unit16 j.qMin ≤ x && x ≤ unit16 j.qMax)
    && within (unit16 j.vMax * tb / 5) d1 && within (unit16 j.aBrake * tb ^ 2 / 20) d2
    && within (unit16 j.jBrake * tb ^ 3 / 60) d3

def tailOk (j : Joint) (e : Rat × Rat × Rat) (tb : Rat) : Bool := tailWithin j (tailBez e tb) tb

/-- T_b in seconds of a candidate whose joints end as `es`: the first that passes on every joint; the hold of
`TAIL_T0` for a candidate that ends at rest. -/
def tailTime (js : List Joint) (es : List (Rat × Rat × Rat)) (t0 : Rat) : Option Rat :=
  if es.all fun e => e.2.1 = 0 ∧ e.2.2 = 0 then some t0
  else
    ((List.range 16).map fun n => t0 * (5 / 4 : Rat) ^ n).find? fun tb =>
      (List.range js.length).all fun j => tailOk (nth js j default) (nth es j (0, 0, 0)) tb

/-- Position, velocity and acceleration in the tail at time `t` after its start. -/
def tailAt (e : Rat × Rat × Rat) (tb t : Rat) : Rat × Rat × Rat :=
  let b := tailBez e tb
  let u := t / tb
  let bern := fun (n i : Nat) => (Nat.choose n i : Rat) * u ^ i * (1 - u) ^ (n - i)
  let ev := fun (pts : List Rat) => sumRat ((List.range pts.length).map fun i => nth pts i 0 * bern (pts.length - 1) i)
  (ev b, 5 * ev (deltas b) / tb, 20 * ev (deltas (deltas b)) / tb ^ 2)

/-! ## Trajectories in time -/

def usSec (us : Rat) : Rat := us / 1000000

/-- End of the braking tail, in ns. -/
def trajEnd (t : Traj) : Rat := t.startNs + 1000 * (t.tUs + t.tail)

/-- The trajectory that governs at an instant: of the robot's hand-offs, newest first, the newest whose START has come
(R246, R401). -/
def governs (ts : List Traj) (ns : Nat) : Option Traj := ts.find? fun t => t.startNs ≤ ns

/-- The hand-offs that can still govern from an instant on: those with a later START, and the one that governs then. -/
def liveTrajs (ts : List Traj) (ns : Nat) : List Traj :=
  (ts.takeWhile fun t => decide (ns < t.startNs)) ++ (governs ts ns).toList

/-- Position, velocity and acceleration of one axis at an instant (ns): body, tail, then rest (R246). -/
def axisAt (t : Traj) (axis : Nat) (ns : Rat) : Rat × Rat × Rat :=
  let p := nth t.ctrl axis []
  let T := usSec t.tUs
  let tb := usSec t.tail
  let dt := (ns - t.startNs) / 1000000000
  if dt ≤ T then bodyAt p T dt
  else if dt ≤ T + tb then tailAt (endState p T) tb (dt - T)
  else (tailRest (endState p T) tb, 0, 0)

/-! ## Perturbation (R155 to R157) -/

/-- `pword` of R156. -/
def pword (seed : W64) (slot lantern index w : Nat) : W64 :=
  let x := seed ^^^ (BitVec.ofNat 64 slot <<< 56) ^^^ (BitVec.ofNat 64 lantern <<< 48)
    ^^^ (BitVec.ofNat 64 index <<< 8) ^^^ BitVec.ofNat 64 w
  let x := x + 0x9E37_79B9_7F4A_7C15#64
  let x := (x ^^^ (x >>> 30)) * 0xBF58_476D_1CE4_E5B9#64
  let x := (x ^^^ (x >>> 27)) * 0x94D0_49BB_1331_11EB#64
  x ^^^ (x >>> 31)

/-- n of R157, from the four 16-bit halves. -/
def pnoise (w : W64) : Rat :=
  let h := fun k => ((w.toNat / 2 ^ (16 * k)) % 65536 : Nat)
  (((h 0 + h 1 + h 2 + h 3 : Nat) : Rat) - 131070) / 65536

/-- A candidate ID (R155). -/
def candId (slot lantern index : Nat) : W32 := BitVec.ofNat 32 (slot * 2 ^ 24 + lantern * 2 ^ 18 + index)

def idSlot (id : W32) : Nat := id.toNat / 2 ^ 24
def idLantern (id : W32) : Nat := id.toNat / 2 ^ 18 % 64
def idIndex (id : W32) : Nat := id.toNat % 2 ^ 18

/-! ## Waypoints and sweep (R159) -/

/-- V̄ of a body waypoint k: the largest speed among the velocity points whose support meets the interval. -/
def bodySpeed (p : List Rat) (T : Rat) (k : Nat) : Rat :=
  let lo : Rat := (k : Rat) / 32
  let hi : Rat := ((k : Rat) + 1) / 32
  let v := velPts p
  maxRat ((List.range 11).map fun i =>
    if knot (i + 1) ≤ hi ∧ lo ≤ knot (i + 6) then absRat (nth v i 0) / T else 0)

/-- ρ at waypoint `w` (0 to 31 body, 32 to 47 tail), in mm, from reach bounds per joint. -/
def sweep (ps : List (List Rat)) (T tb : Rat) (reach : List Rat) (w : Nat) : Rat :=
  sumRat ((List.range ps.length).map fun j =>
    let p := nth ps j []
    if w < 32 then nth reach j 0 * bodySpeed p T w * (T / 32) / 2
    else nth reach j 0 * maxRat ((tailVel (endState p T) tb).map absRat) * (tb / 16) / 2)

end Sys2Proof.Machine
end

