-- ==== Sys2Proof/Machine/Geometry.lean ====
section
/-! DEFINITION. Points, boxes and rays (R105, R112), the pinhole camera, and where a robot's spheres and capsules stand at
an instant (R111, R136). -/

namespace Sys2Proof.Machine

open Sys2Proof

/-! ## Geometry -/

def Vec3.add (a b : Vec3) : Vec3 := ⟨a.x + b.x, a.y + b.y, a.z + b.z⟩
def Vec3.sub (a b : Vec3) : Vec3 := ⟨a.x - b.x, a.y - b.y, a.z - b.z⟩
def Vec3.scale (k : Rat) (a : Vec3) : Vec3 := ⟨k * a.x, k * a.y, k * a.z⟩
def Vec3.dot (a b : Vec3) : Rat := a.x * b.x + a.y * b.y + a.z * b.z
def Vec3.normSq (a : Vec3) : Rat := Vec3.dot a a

def inBox (b : Box) (p : Vec3) : Bool :=
  b.lo.x ≤ p.x && p.x ≤ b.hi.x && b.lo.y ≤ p.y && p.y ≤ b.hi.y && b.lo.z ≤ p.z && p.z ≤ b.hi.z

/-- floor(sqrt q) and ceil(sqrt q) of a non-negative rational. -/
def sqrtFloor (q : Rat) : Nat := Nat.sqrt q.floor.toNat

def sqrtCeil (q : Rat) : Nat :=
  let n := sqrtFloor q
  if (n * n : Rat) = q then n else n + 1

/-- Minimum corner and size in coarse voxels; the empty volume when none is declared. -/
def volumeOf (r : Recipe) : Vec3 × Nat × Nat × Nat := r.volume.getD (⟨0, 0, 0⟩, 0, 0, 0)

def volumeBox (r : Recipe) : Box :=
  let v := volumeOf r
  ⟨v.1, Vec3.add v.1 ⟨16 * v.2.1, 16 * v.2.2.1, 16 * v.2.2.2⟩⟩

def inVolume (r : Recipe) (p : Vec3) : Bool := inBox (volumeBox r) p

/-- Centre of fine voxel (gx, gy, gz), counted in 4 mm from the volume's corner. -/
def fineCentre (r : Recipe) (gx gy gz : Int) : Vec3 :=
  Vec3.add (volumeOf r).1 ⟨4 * gx + 2, 4 * gy + 2, 4 * gz + 2⟩

/-! ## Rays -/

/-- The parameters at which `o + t·d` lies between two planes; `none` where the line is parallel to them. -/
def slab (lo hi o d : Rat) : Option (Rat × Rat) :=
  if d = 0 then none
  else
    let a := (lo - o) / d
    let b := (hi - o) / d
    some (min a b, max a b)

/-- Whether the segment of `o + t·d` with t from `a` to `b` meets a box. -/
def meetsBox (x : Box) (o d : Vec3) (a b : Rat) : Bool :=
  let axes := [(x.lo.x, x.hi.x, o.x, d.x), (x.lo.y, x.hi.y, o.y, d.y), (x.lo.z, x.hi.z, o.z, d.z)]
  let flat := axes.all fun e => e.2.2.2 != 0 || (e.1 ≤ e.2.2.1 && e.2.2.1 ≤ e.2.1)
  let ts := axes.filterMap fun e => slab e.1 e.2.1 e.2.2.1 e.2.2.2
  flat && decide (ts.foldl (fun m e => max m e.1) a ≤ ts.foldl (fun m e => min m e.2) b)

/-- A box of half edge `h` about a point. -/
def cube (p : Vec3) (h : Rat) : Box := ⟨Vec3.sub p ⟨h, h, h⟩, Vec3.add p ⟨h, h, h⟩⟩

/-- Integers from the floor of `lo / step` to the floor of `hi / step`. -/
def gridRange (step lo hi : Rat) : List Int :=
  let a := (lo / step).floor
  (List.range ((hi / step).floor - a + 1).toNat).map fun i => a + (i : Int)

/-! ## The pinhole camera (R112) -/

/-- Direction of a pixel's ray in the cell frame, per unit of depth along the optical axis: R maps camera axes to the cell
frame, pixel centres have whole coordinates and images are stored row by row (DEDUCED, log 17). -/
def camRay (c : CamCfg) (i : Nat) : Vec3 :=
  let x : Rat := (((i % c.width : Nat) : Rat) - c.cx) / c.fx
  let y : Rat := (((i / c.width : Nat) : Rat) - c.cy) / c.fy
  let row := fun k => nth c.rot k 0 * x + nth c.rot (k + 1) 0 * y + nth c.rot (k + 2) 0
  ⟨row 0, row 3, row 6⟩

/-- The back-projected point of a pixel. -/
def backProject (c : CamCfg) (x : Pixel) : Vec3 := Vec3.add c.trans (Vec3.scale x.depth (camRay c x.index))

/-- Depth of a point along the optical axis. -/
def axisDepth (c : CamCfg) (p : Vec3) : Rat :=
  Vec3.dot ⟨nth c.rot 2 0, nth c.rot 5 0, nth c.rot 8 0⟩ (Vec3.sub p c.trans)

/-- The pixel onto which a point in front of the camera projects. -/
def projectTo (c : CamCfg) (p : Vec3) : Option Nat :=
  let q := Vec3.sub p c.trans
  let z := axisDepth c p
  let u := rhe (c.fx * (Vec3.dot ⟨nth c.rot 0 0, nth c.rot 3 0, nth c.rot 6 0⟩ q) / z + c.cx)
  let v := rhe (c.fy * (Vec3.dot ⟨nth c.rot 1 0, nth c.rot 4 0, nth c.rot 7 0⟩ q) / z + c.cy)
  if 0 < z ∧ 0 ≤ u ∧ u < c.width ∧ 0 ≤ v ∧ v < c.height then some (u.toNat + c.width * v.toNat) else none

/-! ## Robots at an instant -/

def NodeState.frame (n : NodeState) : Option JointFrame := n.hist.head?

/-- The newest frame of a node at or before an instant (ns). -/
def frameAt (n : NodeState) (ns : Nat) : Option JointFrame := n.hist.find? fun f => f.timeNs ≤ ns

/-- Nodes of the table with their states. -/
def nodesIn (s : State) (r : Recipe) (p : NodeCfg → Bool) : List (NodeCfg × NodeState) :=
  (List.finRange 32).filterMap fun i => (r.nodes[i.val]?).bind fun c =>
    if p c then some (c, s.motion.nodes.get i) else none

/-- Joint `j` of a robot by the newest joint-state frame at or before an instant: its position and velocity, in rad or mm
and seconds, and the frame's time. -/
def jointAt (s : State) (r : Recipe) (robot j ns : Nat) : Option (Rat × Rat × Nat) :=
  (nodesIn s r fun c => c.kind == .drive && c.robot == robot && c.firstAxis ≤ j && j < c.firstAxis + c.axes).findSome?
    fun n => (frameAt n.2 ns).map fun f =>
      let a := nth f.axes (j - n.1.firstAxis) (0, 0, 0)
      (unit16 a.1, unit16 a.2.1, f.timeNs)

/-- Joint positions current at an instant; a joint of which no frame has come has a free position (R405, log 28). -/
def jointsAt (s : State) (r : Recipe) (robot : Nat) (m : RobotModel) (ns : Nat) : List Rat :=
  (List.range m.joints.length).map fun j =>
    ((jointAt s r robot j ns).map (·.1)).getD (Config.absentAxis r.bodyDigest robot j)

/-- Centres and radii of a robot's link spheres and of the part it carries, at joint values `q` (R111, R262); `parts` are the
carried parts by robot. -/
def robotSpheres (parts : SMap CarriedPart) (r : Recipe) (robot : Nat) (m : RobotModel) (q : List Rat) : List (Vec3 × Rat) :=
  let links := fun (g : Nat) => (List.range (nth m.groups g default).spheres.length).map fun k =>
    (Config.sphereCentre r.bodyDigest robot g k q, (nth (nth m.groups g default).spheres k default).radius)
  match parts.find robot with
  | none => (List.range m.groups.length).flatMap links
  | some part =>
    (((List.range m.groups.length).filter fun g => !(nth m.groups g default).carried).flatMap links)
      ++ (List.range part.groups.length).flatMap fun g =>
        (List.range (nth part.groups g default).spheres.length).map fun k =>
          (Config.partCentre r.bodyDigest robot part g k q, (nth (nth part.groups g default).spheres k default).radius)

/-- The sphere is inflated and holds the point. -/
def inSphere (grow : Rat) (p : Vec3) (x : Vec3 × Rat) : Bool :=
  decide (Vec3.normSq (Vec3.sub p x.1) ≤ (x.2 + grow) * (x.2 + grow))

/-- Squared distance of a point to a segment. -/
def segDistSq (p a b : Vec3) : Rat :=
  let d := Vec3.sub b a
  let n := Vec3.normSq d
  let t := if n = 0 then 0 else clampRat 0 1 (Vec3.dot (Vec3.sub p a) d / n)
  Vec3.normSq (Vec3.sub p (Vec3.add a (Vec3.scale t d)))

/-- A model's capsules as they are numbered: by link group, and within a group in the recipe's order (R295). -/
def ownCapsules (m : RobotModel) : List Capsule := m.capsules.insertionSort fun a b => a.group ≤ b.group

end Sys2Proof.Machine
end

