-- ==== Sys2Proof/Machine/Operands.lean ====
section
/-! DEFINITION. Operand forms: the byte layouts that the device reads (descriptors, goal and seed records) and writes
(completion records, job reports, trace and ember records, query lists, attestation reports). -/

namespace Sys2Proof.Machine

open Sys2Proof

/-! ## Plan images (R84 to R89) -/

/-- Every byte of the given stretches (offset, length) is 0. -/
def zeroAt (bs : List Byte) (stretches : List (Nat × Nat)) : Bool :=
  stretches.all fun x => field bs x.1 x.2 == 0

/-- `n` entries of `size` bytes from `off` on. -/
def entriesAt (bs : List Byte) (off size n : Nat) : List (List Byte) :=
  (List.range n).map fun i => slice bs (off + size * i) size

/-- A slot table entry, 32 B (R86). -/
def decodeSlot (e : List Byte) : SlotEntry :=
  { stageMap := field e 0 1, context := field e 1 1, safetyRelevant := bit (field e 2 1) 0, output := bit (field e 2 1) 1
    reservedZero := field e 2 1 < 4 && zeroAt e [(3, 1), (20, 12)], slotWork := field e 4 4, ctrlOff := field e 8 4
    ctrlLen := field e 12 4, confirmCycle := field e 16 4 }

/-- A stage map, 64 B: a 16-bit stage set for each logical lantern 0 to 31 (R87). -/
def decodeMap (e : List Byte) : List W16 := (List.range 32).map fun n => BitVec.ofNat 16 (field e (2 * n) 2)

/-- A region entry, 16 B (R88). -/
def decodeRegion (e : List Byte) : Region :=
  { base := field e 0 8, size4k := field e 8 4, isDram := field e 12 1 == 1, loaded := bit (field e 13 1) 0
    kindOk := field e 12 1 < 2, reservedZero := field e 13 1 < 2 && zeroAt e [(14, 2)] }

/-- A free window entry, 16 B (R89). -/
def decodeWindow (e : List Byte) : FreeWin :=
  { slot := field e 0 2, startUs := field e 2 2, slices := field e 4 2, mask := BitVec.ofNat 32 (field e 8 4)
    reservedZero := zeroAt e [(6, 2), (12, 4)] }

/-- The header's table offsets: slot table, stage maps, regions, free windows, stage versions, contexts, body (R84). -/
def tableOff (bs : List Byte) (i : Nat) : Nat := field bs (0x30 + 4 * i) 4

/-- A plan image: its header, its tables at the offsets the header gives, and its body. -/
def decodeImage (bs : List Byte) (body : PlanBody) : PlanImage :=
  let f := field bs
  let cis := f 0x1E 1
  { magic := BitVec.ofNat 32 (f 0x00 4), format := BitVec.ofNat 16 (f 0x04 2), hdrSize := BitVec.ofNat 16 (f 0x06 2)
    imageSize := f 0x08 4, planId := BitVec.ofNat 32 (f 0x0C 4), slotLen := f 0x10 2, slotCount := f 0x12 2
    reqActive := f 0x14 1, memDies := BitVec.ofNat 8 (f 0x15 1), partition := BitVec.ofNat 8 (f 0x16 1)
    flags := BitVec.ofNat 8 (f 0x17 1), lanternSet := BitVec.ofNat 32 (f 0x18 4)
    stageMaps := (entriesAt bs (tableOff bs 1) 64 (f 0x1C 1)).map decodeMap
    freeWins := (entriesAt bs (tableOff bs 3) 16 (f 0x1D 1)).map decodeWindow
    regions := (entriesAt bs (tableOff bs 2) 16 (cis + f 0x1F 1)).map decodeRegion
    cisRegions := cis, workCycles := f 0x20 8, planSeed := BitVec.ofNat 64 (f 0x28 8)
    offsets := (List.range 7).map (tableOff bs), robot := BitVec.ofNat 8 (f 0x4C 1)
    ownerKeyId := BitVec.ofNat 64 (f 0x50 8), bodyDigest := BitVec.ofNat 256 (f 0x80 32)
    reservedZero := zeroAt bs [(0x4D, 3), (0x58, 40), (0xA0, 32)]
    slots := (entriesAt bs (tableOff bs 0) 32 (f 0x12 2)).map decodeSlot
    body }

/-! ## Signed blobs (R419) -/

/-- The 256 B header of a weight set or a recipe. -/
def decodeBlob (bs : List Byte) : BlobHdr :=
  let f := field bs
  { magic := BitVec.ofNat 32 (f 0x00 4), format := BitVec.ofNat 16 (f 0x04 2), hdrSize := BitVec.ofNat 16 (f 0x06 2)
    blobSize := f 0x08 4, weightId := BitVec.ofNat 32 (f 0x0C 4), placeKind := BitVec.ofNat 8 (f 0x10 1)
    placeBase := f 0x18 8, layoutDigest := BitVec.ofNat 64 (f 0x20 8), ownerKeyId := BitVec.ofNat 64 (f 0x50 8)
    bodyDigest := BitVec.ofNat 256 (f 0x80 32), reservedZero := zeroAt bs [(0x11, 7), (0x28, 40), (0x58, 40), (0xA0, 32)] }

/-! ## Descriptors (R315 to R317) -/

def aligned64 (a : Nat) : Bool := a % 64 == 0

/-- 256 MiB, the limit of R425 on encrypted buffers. -/
def encLimit : Nat := 2 ^ 28

/-- Sizes of the `QUERY` lists (R318). -/
def querySize : Nat → Nat
  | 1 => 512
  | _ => 1024

/-- The fields of each opcode (R316) under the checks of R317; `none` where a check fails. -/
def decodeBody (bs : List Byte) (encrypted : Bool) : Option DescBody :=
  let f := field bs
  let src := f 0x08 8
  let len := f 0x10 4
  let encOk := !encrypted || len ≤ encLimit
  match f 0 1 with
  | 0x01 =>
    if zeroAt bs [(0x18, 0x20)] && aligned64 src && encOk then
      some (.planLoad src len (BitVec.ofNat 32 (f 0x14 4))) else none
  | 0x02 =>
    let goal := f 0x10 2
    let seeds := f 0x12 2
    let tok := f 0x15 1
    let res := f 0x28 8
    let rlen := f 0x30 4
    if zeroAt bs [(0x16, 2), (0x1C, 4), (0x34, 4)] && goal < 1024 && seeds < 64 && tok < 16 && aligned64 res
        && 512 ≤ rlen && (!encrypted || rlen ≤ encLimit) then
      some (.planRun (BitVec.ofNat 32 (f 0x08 4)) (BitVec.ofNat 32 (f 0x0C 4)) goal seeds (f 0x14 1)
        (BitVec.ofNat 4 tok) (BitVec.ofNat 32 (f 0x18 4)) (BitVec.ofNat 64 (f 0x20 8)) res rlen) else none
  | 0x03 =>
    let goal := f 0x14 2
    if zeroAt bs [(0x16, 0x22)] && aligned64 src && len == 64 && goal < 1024 then some (.goalSet src len goal)
    else none
  | 0x04 =>
    let cls := f 0x14 2
    let mode := f 0x16 1
    if zeroAt bs [(0x17, 0x21)] && aligned64 src && len != 0 && len % 1600 == 0 && cls < 256 && mode < 2 && encOk then
      some (.seedsLoad src len cls mode) else none
  | 0x05 =>
    if zeroAt bs [(0x18, 0x20)] && aligned64 src && encOk then
      some (.weightsLoad src len (BitVec.ofNat 32 (f 0x14 4))) else none
  | 0x06 => if zeroAt bs [(0x14, 0x24)] && aligned64 src && encOk then some (.recipeLoad src len) else none
  | 0x07 =>
    let dst := f 0x10 8
    if zeroAt bs [(0x09, 3), (0x1C, 0x1C)] && aligned64 dst then
      some (.contextSave (f 0x08 1) (BitVec.ofNat 32 (f 0x0C 4)) dst (f 0x18 4)) else none
  | 0x08 =>
    let res := f 0x28 8
    let rlen := f 0x30 4
    if zeroAt bs [(0x14, 0x14), (0x34, 4)] && aligned64 src && aligned64 res && 512 ≤ rlen && encOk
        && (!encrypted || rlen ≤ encLimit) then some (.contextRestore src len res rlen) else none
  | 0x09 =>
    if zeroAt bs [(0x09, 3), (0x10, 0x28)] then some (.cancel (f 0x08 1) (BitVec.ofNat 32 (f 0x0C 4))) else none
  | 0x0A => if zeroAt bs [(0x10, 0x28)] then some (.fence (BitVec.ofNat 64 (f 0x08 8))) else none
  | 0x0B =>
    let kind := f 0x14 1
    if zeroAt bs [(0x15, 0x23)] && aligned64 src && kind < 3 && querySize kind ≤ len && encOk then some (.query src len kind)
    else none
  | _ => none

/-- A descriptor; its body is `bad` where R317 refuses it. -/
def decodeDesc (bs : List Byte) : Desc :=
  let fl := field bs 1 1
  let enc := bit fl 3
  let body :=
    if fl < 16 && zeroAt bs [(0x02, 2)] then (decodeBody bs enc).getD .bad else .bad
  { irq := bit fl 0, specOk := bit fl 1, seedGiven := bit fl 2, encrypted := enc
    tag := BitVec.ofNat 32 (field bs 4 4), body }

/-- The result buffer of a job: address and length. -/
def resultBuf (d : Desc) : Option (Nat × Nat) :=
  match d.body with
  | .planRun _ _ _ _ _ _ _ _ res len => some (res, len)
  | .contextRestore _ _ res len => some (res, len)
  | _ => none

/-! ## Goal records and seeds (R318) -/

/-- The record of a `GOAL_SET`; `none` where it is refused with reason 0x0C. -/
def decodeGoal (bs : List Byte) : Option Goal :=
  let kind := field bs 0 1
  let robot := field bs 1 1
  let cls := field bs 2 2
  let i32 := fun off => sgn 32 (field bs off 4)
  if robot < 4 && cls < 256 then
    if kind == 0 && zeroAt bs [(52, 12)] then
      some ⟨false, robot, cls, (List.range 12).map fun i => i32 (4 + 4 * i)⟩
    else if kind == 1 && zeroAt bs [(32, 32)] then
      some ⟨true, robot, cls, ((List.range 3).map fun i => i32 (4 + 4 * i)) ++
        (List.range 4).map fun i => i32 (16 + 4 * i)⟩
    else none
  else none

/-- One seed of 1,600 B; `none` where its reserved bytes are not 0. -/
def decodeSeed (bs : List Byte) : Option LibSeed :=
  let row := fun off => (List.range 12).map fun j => sgn 32 (field bs (off + 4 * j) 4)
  if zeroAt bs [(1584, 16)] then
    some ⟨(List.range 32).map fun w => row (48 * w), row 1536⟩
  else none

def decodeSeeds : Nat → List Byte → Option (List LibSeed)
  | 0, _ => some []
  | n + 1, bs => do
    let x ← decodeSeed (slice bs 0 1600)
    let t ← decodeSeeds n (bs.drop 1600)
    pure (x :: t)

/-! ## Completion records (R319, R323) -/

/-- Bytes 0x00 to 0x17 of the record of a completed descriptor. -/
def recordHead (s : State) (d : DescEntry) (res : Result) : List Byte :=
  let g := ringGet s d.ref.ring
  let phase := b2n (d.ref.index.toNat / 2 ^ g.size % 2 == 0)
  let flags := b2n d.replayed + 2 * b2n res.restored + 4 * b2n res.report.isSome + 8 * b2n s.safety.degraded
    + 128 * phase
  leBytes 4 d.ref.index.toNat ++ leBytes 1 res.status.code ++ [res.detail] ++ leBytes 1 flags ++ [0]
    ++ leBytes 4 d.desc.tag.toNat ++ leBytes 4 res.epoch.toNat ++ leBytes 4 g.owner.toNat ++ leBytes 4 res.length

/-- The secret of the session that a ring bound at its enable (R423). -/
def ringSecret (s : State) (r : RingId) : Option Digest :=
  match (ringGet s r).session with
  | none => none
  | some id =>
    if id == s.sec.sessId && s.sec.session == .owned then some s.sec.secret
    else match s.sec.earlier with
      | some e => if e.1 == id then some e.2 else none
      | none => none

def digestBytes (d : Digest) : List Byte := leBytes 32 d.toNat

/-- The KDF of R408: blocks i = 1, 2, … of SM3-HMAC(secret, label ‖ 0x00 ‖ context ‖ i), cut to n bytes. -/
def kdf (secret : Digest) (label : String) (context : List Byte) (n : Nat) : List Byte :=
  slice ((List.range ((n + 31) / 32)).flatMap fun i =>
    digestBytes (Config.hmac (digestBytes secret)
      (label.toList.map (fun c => BitVec.ofNat 8 c.toNat) ++ [0] ++ context ++ leBytes 4 (i + 1)))) 0 n

/-- The ring key, the buffer key and the gate key of R409. -/
def ringKey (s : State) (r : RingId) : List Byte := kdf ((ringSecret s r).getD 0) "ZG-RING" (leBytes 1 r.val) 32

def bufferKey (s : State) (r : RingId) : List Byte := kdf ((ringSecret s r).getD 0) "ZG-BUF" (leBytes 1 r.val) 16

def gateKey (s : State) : List Byte := kdf s.sec.secret "ZG-GATE" [] 32

/-- The SM2 identity key of R409. DESIGN CHOICE (log 159): 32 B are derived and reduced. -/
def identityKey : BitVec 256 := Config.sm2Scalar (kdf Config.rootSecret "ZG-ID" [] 32)

/-- The drive key of a node under the KEY_ID in force (R409, R427): its master key is held wrapped to the identity key (R420). -/
def driveKey (s : State) (c : NodeCfg) : List Byte :=
  kdf (BitVec.ofNat 256 (leNat (Config.sm2Decrypt identityKey c.wrapped))) "ZG-DRV" (leBytes 8 s.motion.keyId.toNat) 32

/-- The first 8 bytes of an SM3-HMAC, as SEAL and TAG carry it. -/
def mac8 (key bytes : List Byte) : List Byte := slice (digestBytes (Config.hmac key bytes)) 0 8

/-- SEAL of a record (R323). -/
def recordSeal (s : State) (d : DescEntry) (head result : List Byte) : List Byte :=
  if (ringGet s d.ref.ring).sealed then mac8 (ringKey s d.ref.ring) (head ++ leBytes 1 d.ref.ring.val ++ result)
  else List.replicate 8 0

/-- SEAL of a descriptor under the GENERATION at which it is accepted (R323). -/
def descSeal (s : State) (r : RingId) (index : W32) (bytes : List Byte) : List Byte :=
  mac8 (ringKey s r) (slice bytes 0 0x38 ++ leBytes 1 r.val ++ leBytes 4 index.toNat ++ leBytes 4 (ringGet s r).owner.toNat)

/-- An SRC buffer as the device reads it: decrypted where the descriptor says so (R425). -/
def srcBytes (s : State) (d : DescEntry) (raw : List Byte) : List Byte :=
  if d.desc.encrypted then
    slice (Config.sm4Ctr (bufferKey s d.ref.ring)
      (leBytes 1 d.ref.ring.val ++ leBytes 4 d.ref.index.toNat ++ leBytes 4 (ringGet s d.ref.ring).owner.toNat
        ++ leBytes 4 0) raw) 0 raw.length
  else raw

/-- The result buffer as written: encrypted where R425 says so. -/
def resultBytes (s : State) (d : DescEntry) (res : Result) : List Byte :=
  let plain := res.report.getD []
  if d.desc.encrypted && res.epoch != 0 then
    let prefix_ := leBytes 1 (d.ref.ring.val + 64) ++ leBytes 4 d.ref.index.toNat
      ++ leBytes 4 (ringGet s d.ref.ring).owner.toNat ++ leBytes 4 res.epoch.toNat
    slice (Config.sm4Ctr (bufferKey s d.ref.ring) prefix_ plain) 0 plain.length
  else plain

/-! ## Job reports (R170, R195, R208, R229, R245, R266, R321) -/

def RouteStatus.code : RouteStatus → Nat
  | .found => 0 | .noRoute => 1 | .notSearched => 2 | .noGoal => 3 | .outsideGrid => 4

/-- The 16 B best-infeasible report (R245). -/
def bestBytes (j : Job) : List Byte :=
  match j.best with
  | some b =>
    leBytes 4 b.id.toNat ++ leBytes 2 (uns 16 b.clearance) ++ leBytes 1 b.sphere ++ leBytes 1 b.waypoint
      ++ leBytes 1 b.marks.toNat ++ [0, 0, 0] ++ leBytes 4 b.epoch.toNat
  | none =>
    leBytes 4 0xFFFF_FFFF ++ leBytes 2 0x8000 ++ [0, 0] ++ leBytes 1 j.marksSeen.toNat ++ [0, 0, 0]
      ++ leBytes 4 j.epoch.toNat

def cnt (n : Nat) : List Byte := leBytes 4 (min n 0xFFFF_FFFF)

def countBytes (c : Counts) (infers : Bool) : List Byte :=
  let inf := fun n => cnt (if infers then n else 0)
  cnt c.generated ++ cnt c.valid ++ (c.marks.toList.flatMap cnt) ++ cnt c.dropped
    ++ cnt c.gn ++ cnt c.ik ++ cnt c.ts ++ cnt c.pivot ++ cnt c.capped ++ cnt c.discarded ++ cnt c.noMeasure
    ++ cnt c.replaced ++ cnt c.withheld
    ++ cnt c.dups ++ cnt c.mismatch ++ cnt c.badId
    ++ inf c.envelope ++ inf c.inboxOver ++ inf c.inboxSup ++ inf c.posted ++ inf c.withheld

/-- The row that the report carries: that of the published trajectory, or the row of R280. -/
def reportRow (j : Job) : Option BRow :=
  if j.restored then j.confirmedRow else if j.published.isSome then j.confirmedRow else none

/-- The 512 B job report of a job that ends with status `st` under world epoch `epoch`. -/
def reportBytes (j : Job) (st : Status) (epoch : W32) : List Byte :=
  let pub := if j.restored then none else j.published
  let row := reportRow j
  let exps := (List.range 12).map fun i => if row.isSome then (nth j.img.jointExp i 0).signExtend 8 else 0
  leBytes 2 1 ++ leBytes 2 0x200 ++ leBytes 4 j.ref.index.toNat ++ leBytes 4 j.img.planId.toNat
    ++ leBytes 4 epoch.toNat ++ leBytes 4 j.range.toNat
    ++ leBytes 1 j.route.status.code ++ leBytes 1 j.route.cost ++ leBytes 1 j.route.moves ++ [0]
    ++ leBytes 8 ((pub.map (·.startNs)).getD 0)
    ++ leBytes 4 ((pub.map (·.id.toNat)).getD 0xFFFF_FFFF) ++ leBytes 4 ((pub.map fun t => (rhe t.tail).toNat).getD 0)
    ++ (if st == .infeasibleBest || st == .noRoute then bestBytes j else List.replicate 16 0)
    ++ List.replicate 8 0
    ++ countBytes j.counts j.img.infers
    ++ exps ++ List.replicate 72 0
    ++ slice ((row.map (·.pay)).getD []) 0 256

/-! ## Lists of `QUERY` (R318) -/

def queryBytes (s : State) : Nat → List Byte
  | 0 =>
    slice ((s.sluice.images.take 64).flatMap fun e =>
      leBytes 4 e.2.planId.toNat ++ leBytes 1 e.2.reqActive ++ [0] ++ leBytes 2 e.2.slotCount
        ++ leBytes 6 e.2.bodyDigest.toNat ++ [0, 0]) 0 1024
  | 1 =>
    slice ((s.sluice.weights.take 32).flatMap fun e =>
      leBytes 4 e.1 ++ leBytes 4 ((e.2.hdr.blobSize + 4095) / 4096) ++ leBytes 8 e.2.hdr.layoutDigest.toNat) 0 512
  | _ =>
    (List.range 256).flatMap fun c =>
      leBytes 2 c ++ leBytes 2 ((s.sluice.libs.find c).getD []).length

/-! ## Trace and ember records (R349, R446) -/

def traceBytes (t : TraceRec) : List Byte :=
  leBytes 4 t.seq.toNat ++ leBytes 1 t.kind ++ [t.flags] ++ leBytes 1 t.ring ++ [t.arg] ++ leBytes 4 t.index.toNat
    ++ leBytes 1 t.slot ++ [t.detail] ++ [0, 0] ++ leBytes 4 t.cycle ++ leBytes 4 t.planId.toNat
    ++ leBytes 6 t.time.toNat ++ [0, 0]

def emberBytes (r : EmberRec) : List Byte :=
  let fl := b2n r.sat + 2 * b2n r.folded + 4 * b2n r.damaged + 8 * b2n r.spec + 16 * r.cls.severity
  leBytes 4 r.seq.toNat ++ leBytes 6 r.time.toNat ++ leBytes 1 r.cls.number ++ leBytes 1 fl
    ++ leBytes 2 r.repeat_ ++ leBytes 1 (r.words.length + 16 * r.defined) ++ [0]
    ++ slice (r.words.flatMap fun w => leBytes 4 w.toNat) 0 48

/-! ## Attestation (R410, R417) -/

/-- A slot counts as enrolled only with its commit bit (R410). -/
def ownerKey (s : State) : Option (BitVec 512) :=
  if s.fuses.owner0.commit then some s.fuses.owner0.key
  else if s.fuses.owner1.commit then some s.fuses.owner1.key
  else none

def enrolDamaged (s : State) : Bool :=
  (ownerKey s).isNone && s.fuses.owner0.anyBit && s.fuses.owner1.anyBit

def keyBytes (k : BitVec 512) : List Byte := leBytes 64 k.toNat

/-- First 8 bytes of the digest of the enrolled owner key; 0 when none is enrolled. -/
def ownerKeyId (s : State) : W64 :=
  match ownerKey s with
  | some k => BitVec.ofNat 64 (Config.sm3 (keyBytes k)).toNat
  | none => 0

def gradeCode : Grade → Nat
  | .zg3200 => 0 | .zg2800 => 1 | .zg2400 => 2

/-- Byte p of the spare map (R417): the logical number, or 0xFD, 0xFE, 0xFF; `retired` are the retired lanterns. -/
def spareByte (s : State) (retired : List Phys) (p : Phys) : Byte :=
  match logicalOf s p with
  | some n => BitVec.ofNat 8 n
  | none =>
    if isDisabled s.fuses p then 0xFF
    else if retired.contains p then 0xFE
    else if isSpare s.fuses p then 0xFD
    else 0xFF

/-- The same byte in `LANTERN_MAP`: the reset value until the numbers are assigned (R509). -/
def mapByte (s : State) (p : Phys) : Byte := if s.mapSet then spareByte s s.mapRetired p else 0xFF

def optionBits (s : State) : Nat :=
  gradeCode s.fuses.grade + 4 * b2n s.fuses.suffixX + 8 * b2n (ownerKey s).isSome + 16 * b2n s.fuses.lock
    + 32 * b2n (enrolDamaged s) + 64 * b2n s.sec.debugSeen + 128 * b2n s.sec.cfgRec + 256 * b2n s.sec.hostload
    + 512 * s.fuses.patchVer.toNat

/-- Bytes 0x000 to 0xA9F of the report; the signature that follows is the security engine's. -/
def attestBytes (s : State) (nonce : Digest) (count : W32) : List Byte :=
  leBytes 4 0x5454_5441 ++ leBytes 2 1 ++ leBytes 2 0x0AE0 ++ digestBytes nonce ++ leBytes 4 count.toNat
    ++ leBytes 8 (stamp s) ++ leBytes 1 (activeCount s) ++ leBytes 1 s.sluice.images.length ++ List.replicate 10 0
    ++ digestBytes s.fuses.identity ++ leBytes 8 (ownerKeyId s).toNat ++ leBytes 8 (optionBits s)
    ++ slice (allPhys.map (spareByte s s.fuses.retired)) 0 48
    ++ (s.sec.meas.toList.flatMap digestBytes)
    ++ slice ((s.sluice.images.take 64).flatMap fun e =>
        leBytes 4 e.2.planId.toNat ++ digestBytes e.2.bodyDigest) 0 2304

end Sys2Proof.Machine

namespace Sys2Proof

/-- The image that the bytes and the body at SRC spell. -/
def PlanBlob.img (b : PlanBlob) : PlanImage := Machine.decodeImage b.bytes b.body

end Sys2Proof
end

