-- ==== Sys2Proof/Machine/Flags.lean ====
section
/-! DEFINITION. Status and flag computations: the value of every register of BAR0 and BAR2, computed from the state
(the field tables of R52, R69, R80, R142, R248, R310, R322, R352, R355, R368, R389, R406, R428, R441, R459, R477, R498,
R505 to R511). -/

namespace Sys2Proof.Machine

open Sys2Proof

/-- Sum of fields placed at their low bits. -/
def pack : List (Nat × Nat) → Nat
  | [] => 0
  | (lo, v) :: t => v * 2 ^ lo + pack t

/-! ## Safety (R301, R303, R310) -/

def stopRelHost (s : State) : Bool := (s.sluice.recipe.map (·.stopRelease)).getD .host == .host

/-- The releases of STOP_REQ_N that R286 waits for. -/
def releasePending (s : State) : Bool := s.pwr.stop && s.safety.handed && stopRelHost s

/-- Relights begun in the last 10 s (R308). -/
def relights10s (s : State) : Nat :=
  (s.safety.relightAt.filter fun t => s.pwr.ticks < t + 10 * ticksPerSec).length

def admitHold (s : State) : Bool := allPhys.any fun p => (lant s p).diagHold

def safeStatus (s : State) : Nat :=
  pack [(0, s.safety.state.code), (2, b2n s.pwr.stop), (3, b2n (releasePending s)), (4, b2n s.safety.degraded),
    (5, b2n (admitHold s)), (6, b2n s.safety.stale),
    (8, min 8 (s.safety.queue.length + s.safety.overflow)), (12, min 2 (relights10s s))]

def camGuard (s : State) : Nat :=
  pack ((List.finRange 4).map fun n =>
    let c := s.motion.cams.get n
    (8 * n.val, pack [(0, b2n (c.state == 4)), (1, b2n c.patFail), (2, b2n c.probeFail), (3, min 2 c.failRun)]))

def overdueMap (s : State) : Nat :=
  pack ((List.range 32).map fun n => (n, b2n ((physOf s n).any fun p => (lant s p).overdue)))

/-! ## Memory and lanterns (R69, R508 to R511) -/

def channels (s : State) : Nat :=
  match presentDies s with
  | 4 => 24
  | 3 => 18
  | _ => 0

/-- Set with the assignment of the logical numbers (R11, R509). -/
def sparesFree (s : State) : Nat := if s.mapSet then (allPhys.filter (spareNow s)).length else 0

def mapWord (s : State) (r : Nat) : Nat :=
  pack ((List.range 4).map fun m =>
    (8 * m, if h : 4 * r + m < 34 then (mapByte s ⟨4 * r + m, h⟩).toNat else 0))

def Retain.asleep : Retain → Bool
  | .awake | .sleeping => false
  | .retained | .waking _ => true

/-- R78: between the last work cycle of its job's slot and the slot boundary a lantern is clock-gated (log 31). -/
def restsInSlot (s : State) (p : Phys) : Bool :=
  match jobOn s p with
  | none => false
  | some j => j.kind == .work && (j.img.slotOf j.slot).slotWork ≤ max (lant s p).cycle (slotCycles s)

/-- A declared free window names the lantern, and cycles `a` to `b` of its job's current slot lie in it (R89). -/
def freeWindow (s : State) (j : Job) (p : Phys) (a b : Nat) : Bool :=
  j.kind == .work && !(j.img.slotOf j.slot).safetyRelevant && j.img.freeWins.any fun w =>
    w.slot == j.slot && w.startUs * 1000 ≤ a && b ≤ (w.startUs + 20 * w.slices) * 1000
      && (logicalOf s p).any fun n => w.mask.getLsbD n

/-- Cycle `c` of the slot lies in a free window that names the lantern. -/
def inFreeWindow (s : State) (j : Job) (p : Phys) (c : Nat) : Bool := freeWindow s j p c (c + 1)

def lanternStatus (s : State) (n : Nat) : Nat :=
  match physOf s n with
  | none => 0
  | some p =>
    let l := lant s p
    pack [(0, b2n l.collide), (1, b2n l.job.isSome), (2, b2n (l.gated || restsInSlot s p)), (3, b2n l.retain.asleep),
      (16, l.eccCorr.toNat)]

def dmaStatus (s : State) (c : Fin 16) : Nat :=
  let d := s.mem.dma.get c
  pack [(0, b2n d.collide), (1, b2n d.busy), (2, b2n d.excluded)]

/-! ## K-links (R377, R389) -/

/-- Whether a port of the device is up. -/
def anyUp (s : State) : Bool := s.klink.ports.toList.any fun k => k.state == 3

/-- The size of the group of the installed map, and this device's number in it. -/
def mapSize (s : State) : Nat := max 1 s.klink.map.members.length

def mapNum (s : State) : Nat :=
  (s.klink.map.members.findIdx? (· == s.fuses.identity)).getD 0

/-- G and this device's group number: a device with no port up forms a group of one. -/
def groupSize (s : State) : Nat := if anyUp s then mapSize s else 1

def groupNum (s : State) : Nat := if anyUp s then mapNum s else 0

def partnerNum (s : State) (p : Fin 4) : Nat :=
  let k := s.klink.ports.get p
  if k.state == 3 then ((k.partner.bind fun d => s.klink.map.members.findIdx? (· == d))).getD 0xF else 0xF

/-- The source that a receiver takes its world from (R386). -/
def worldSource (s : State) : Option Nat :=
  match s.sluice.recipe.bind (·.worldSource) with
  | some w => if w.val == mapNum s then none else some w.val
  | none => none

def isReceiver (s : State) : Bool := (worldSource s).isSome

/-- The partners on this device's ports that are up, by group number of a map (R377, R378). -/
def ownLinks (s : State) (m : GroupMap) : List (Option Nat) :=
  (List.finRange 4).map fun p =>
    let k := s.klink.ports.get p
    if k.state == 3 then k.partner.bind fun d => m.members.findIdx? (· == d) else none

/-- A map with this device's own row of the link table as its ports are now. -/
def ownView (s : State) (m : GroupMap) : GroupMap :=
  match m.members.findIdx? (· == s.fuses.identity) with
  | some g => { m with links := m.links.set g (ownLinks s m) }
  | none => m

/-- The members from which one link leads into `r`, and those of `r`. -/
def widen (m : GroupMap) (r : List Nat) : List Nat :=
  (List.range m.members.length).filter fun g => r.contains g || (nth m.links g []).any fun q => q.any r.contains

/-- The members that reach member `t` over at most n links. -/
def reach (m : GroupMap) (t : Nat) : Nat → List Nat
  | 0 => [t]
  | n + 1 => widen m (reach m t n)

/-- Length in links of the shortest path between two members. -/
def hops (m : GroupMap) (a t : Nat) : Option Nat := (List.range 8).find? fun n => (reach m t n).contains a

/-- A path of up ports joins this device to member `t` of a map, by its own ports and the map's other rows. -/
def pathTo (s : State) (m : GroupMap) (t : Nat) : Bool :=
  (m.members.findIdx? (· == s.fuses.identity)).any fun a => (hops (ownView s m) a t).isSome

/-- SOURCE_OK: the world source is a member to which a path exists; one reported unreachable has none until a port comes up (R379,
R389). -/
def sourceOk (s : State) : Bool :=
  match worldSource s with
  | some w => w < s.klink.map.members.length && pathTo s s.klink.map w
      && !(s.klink.lostAt.any fun e => s.klink.map.members[w]? == some e.1)
  | none => false

/-! ## Spout channels and locks (R355, R368) -/

def SChan.txStatus (c : SChan) : Nat :=
  pack [(0, b2n c.full), (1, b2n c.dropped), (2, b2n c.blocked), (8, c.epoch.toNat)]

def SChan.rxStatus (c : SChan) : Nat :=
  pack [(0, b2n c.full), (8, c.epoch.toNat), (16, c.msgEpoch.toNat)]

def SChan.ack (c : SChan) : Nat := pack [(0, c.ackCode.toNat), (16, c.ackSeq.toNat)]

/-- A word of the sender view: the buffer is write only. -/
def senderWord (c : SChan) (off : Nat) : Nat :=
  if off = 0x44 then c.txStatus else if off = 0x48 then c.ack else 0

/-- A word of the receiver view: while FULL is 0, buffer reads return 0. -/
def receiverWord (c : SChan) (off : Nat) : Nat :=
  if off < 0x40 then (if c.full then field c.buf.toList off 4 else 0)
  else if off = 0x44 then c.rxStatus
  else if off = 0x48 then c.ack
  else 0

/-- A lock word as it reads, without acquiring it (R369). -/
def lockWord (s : State) (n : Fin 64) : Nat :=
  match s.spout.locks.get n with
  | none => 0
  | some o => 0x8000_0000 + o.val

/-! ## BAR0, one 4 B word (R503 to R513) -/

def ringWord (s : State) (r : RingId) (off : Nat) : Nat :=
  let g := ringGet s r
  match off with
  | 0x00 => g.base.toNat % 2 ^ 32
  | 0x04 => g.base.toNat / 2 ^ 32
  | 0x08 => g.cq.toNat % 2 ^ 32
  | 0x0C => g.cq.toNat / 2 ^ 32
  | 0x10 => g.size
  | 0x14 =>
    pack [(0, b2n g.enable), (1, b2n g.sealed), (2, b2n g.startSrc), (3, g.irqMode.toNat), (8, g.vector.toNat),
      (16, g.state.code)]
  | 0x18 => g.owner.toNat
  | 0x1C => g.startAcc.toNat
  | 0x20 => g.startCmp.toNat
  | _ => 0

/-- A word of `SLUICE_TRACE_WIN` (R351): `off` is the offset in the window. -/
def traceWord (s : State) (off : Nat) : Nat :=
  match s.sluice.trace.find ((s.sluice.cursor.toNat + off / 32) % 16384) with
  | some t => field (traceBytes t) (off % 32) 4
  | none => 0

/-- A word of `EMBER_WIN` (R454). -/
def emberWord (s : State) (off : Nat) : Nat :=
  let e := s.ember
  let pos := fun (n : Nat) => (e.index.toNat + off / 64) % n
  let r : Option EmberRec :=
    if e.winReady then
      match e.area.toNat with
      | 0 => e.tail.find (pos 1024)
      | 1 => e.head.find (pos 256)
      | 2 => nth e.window (off / 64) none
      | _ => none
    else none
  match r with
  | some r => if serialLt r.seq e.clear then 0 else field (emberBytes r) (off % 64) 4
  | none => 0

def globalWord (s : State) (off : Nat) : Nat :=
  match off with
  | 0x0000 => pack [(0, gradeCode s.fuses.grade), (2, b2n s.fuses.suffixX), (8, s.fuses.stepping.toNat), (16, 0x5A47)]
  | 0x0008 => pack [(0, b2n s.host.collide), (1, b2n s.host.ur)]
  | 0x0010 => s.mem.memWin.toNat
  | 0x0100 => pack [(0, s.pwr.step), (4, b2n s.pwr.ready), (5, s.pwr.pstate.code), (8, s.pwr.fail.toNat)]
  | 0x0104 => pack [(0, b2n s.pwr.dozeEn), (1, b2n s.pwr.pilotArm), (8, s.pwr.dozeIdle.toNat)]
  | 0x0108 => s.pwr.ticks % 2 ^ 32
  | 0x010C => s.pwr.timeHi.toNat
  | 0x0110 => s.pwr.pll.toNat
  | 0x0114 =>
    pack [(0, s.pwr.tjMax.toNat), (8, s.pwr.hottest), (12, b2n s.pwr.warn), (13, b2n s.pwr.tripped),
      (14, b2n s.pwr.low)]
  | 0x0200 =>
    pack [(0, b2n (ownerKey s).isSome), (1, b2n s.fuses.lock), (2, b2n (enrolDamaged s)), (3, b2n s.sec.debugSeen),
      (4, b2n s.sec.cfgRec), (5, b2n s.sec.hostload),
      (6, match s.sec.session with | .none => 0 | .unowned => 1 | .owned => 2)]
  | 0x0204 => pack [(0, s.mgmt.glow), (8, s.mgmt.restarts.toNat), (16, s.mgmt.viol.toNat)]
  | 0x2000 => safeStatus s
  | 0x2008 => pack [(0, s.safety.relights.toNat), (16, s.safety.disSlots.toNat)]
  | 0x200C => camGuard s
  | 0x2010 => overdueMap s
  | _ => 0

def sluiceWord (s : State) (off : Nat) : Nat :=
  if off < 0x20 then
    pack ((List.range 8).map fun m =>
      (4 * m, if h : 2 * off + m < 64 then (s.sluice.prio.get ⟨2 * off + m, h⟩).toNat else 0))
  else match off with
    | 0x20 => s.sluice.weirMax
    | 0x24 => weirUsed s
    | 0x28 => s.sluice.traceMask.toNat
    | 0x2C => s.sluice.traceSeq.toNat
    | 0x30 => s.sluice.cursor.toNat
    | _ => 0

def worldWord (s : State) (off : Nat) : Nat :=
  match off with
  | 0x00 => s.world.epoch.toNat
  | 0x04 => pack [(0, b2n s.world.built), (1, s.world.camsLast), (16, s.world.tracks.length)]
  | 0x08 => (s.world.dir.filter fun e => e.2.valid).length
  | 0x0C => pack [(0, s.world.dirFull.toNat), (16, s.world.fuseCutoff.toNat)]
  | 0x10 => b2n s.sluice.specReg
  | 0x14 => pack [(0, s.sluice.confirmed.toNat), (16, s.sluice.aborted.toNat)]
  | _ => 0

def memWord (s : State) (off : Nat) : Nat :=
  if 0x20 ≤ off ∧ off < 0x44 then mapWord s ((off - 0x20) / 4)
  else if 0x100 ≤ off ∧ off < 0x180 then lanternStatus s ((off - 0x100) / 4)
  else if 0x200 ≤ off ∧ off < 0x240 then dmaStatus s (Fin.ofNat 16 ((off - 0x200) / 4))
  else match off with
    | 0x00 => b2n s.mem.poolReg
    | 0x04 => pack [(0, s.mem.hostWin), (8, s.mem.dataRate), (16, s.mem.capacity)]
    | 0x08 => pack [(0, s.grid.regPeriod), (16, s.grid.regRetain)]
    | 0x0C =>
      pack [(0, s.mem.present.toNat), (4, s.mem.ddrFail.toNat), (8, s.mem.d2dFail.toNat), (16, channels s)]
    | 0x10 => pack [(0, activeCount s), (8, sparesFree s)]
    | _ => 0

def motionWord (s : State) (off : Nat) : Nat :=
  match off with
  | 0x00 => pack ((List.finRange 4).map fun n => (8 * n.val, (s.motion.cams.get n).state))
  | 0x10 => pack [(0, s.motion.offset), (8, s.motion.spWin)]
  | 0x14 =>
    pack [(0, b2n (s.motion.sync || s.motion.gm)), (1, b2n s.motion.gm), (2, s.motion.link.toNat),
      (8, s.motion.tagFail.toNat)]
  | 0x18 => pack ((List.finRange 32).map fun n => (n.val, b2n (s.motion.nodes.get n).present))
  | _ => 0

def klinkWord (s : State) (off : Nat) : Nat :=
  if 0x10 ≤ off ∧ off < 0x20 then
    let p := Fin.ofNat 4 ((off - 0x10) / 4)
    let k := s.klink.ports.get p
    pack [(0, k.state), (3, partnerNum s p), (8, k.retrains.toNat), (16, k.crcErr.toNat)]
  else match off with
    | 0x00 => s.klink.enable.toNat
    | 0x20 => pack [(0, groupNum s), (3, groupSize s), (7, b2n (sourceOk s))]
    | 0x24 => s.klink.map.version.toNat
    | _ => 0

def emberRegWord (s : State) (off : Nat) : Nat :=
  match off with
  | 0x00 => s.ember.next.toNat
  | 0x04 => s.ember.clear.toNat
  | 0x08 => pack [(0, s.ember.index.toNat), (16, s.ember.area.toNat), (31, b2n s.ember.winReady)]
  | 0x0C => b2n s.ember.frozen
  | 0x10 => pack [(0, b2n s.ember.flushing), (1, b2n s.ember.flashFail)]
  | _ => 0

def spoutBlockWord (s : State) (off : Nat) : Nat :=
  if off = 0 then s.spout.cfg.toNat
  else if 0x1000 ≤ off ∧ off < 0x1080 then senderWord (s.spout.sec.get 0) (off - 0x1000)
  else if 0x1080 ≤ off ∧ off < 0x1100 then receiverWord (s.spout.sec.get 1) (off - 0x1080)
  else if 0x1100 ≤ off ∧ off < 0x1200 then lockWord s (Fin.ofNat 64 ((off - 0x1100) / 4))
  else 0

/-- The word of BAR0 at a 4 B offset, as a read returns it, without the side effects of a read. The device memory
window is no register and reads 0 here. -/
def readReg (s : State) (off : Nat) : Nat :=
  if off < 0x3000 then globalWord s off
  else if 0x10000 ≤ off ∧ off < 0x11000 then
    ringWord s (Fin.ofNat 64 ((off - 0x10000) / 0x40)) ((off - 0x10000) % 0x40)
  else if 0x11000 ≤ off ∧ off < 0x11014 then
    match off with
    | 0x11000 => s.rings.dbBase.toNat % 2 ^ 32
    | 0x11004 => s.rings.dbBase.toNat / 2 ^ 32
    | 0x11008 => s.rings.shBase.toNat % 2 ^ 32
    | 0x1100C => s.rings.shBase.toNat / 2 ^ 32
    | _ => pack [(0, s.rings.interval), (8, s.rings.statusVec.toNat)]
  else if 0x20000 ≤ off ∧ off < 0x20034 then sluiceWord s (off - 0x20000)
  else if 0x21000 ≤ off ∧ off < 0x22000 then traceWord s (off - 0x21000)
  else if 0x30000 ≤ off ∧ off < 0x30018 then worldWord s (off - 0x30000)
  else if 0x40000 ≤ off ∧ off < 0x40240 then memWord s (off - 0x40000)
  else if 0x50000 ≤ off ∧ off < 0x5001C then motionWord s (off - 0x50000)
  else if 0x60000 ≤ off ∧ off < 0x60028 then klinkWord s (off - 0x60000)
  else if 0x70000 ≤ off ∧ off < 0x70014 then emberRegWord s (off - 0x70000)
  else if 0x80000 ≤ off ∧ off < 0x81200 then spoutBlockWord s (off - 0x80000)
  else if 0xF00000 ≤ off ∧ off < 0xF00400 then (msixWord s.host (off - 0xF00000)).toNat
  else if off = 0xF01000 then s.host.pba.toNat % 2 ^ 32
  else if off = 0xF01004 then s.host.pba.toNat / 2 ^ 32
  else 0

/-- The word of BAR2 at a 4 B offset (R512, R513), without side effects. -/
def readReg2 (s : State) (off : Nat) : Nat :=
  if off < 0x80 then senderWord (s.spout.n.get 0) off
  else if off < 0x100 then receiverWord (s.spout.n.get 1) (off - 0x80)
  else if 0x1000 ≤ off ∧ off < 0x1100 then lockWord s (Fin.ofNat 64 ((off - 0x1000) / 4))
  else if 0x2000 ≤ off ∧ off < 0x3000 then emberWord s (off - 0x2000)
  else if off = 0x3000 then pack [(0, s.mgmt.page.toNat), (5, b2n s.mgmt.busy), (6, b2n s.mgmt.loadFail)]
  else 0

end Sys2Proof.Machine
end

