-- ==== Sys2Proof/Machine/Events.lean ====
section
/-! DEFINITION. Raising an event as one shared operation: its ember record (R444 to R458), its place in the fault handler
(R283), and the response to its severity (R282, R285, R305, R308, R515). -/

namespace Sys2Proof.Machine

open Sys2Proof

/-! ## Ember records -/

/-- Classes whose events never repeat a record (R447). -/
def neverRepeats : EventClass → Bool
  | .emberCleared | .frozenDrops => true
  | _ => false

/-- The snapshot of an event: its defined words, then the trigger entry's registers, 12 words at most (R444). -/
def snapshot (s : State) (cls : EventClass) (words : List W32) : List W32 :=
  let regs := ((s.ember.triggers.find? fun t => t.1 == cls).map (·.2)).getD []
  (words ++ regs.map fun off => BitVec.ofNat 32 (readReg s off)).take 12

/-- The head position of a record (R449); it is in the head area below 256. -/
def headPos (e : Ember) (r : EmberRec) : Nat := (r.seq - e.clear).toNat

/-- Writes a record to every area that holds it (R447, R449, R450). -/
def emberPlace (e : Ember) (r : EmberRec) : Ember :=
  let p := headPos e r
  { e with
    tail := e.tail.put (r.seq.toNat % 1024) r
    head := if p < 256 then e.head.put p r else e.head
    headCopy := if p < 256 && (e.headCopy.find p).any fun x => x.seq == r.seq then e.headCopy.put p r else e.headCopy
    flash := if serialLt r.seq e.flashed then e.flash.put (r.seq.toNat % 65536) r else e.flash
    last := some r }

/-- The records of the tail that are not yet in flash, up to a SEQ. -/
def unflushed (e : Ember) (upto : W32) : List EmberRec :=
  (e.tail.filter fun x => !serialLt x.2.seq e.flashed && serialLt x.2.seq upto).map Prod.snd

/-- They are written to flash, and the head copy with those that are head records (R450, R452). -/
def emberToFlash (e : Ember) (upto : W32) : Ember :=
  let recs := unflushed e upto
  { e with
    flash := recs.foldl (fun f x => f.put (x.seq.toNat % 65536) x) e.flash
    flashed := if serialLt e.flashed upto then upto else e.flashed
    headCopy := if recs.any fun r => headPos e r < 256 then e.head else e.headCopy }

/-- A page is written to flash; a write that fails leaves its records to a later page or flush (R450, R452, log 160). -/
def pageWrite (e : Ember) (upto : W32) : Ember :=
  if (unflushed e upto).isEmpty then e
  else if Config.pageWriteFails e.pages then { e with pages := e.pages + 1, pageFail := true, flashFail := true }
  else { emberToFlash e upto with pages := e.pages + 1 }

/-- Erases the 64 KiB sector that the write point is about to enter, so that the newest 64,512 slots stay (R450). -/
def emberErase (e : Ember) (seq : W32) : Ember :=
  let sector := seq.toNat / 1024 % 64
  { e with flash := e.flash.filter fun x => x.1 / 1024 != sector }

/-- A clear record is about to be written at `seq`: it sets C, begins a new head area, and is flushed (R449, R458). -/
def emberClearAt (e : Ember) (seq : W32) : Ember :=
  { e with clear := seq, head := [], headCopy := [], flushing := true, flushTo := seq + 1 }

/-- Starts one write (R447, R448, R451): a repeat of the last record, or a new record. -/
def emberWrite (e : Ember) (p : PendSlot) : Ember :=
  let repeats := match e.last with
    | some r => r.cls == p.cls && r.words == p.words && !neverRepeats p.cls
    | none => false
  match e.last, repeats with
  | some r, true =>
    let n := r.repeat_ + p.count
    let r' := { r with repeat_ := min n 65535, sat := r.sat || p.sat || 65535 < n, folded := r.folded || p.folded }
    { emberPlace e r' with writing := true }
  | _, _ =>
    let seq := e.next
    let r : EmberRec :=
      { seq, time := BitVec.ofNat 48 p.first, cls := p.cls, sat := p.sat, folded := p.folded, damaged := false
        spec := p.spec, repeat_ := p.count, words := p.words, defined := p.defined }
    let e1 := if seq.toNat % 64 = 0 then pageWrite e seq else e
    let e2 := if seq.toNat % 1024 = 0 then emberErase e1 seq else e1
    let e3 := if p.cls == .emberCleared then emberClearAt e2 seq else e2
    let next := seq + 1
    let reserve := if next = e3.reserve - 16384 then e3.reserve + 65536 else e3.reserve
    { emberPlace { e3 with next, reserve } r with writing := true }

/-- An event that arrives while a write is in progress (R448). -/
def emberPend (l : List PendSlot) (p : PendSlot) : List PendSlot :=
  if l.any fun q => q.cls == p.cls then
    l.map fun q =>
      if q.cls == p.cls then
        { q with count := min (q.count + 1) 65535, sat := q.sat || q.count == 65535
                 folded := q.folded || q.words != p.words }
      else q
  else l ++ [p]

def emberLog (e : Ember) (p : PendSlot) : Ember :=
  if e.writing then { e with pend := emberPend e.pend p } else emberWrite e p

/-- Which of two pending slots is written first: the one whose first event arrived earlier, ties in ascending class number (R448); of
one tick, the `FROZEN_DROPS` record comes before the event that ended the freeze (R456). -/
def firstOf (p q : PendSlot) : Bool :=
  p.first < q.first || (p.first == q.first && (p.cls == .frozenDrops || (q.cls != .frozenDrops && p.cls.number ≤ q.cls.number)))

/-- The pending slot that is written next. -/
def earliest : List PendSlot → Option PendSlot
  | [] => none
  | p :: t =>
    match earliest t with
    | none => some p
    | some q => if firstOf p q then some p else some q

/-- The end of a freeze (R456): one `FROZEN_DROPS` record. -/
def emberThaw (s : State) : State :=
  let e := s.ember
  let words := [e.frozenN, e.frozenS2, e.frozenS3, s.pwr.ticks - e.frozenAt].map (BitVec.ofNat 32 ·)
  let p : PendSlot := ⟨.frozenDrops, 1, false, false, snapshot s .frozenDrops words, 4, s.pwr.ticks, false⟩
  { s with ember := emberLog { e with frozen := false, frozenN := 0, frozenS2 := 0, frozenS3 := 0 } p }

/-- Logs one event (R445, R451, R456). `spec` marks an event of a speculative slot (R235). -/
def emberEvent (s : State) (cls : EventClass) (words : List W32) (spec : Bool) : State :=
  let p : PendSlot := ⟨cls, 1, false, false, snapshot s cls words, min words.length 12, s.pwr.ticks, spec⟩
  let e := s.ember
  if !e.online then
    { s with ember :=
      if e.held.length < 32 then { e with held := e.held ++ [p] }
      else { e with heldDrop := e.heldDrop + 1, heldS2 := e.heldS2 + b2n (cls.severity == 2)
                    heldS3 := e.heldS3 + b2n (cls.severity == 3) } }
  else if e.frozen && cls.severity != 1 then
    { s with ember := { e with
        frozenN := e.frozenN + 1
        frozenS2 := e.frozenS2 + b2n (cls.severity == 2), frozenS3 := e.frozenS3 + b2n (cls.severity == 3) } }
  else
    let s1 := if e.frozen then emberThaw s else s
    { s1 with ember := emberLog s1.ember p }

/-- A flush begins, or a flush in progress is extended to the records written up to now (R452). -/
def emberFlushStart (s : State) : State :=
  if s.ember.online then { s with ember := { s.ember with flushing := true, flushTo := s.ember.next } } else s

/-! ## STOP_REQ_N, relight and HALT (R285, R286, R305, R308) -/

/-- Asserts STOP_REQ_N: a release needs a hand-off that follows. -/
def assertStop (s : State) : State :=
  { s with pwr := { s.pwr with stop := true }, safety := { s.safety with handed := false } }

/-- Every running job ends without a result; a group job's members learn of it (R385), and host accesses that waited for
an idle device are performed (R67). -/
def endJobs (s : State) : State :=
  drainWaits { s with
    jobs := []
    klink := (s.jobs.filter fun j => j.img.group.isSome).foldl (fun k j => k.send (.abort j.img.planId j.desc.tag)) s.klink }

/-- The clock gates that rest between a slot's work and the boundary stay as shown while the dies are in reset (R500). -/
def keepGates (s : State) : State :=
  { s with lanterns := Vector.ofFn fun p => { lant s p with gated := (lant s p).gated || restsInSlot s p } }

/-- HALT: jobs end, accepted descriptors stay uncompleted, STOP_REQ_N stays asserted; a start-up in progress goes no
further. -/
def enterHalt (s : State) : State :=
  let s1 := endJobs (keepGates (assertStop s))
  refreshHeader { s1 with
    pwr := { s1.pwr with waitGlow := false, heldStart := none }
    safety := { s1.safety with state := .halt } }

/-- An S1 event begins its relight, whose first steps assert STOP_REQ_N and end the running jobs, or HALT when two relights have begun in the preceding 10 s. -/
def beginRelight (s : State) : State :=
  if s.safety.state == .halt then s
  else if 2 ≤ relights10s s then enterHalt s
  else
    let s1 := endJobs (keepGates (assertStop s))
    let f := s1.safety
    refreshHeader { s1 with safety := { f with
      state := .relight, relightAt := s.pwr.ticks :: f.relightAt.take 3, relights := satInc f.relights } }

/-! ## The fault handler (R283) -/

/-- A relight runs, or an S1 event is being handled. -/
def handlesS1 (s : State) : Bool := s.safety.state == .relight || s.safety.current.any fun c => c.2 == 1

/-- Handling of an event begins; what it pre-empts is suspended. -/
def handleNow (s : State) (e : EventClass × Nat) : State :=
  let s1 := { s with safety := { s.safety with
    suspended := s.safety.current.toList ++ s.safety.suspended, current := some e } }
  if e.2 = 1 then beginRelight s1 else s1

/-- `FAULT_QUEUE_OVERFLOW`: it pre-empts a lower severity, or takes the head of the queue behind a severity-1 handling or a
relight (R284); before READY it is queued like every S1 event (R515). -/
def queueOverflow (s : State) : State :=
  let s1 := emberFlushStart (assertStop (emberEvent s .faultQueueOverflow [] false))
  if !s1.pwr.ready then { s1 with pwr := { s1.pwr with preS1 := s1.pwr.preS1 ++ [.faultQueueOverflow] } }
  else if handlesS1 s1 then { s1 with safety := { s1.safety with overflow := s1.safety.overflow + 1 } }
  else handleNow s1 (.faultQueueOverflow, 1)

/-- An event reaches the handler: it is taken, pre-empts, queues or overflows. An S1 event in a relight waits for its end
(R284). -/
def handlerArrive (s : State) (cls : EventClass) : State :=
  let e := (cls, cls.severity)
  let now := match s.safety.current with
    | none => true
    | some c => e.2 < c.2
  if now && !(e.2 == 1 && s.safety.state == .relight) then handleNow s e
  else if s.safety.queue.length < 8 then { s with safety := { s.safety with queue := s.safety.queue ++ [e] } }
  else queueOverflow s

/-- The S1 event that waits longest is taken, the overflow before it: it begins a further relight (R283, R284). -/
def nextS1 (s : State) : Option State :=
  let f := s.safety
  if f.overflow ≠ 0 then some (handleNow { s with safety := { f with overflow := f.overflow - 1 } } (.faultQueueOverflow, 1))
  else (f.queue.find? fun e => e.2 == 1).map fun e =>
    handleNow { s with safety := { f with queue := f.queue.erase e } } e

/-- Handling of the current event is complete: an S1 event that waits, else the pre-empted handling, else the queue's head. While a
relight runs no S1 event is taken. -/
def handlerDone (s : State) : State :=
  let f := s.safety
  let s0 := { s with safety := { f with current := none } }
  let s1 := if f.state == .relight then none else nextS1 s0
  match s1, f.suspended, f.queue.find? fun e => e.2 != 1 with
  | some t, _, _ => t
  | none, c :: t, _ => { s with safety := { f with current := some c, suspended := t } }
  | none, [], some e => handleNow { s0 with safety := { s0.safety with queue := f.queue.erase e } } e
  | none, [], none => s0

/-! ## Raising an event -/

/-- The compute and memory-side dies are in reset. -/
def diesReset (s : State) : Bool :=
  s.safety.state == .relight || s.safety.state == .halt || (!s.pwr.ready && s.pwr.step < 7)

/-- Events of dies in reset are suppressed (R284, R515). -/
def suppressed (s : State) (cls : EventClass) : Bool := cls.computeDie && diesReset s

/-- The response to an S1 event that was logged (R282, R497, R515). -/
def respondS1 (s : State) (cls : EventClass) : State :=
  let s1 := emberFlushStart (assertStop s)
  if cls = .tempTrip then enterHalt s1
  else if !s1.pwr.ready then { s1 with pwr := { s1.pwr with preS1 := s1.pwr.preS1 ++ [cls] } }
  else handlerArrive s1 cls

/-- An event is detected: it is logged, and its severity's response begins. -/
def raiseEv (s : State) (cls : EventClass) (words : List W32) (spec : Bool) : State :=
  if suppressed s cls then s
  else
    let s1 := emberEvent s cls words spec
    if cls.severity = 1 then respondS1 s1 cls else handlerArrive s1 cls

def raise (s : State) (cls : EventClass) (words : List W32) : State := raiseEv s cls words false

/-- A rule fails a job: it ends with `JOB_FAULT` unless it is already to end otherwise (R282, R516). -/
def failJob (s : State) (r : JobRef) (cls : EventClass) : State :=
  modJob s r fun j => if j.endAs == .none then { j with endAs := .fault cls } else j

/-- An event that its source rule attributes to a job, and which fails it when its severity is 2. -/
def raiseFor (s : State) (cls : EventClass) (words : List W32) (r : JobRef) : State :=
  let spec := (findJob s r).any (·.spec)
  let s1 := raiseEv s cls words spec
  if cls.severity = 2 then failJob s1 r cls else s1

/-! ## The world epoch (R139, R140, R301) -/

/-- The value after epoch `e`: 0 is never used again. -/
def nextEpoch (e : W32) : W32 := if e = 0xFFFF_FFFF then 1 else e + 1

/-- The world epoch takes a value: the age restarts, WORLD tokens are matched, the shadow header follows. -/
def setEpoch (s : State) (e : W32) (teNs : Nat) : State :=
  let w := s.world
  refreshHeader (matchWorld { s with
    world := { w with epoch := e, lastAdvance := s.pwr.ticks, built := true, era := true
                      tePrev := if w.era then some w.teNs else none, teNs := teNs, staleLogged := false }
    safety := { s.safety with stale := false } })

end Sys2Proof.Machine
end

