-- ==== Sys2Proof/Machine/Cameras.lean ====
section
/-! DEFINITION. Camera intake: frame sets (R17, R108 to R110), the sensor-path guard (R297 to R300), camera admission
(R391 to R395) and the reflector's tap (R291). -/

namespace Sys2Proof.Machine

open Sys2Proof

def camGet (s : State) (p : Fin 4) : CamPort := s.motion.cams.get p

def camSet (s : State) (p : Fin 4) (c : CamPort) : State :=
  { s with motion := { s.motion with cams := s.motion.cams.set p c } }

def camMod (s : State) (p : Fin 4) (f : CamPort → CamPort) : State := camSet s p (f (camGet s p))

def camCfg (s : State) (p : Fin 4) : Option CamCfg := s.sluice.recipe.bind fun r => r.cameras.find? fun c => c.port == p

/-- Cameras that take part in frame sets: admitted, not suspect, on a device that fuses its own world (R108, R386). -/
def takesPart (s : State) (p : Fin 4) : Bool := (camGet s p).state == 3 && !isReceiver s

/-! ## The reflector's bitmap (R291) -/

def cellKey (c : Nat × Nat × Nat) : Nat := c.1 + 512 * (c.2.1 + 512 * c.2.2)

/-- A cell and its 26 neighbours inside the 512 × 512 × 256 grid. -/
def dilate (c : Nat × Nat × Nat) : List (Nat × Nat × Nat) :=
  ([0, 1, 2].flatMap fun dx => [0, 1, 2].flatMap fun dy => [0, 1, 2].map fun dz =>
    (c.1 + dx, c.2.1 + dy, c.2.2 + dz)).filterMap fun (x, y, z) =>
      if 1 ≤ x ∧ x ≤ 512 ∧ 1 ≤ y ∧ y ≤ 512 ∧ 1 ≤ z ∧ z ≤ 256 then some (x - 1, y - 1, z - 1) else none

/-- The newest frame of the conveyor encoder at an instant (R403). -/
def encoderFrame (s : State) (r : Recipe) (ns : Nat) : Option JointFrame :=
  ((nodesIn s r fun c => c.kind == .encoder).filterMap fun n => frameAt n.2 ns).head?

/-- The conveyor encoder's position and speed at an instant (R136), 0 without a frame. -/
def encoderAt (s : State) (r : Recipe) (ns : Nat) : Int × Int :=
  (((encoderFrame s r ns).bind fun f => f.axes.head?).map fun a => (a.1, a.2.1)).getD (0, 0)

/-- Whether an encoder value newer than 10 ms exists at an instant (R405). -/
def encoderFresh (s : State) (r : Recipe) (ns : Nat) : Bool :=
  (encoderFrame s r ns).any fun f => ns < f.timeNs + 10000000

/-- The 8 mm cell of a point in the world volume. -/
def tapCell (r : Recipe) (p : Vec3) : Option (Nat × Nat × Nat) :=
  let q := Vec3.sub p (volumeOf r).1
  let i := fun (v : Rat) => (v / 8).floor.toNat
  if inVolume r p then some (i q.x, i q.y, i q.z) else none

/-- A point in an inflated capsule of a robot model. -/
def inCapsules (s : State) (r : Recipe) (ns : Nat) (p : Vec3) : Bool :=
  r.robots.any fun m =>
    let q := jointsAt s r m.1 m.2 ns
    (List.range m.2.capsules.length).any fun k =>
      let e := Config.capsuleEnds r.bodyDigest m.1 k q
      let rad := (nth (ownCapsules m.2) k default).radius + r.selfFilter
      decide (segDistSq p e.1 e.2 ≤ rad * rad)

/-- A depth point that the reflector accepts. -/
def tapAccepts (s : State) (r : Recipe) (c : CamCfg) (ns : Nat) (x : Pixel) : Bool :=
  x.depth != 0 && r.depthMin ≤ x.depth && x.depth ≤ r.depthMax && !inCapsules s r ns (backProject c x)

/-- The cells whose centre the pixel's ray passes at least 24 mm short of its end point: the pixel is the one onto which the
centre projects (DEDUCED, log 92). -/
def tapClears (r : Recipe) (c : CamCfg) (x : Pixel) : List (Nat × Nat × Nat) :=
  let e := backProject c x
  let len := Vec3.normSq (camRay c x.index)
  let short := fun (z : Rat) => z ≤ x.depth && 576 ≤ (x.depth - z) * (x.depth - z) * len
  let between := fun (a b : Rat) => gridRange 8 (min a b) (max a b)
  let lo := Vec3.sub c.trans (volumeOf r).1
  let hi := Vec3.sub e (volumeOf r).1
  ((between lo.x hi.x).flatMap fun i => (between lo.y hi.y).flatMap fun j => (between lo.z hi.z).map fun k =>
    (⟨8 * i + 4, 8 * j + 4, 8 * k + 4⟩ : Vec3)).filterMap fun v =>
      let p := Vec3.add (volumeOf r).1 v
      if projectTo c p == some x.index && short (axisDepth c p) then tapCell r p else none

/-- The conveyor bitmap after a frame: rays clear cells, then points mark theirs and the 26 neighbours with the encoder
position and the time at capture. A cell holds one stamp, the newest. -/
def beltAfter (old : List BeltCell) (cleared marked : List Nat) (pos : Int) (ns : Nat) : List BeltCell :=
  (old.filter fun b => !cleared.contains b.key && !marked.contains b.key) ++ marked.dedup.map fun k => ⟨k, pos, ns⟩

/-- One frame's raw depth reaches the bitmaps: accepted rays clear cells, then accepted points mark theirs; points in the
conveyor region go to the conveyor bitmap. -/
def applyTap (s : State) (c : CamCfg) (ns : Nat) (xs : List Pixel) : State :=
  match s.sluice.recipe with
  | none => s
  | some r =>
    let ok := xs.filter (tapAccepts s r c ns)
    let onBelt := fun (x : Pixel) => r.conveyor.any fun b => inBox b (backProject c x)
    let cells := fun (l : List Pixel) => l.filterMap fun x => tapCell r (backProject c x)
    let past := (ok.flatMap (tapClears r c)).map cellKey
    let clear := past.foldl (fun (m : SMap Bool) k => m.put k false) s.safety.bitmap
    let mark := ((cells (ok.filter fun x => !onBelt x)).flatMap dilate).foldl
      (fun (m : SMap Bool) c => m.put (cellKey c) true) clear
    let pos := (encoderAt s r ns).1
    { s with safety := { s.safety with
        bitmap := mark, belt := beltAfter s.safety.belt past (((cells (ok.filter onBelt)).flatMap dilate).map cellKey) pos ns } }

def tapFrame (s : State) (f : SetFrame) : State :=
  match camCfg s f.port with
  | some c => applyTap s c f.sofNs f.pixels
  | none => s

/-! ## Frame sets -/

/-- A complete set waits for fusion; a fourth one discards the oldest (R17). -/
def pushSet (s : State) (f : FrameSet) : State :=
  let w := s.world.waiting ++ [f]
  if w.length ≤ 3 then { s with world := { s.world with waiting := w } }
  else raise { s with world := { s.world with waiting := w.drop 1 } } .intakeOverrun []

/-- The open set closes: a set with no frame is dropped; frames still in reception are late (R108, R109). -/
def closeSet (s : State) : State :=
  match s.world.openSet with
  | none => s
  | some o =>
    let s1 := { s with
      world := { s.world with openSet := none }
      motion := { s.motion with cams := s.motion.cams.map fun c =>
        if c.inSet then { c with inSet := false, late := true } else c } }
    if o.got.isEmpty then s1
    else settleAll (pushSet (o.got.foldl tapFrame s1) ⟨o.teNs, o.got⟩)

/-- Closes the open set once every camera still taking part has delivered its frame. -/
def settleSet (s : State) : State :=
  match s.world.openSet with
  | some o => if o.ports.all fun p => o.got.any fun f => f.port == p then closeSet s else s
  | none => s

/-- A camera stops taking part at once (R395). -/
def leaveSets (s : State) (p : Fin 4) : State :=
  match s.world.openSet with
  | some o =>
    settleSet { camMod s p fun c => { c with inSet := false } with
      world := { s.world with openSet := some { o with
        ports := o.ports.filter (· != p), got := o.got.filter fun f => f.port != p } } }
  | none => s

/-- A suspect camera's frames that no run has fused yet feed nothing (R300); a set without a frame left is dropped. -/
def dropFrames (s : State) (p : Fin 4) : State :=
  let rest := fun (x : FrameSet) => { x with frames := x.frames.filter fun f => f.port != p }
  { s with world := { s.world with waiting := (s.world.waiting.map rest).filter fun x => !x.frames.isEmpty } }

/-! ## Verdicts on frames (R300) -/

/-- Consecutive failing frames, newest first. -/
def leadingFails : List SeenFrame → Nat
  | ⟨_, _, some false, _⟩ :: t => leadingFails t + 1
  | _ => 0

/-- Two neighbouring frames with the given verdict, of which at least one has just been made: it completes the pair. -/
def twoRunning (v : Bool) : List SeenFrame → Bool
  | x :: y :: t => (x.verdict == some v && y.verdict == some v && (x.made || y.made)) || twoRunning v (y :: t)
  | _ => false

/-- After a verdict: two consecutive failures make an admitted camera suspect, two consecutive passes restore a
suspect one. -/
def judge (s : State) (p : Fin 4) : State :=
  let c0 := camGet s p
  let c := { c0 with failRun := min 2 (leadingFails c0.hist), hist := c0.hist.map fun e => { e with made := false } }
  if c.state == 3 && twoRunning false c0.hist then
    dropFrames (leaveSets (raise (camSet s p { c with state := 4 }) .camSuspect []) p) p
  else if c.state == 4 && twoRunning true c0.hist then
    raise (camSet s p { c with state := 3 }) .camRestored []
  else camSet s p c

/-- A frame enters the history with its verdict, or without one while its probe comparison may follow. -/
def note (c : CamPort) (ctr : W32) (patchErr : List (Nat × Nat)) (verdict : Option Bool) : CamPort :=
  { c with hist := (⟨ctr, patchErr, verdict, verdict.isSome⟩ :: c.hist).take 8 }

/-- A frame that has no verdict yet takes one. -/
def SeenFrame.decide (e : SeenFrame) (ok : Bool) : SeenFrame :=
  if e.verdict.isNone then { e with verdict := some ok, made := true } else e

/-- A probe verdict on frame `ctr`; older frames that no run compared are judged by R298 alone. -/
def probeVerdict : List SeenFrame → W32 → Bool → List SeenFrame
  | [], _, _ => []
  | f :: t, ctr, ok =>
    if f.counter = ctr then
      (if f.verdict == some false then f else { f with verdict := some ok, made := true }) :: t.map (·.decide true)
    else f :: probeVerdict t ctr ok

/-! ## A frame -/

/-- R298: the pattern matches and the counter is the reference plus the start-of-frames since. -/
def patternOk (c : CamPort) (f : FrameObs) : Bool :=
  match f.embedded with
  | none => false
  | some (pat, ctr) =>
    pat == c.pattern && (match c.refCtr with | none => true | some r => ctr == r + BitVec.ofNat 32 c.sofs)

/-- The reference counter after a frame. -/
def takeRef (c : CamPort) (f : FrameObs) : CamPort :=
  match f.embedded with
  | some (_, ctr) => { c with refCtr := some ctr, sofs := 0 }
  | none => c

def frameCtr (c : CamPort) (f : FrameObs) : W32 :=
  match f.embedded with
  | some (_, ctr) => ctr
  | none => (c.refCtr.getD 0) + BitVec.ofNat 32 c.sofs

/-- What a frame brought under a virtual channel and data type, paired by the CSI-2 frame number (R391). -/
def partsOf (f : FrameObs) (vc : Nat) (t : CsiType) : List CsiPart :=
  f.parts.filter fun x => x.vc == vc && x.type == t && x.frame == f.frame

def CsiType.ofImage : ImageKind → CsiType
  | .raw8 => .raw8 | .raw12 => .raw12 | .yuv422 => .yuv422

/-- The port's depth stream has sent packets. -/
def hasDepth (c : CamCfg) (f : FrameObs) : Bool := !(partsOf f c.depthVc .raw16).isEmpty

/-- The frame as the recipe's assignments let it in: an embedded-data line counts if it came intact on the depth stream's channel, and an
image if one is assigned; packets of any other channel or type are ignored (R297, R298, R391). -/
def assigned (c : CamCfg) (f : FrameObs) : FrameObs :=
  let line := partsOf f c.depthVc .embedded
  { f with
    embedded := if !line.isEmpty && line.all (·.ok) then f.embedded else none
    image := if c.image.any fun k => !(partsOf f k.2 (CsiType.ofImage k.1)).isEmpty then f.image else [] }

/-- Every packet of the depth frame and of an assigned confidence image passed, and that image is there (R392). -/
def frameWhole (c : CamCfg) (f : FrameObs) : Bool :=
  (partsOf f c.depthVc .raw16).all (·.ok) && (partsOf f c.depthVc .embedded).all (·.ok)
    && c.conf.all fun v => !(partsOf f v .raw8).isEmpty && (partsOf f v .raw8).all (·.ok)

/-- A frame as its set holds it. -/
def setFrame (s : State) (p : Fin 4) (ctr : W32) (f : FrameObs) : SetFrame :=
  ⟨p, ctr, (camGet s p).sofNs, f.pixels, f.patchErr, f.image⟩

/-- An accepted frame of an admitted camera: it is counted into the open set, or it is late; its raw depth goes to
receivers (R387). -/
def joinFrame (s : State) (p : Fin 4) (ctr : W32) (f : FrameObs) : State :=
  let c := camGet s p
  let s1 := if takesPart s p then { s with klink := s.klink.send (.raw p ctr) } else s
  let s2 := camMod s1 p fun c => { c with inSet := false, late := false }
  if c.late then raise s2 .intakeLate []
  else if s.pwr.pstate == .doze then (if takesPart s p then tapFrame s2 (setFrame s p ctr f) else s2)
  else match s2.world.openSet with
    | some o =>
      if c.inSet then
        settleSet { s2 with world := { s2.world with openSet := some { o with
          got := o.got ++ [setFrame s p ctr f] } } }
      else s2
    | none => s2

/-- A complete frame of a port in states 2 to 4; `whole` says that none of its packets is bad or missing. -/
def frameIn (s : State) (p : Fin 4) (whole : Bool) (f : FrameObs) : State :=
  let c := camGet s p
  let ctr := frameCtr c f
  if !whole || c.early then
    raise (camSet s p { takeRef c f with inSet := false, late := false }) .camFrameBad []
  else if !patternOk c f then
    let c1 := note { takeRef c f with inSet := false, late := false, patFail := true, passRun := 0 } ctr f.patchErr (some false)
    judge (raise (camSet s p c1) .camPatternFail []) p
  else
    let c1 := { takeRef c f with patFail := false, accepted := some c.sofNs }
    if c.state == 2 then
      let c2 := { note c1 ctr f.patchErr (some true) with failRun := 0 }
      if 1 ≤ c.passRun then raise (camSet s p { c2 with state := 3, passRun := 0 }) .camAdmitted []
      else camSet s p { c2 with passRun := c.passRun + 1 }
    else
      let s1 := judge (camSet s p (note c1 ctr f.patchErr none)) p
      if c.state == 3 then joinFrame s1 p ctr f else camMod s1 p fun c => { c with inSet := false, late := false }

/-- The frame whose patch a fusion run compares (R299, R300): the port's frame of the set, or a suspect camera's newest
unjudged frame. -/
def probedFrame (s : State) (set : FrameSet) (p : Fin 4) : Option (W32 × List (Nat × Nat)) :=
  match set.frames.find? fun f => f.port == p with
  | some f => some (f.counter, f.patchErr)
  | none =>
    if (camGet s p).state == 4 then
      ((camGet s p).hist.find? fun e => e.verdict.isNone).map fun e => (e.counter, e.patchErr)
    else none

/-- The job that is fusing a frame set. -/
def fusingJob (s : State) : Option Job := s.jobs.find? fun j => j.fusing.isSome

/-! ## Meanings -/

/-- `START_OF_FRAME` (R108, R298, R392). DESIGN CHOICE (log 148): where `SET_TIMEOUT` is below `SYNC_TOL`, one that comes after the set
has closed opens a new set, though it lies within `SYNC_TOL` of the closed one. -/
def execStartOfFrame (p : Fin 4) (timeNs : Nat) (s : State) : Out :=
  live s fun s =>
    let c := camGet s p
    if c.state < 2 then s
    else
      let tol := 1000 * ((s.sluice.recipe.map (·.syncTolUs)).getD 0)
      let c1 := { c with sofs := c.sofs + 1, lastSof := s.pwr.ticks, sofNs := timeNs, late := false, inSet := false
                         early := c.accepted.any fun t => timeNs < t + 16000000 }
      if takesPart s p && s.pwr.pstate != .doze then
        match s.world.openSet with
        | none =>
          let ports := (List.finRange 4).filter (takesPart s)
          { camSet s p { c1 with inSet := true } with
            world := { s.world with openSet := some ⟨timeNs, s.pwr.ticks, ports, [p], []⟩ } }
        | some o =>
          if timeNs ≤ o.teNs + tol && o.teNs ≤ timeNs + tol && o.ports.contains p && !o.joined.contains p then
            { camSet s p { c1 with inSet := true } with
              world := { s.world with openSet := some { o with joined := o.joined ++ [p] } } }
          else camSet s p c1
      else camSet s p c1

/-- `FRAME_RECEIVED` (R298, R391, R392, R394, R109). -/
def execFrameReceived (p : Fin 4) (frame : FrameObs) (s : State) : Out :=
  live s fun s =>
    match camCfg s p with
    | some c => if (camGet s p).state < 2 || !hasDepth c frame then s else frameIn s p (frameWhole c frame) (assigned c frame)
    | none => s

/-- `SET_TIMEOUT` has passed since the opening start-of-frame. -/
def setDue (s : State) : Bool :=
  s.world.openSet.any fun o =>
    decide (o.opened + ((s.sluice.recipe.map (·.setTimeoutMs)).getD 0) * ticksPerMs ≤ s.pwr.ticks)

/-- `SET_TIMEOUT` (R108, R395). -/
def execSetTimeout (s : State) : Out := live s fun s => if setDue s then closeSet s else s

/-- `CAM_DETACHED` (R394): no start-of-frame for 100 ms in states 2 to 4, or the I3C target stopped answering. -/
def execCamDetached (p : Fin 4) (kind : DetachKind) (s : State) : Out :=
  live s fun s =>
    let c := camGet s p
    let gone := match kind with
      | .noFrames => 2 ≤ c.state && c.lastSof + 100 * ticksPerMs ≤ s.pwr.ticks
      | .i3cSilent => c.state != 0
    if !gone then s
    else raise (leaveSets (camSet s p .reset) p) .camDetached []

/-- `I3C_IN_BAND_EVENT` (R393, R470): passed to glow; in the pilot state it asserts WAKE_N. -/
def execI3cInBandEvent (bus : Fin 2) (hotJoin : Bool) (s : State) : Out :=
  .next (if s.pwr.pstate == .pilot then { s with pwr := { s.pwr with wakeN := true } }
    else if s.pwr.hub then { s with motion := { s.motion with i3c := s.motion.i3c ++ [(bus.val, hotJoin)] } }
    else s)

/-- `CAMERA_DISCOVERED` (R393, R394): by a glow that runs and has not shed discovery (R438). -/
def execCameraDiscovered (p : Fin 4) (bus : Fin 2) (provId : W48) (s : State) : Out :=
  live s fun s =>
    if (camGet s p).state == 0 && (s.mgmt.glow == 2 || s.mgmt.glow == 3)
        && (camCfg s p).any fun c => c.provId == provId && c.bus == bus then
      camSet s p { CamPort.reset with state := 1 }
    else s

/-- Glow runs: it is neither awaiting a load, nor starting, nor held (R441). -/
def glowRuns (s : State) : Bool := 2 ≤ s.mgmt.glow && s.mgmt.glow ≤ 4

/-- `CAMERA_CONFIGURED` (R394): an attempt of glow at the recipe's register writes ends; without a glow that runs there is none
(R430, R439). -/
def execCameraConfigured (p : Fin 4) (ok : Bool) (s : State) : Out :=
  live s fun s =>
    let c := camGet s p
    if c.state != 1 || !glowRuns s then s
    else if ok then
      camSet s p { CamPort.reset with state := 2, lastSof := s.pwr.ticks
                                      pattern := ((camCfg s p).map (·.pattern)).getD 0 }
    else if c.cfgFails + 1 < 3 then camSet s p { c with cfgFails := c.cfgFails + 1 }
    else raise (camSet s p .reset) .camConfigFail []

end Sys2Proof.Machine
end

