-- ==== Sys2Proof/Machine/Arith.lean ====
section
/-! DEFINITION. Number formats and the arithmetic of accumulation and drain (R31 to R38): floating formats as exact
rationals with rounding, 48-bit integer accumulation, and the conversions of a drain with what each counts. -/

namespace Sys2Proof.Machine

open Sys2Proof

/-! ## Floating values -/

/-- A floating value: NaN, a signed infinity, or a signed magnitude (so that zeros keep their sign). -/
inductive FVal where
  | nan
  | inf (neg : Bool)
  | fin (neg : Bool) (mag : Rat)
  deriving DecidableEq, Repr

/-- A binary format: exponent and fraction bits and bias; `ieee` formats have infinities. -/
structure FFmt where
  eb   : Nat
  fb   : Nat
  bias : Nat
  ieee : Bool
  deriving DecidableEq, Repr

def fp32 : FFmt := ⟨8, 23, 127, true⟩
def fmtBf16 : FFmt := ⟨8, 7, 127, true⟩
def fmtE5m2 : FFmt := ⟨5, 2, 15, true⟩
/-- E4M3 has no infinities: exponent 15 is normal but for fraction 7, which is NaN (R32). -/
def fmtE4m3 : FFmt := ⟨4, 3, 7, false⟩

/-- The value of a code (R31, R32). Subnormals are exact. -/
def FFmt.decode (f : FFmt) (code : Nat) : FVal :=
  let frac := code % 2 ^ f.fb
  let e := code / 2 ^ f.fb % 2 ^ f.eb
  let neg := code / 2 ^ (f.fb + f.eb) % 2 == 1
  let top := e = 2 ^ f.eb - 1
  if f.ieee ∧ top then (if frac = 0 then .inf neg else .nan)
  else if ¬ f.ieee ∧ top ∧ frac = 2 ^ f.fb - 1 then .nan
  else if e = 0 then .fin neg (frac * pow2 (1 - (f.bias : Int) - f.fb))
  else .fin neg ((2 ^ f.fb + frac) * pow2 ((e : Int) - f.bias - f.fb))

/-- floor(log2 q) of a positive rational. -/
def log2Rat (q : Rat) : Int :=
  let e : Int := (Nat.log2 q.num.toNat : Int) - Nat.log2 q.den
  if pow2 e ≤ q then e else e - 1

/-- A magnitude rounded to nearest even in the format, its exponent range unbounded above. -/
def FFmt.round (f : FFmt) (mag : Rat) : Rat :=
  if mag = 0 then 0
  else
    let e := max (log2Rat mag) (1 - (f.bias : Int))
    let ulp := pow2 (e - f.fb)
    (rhe (mag / ulp) : Rat) * ulp

/-- Largest finite magnitude. -/
def FFmt.maxFin (f : FFmt) : Rat :=
  if f.ieee then (2 ^ (f.fb + 1) - 1 : Nat) * pow2 ((2 ^ f.eb - 2 : Nat) - (f.bias : Int) - f.fb)
  else (2 ^ (f.fb + 1) - 2 : Nat) * pow2 ((2 ^ f.eb - 1 : Nat) - (f.bias : Int) - f.fb)

/-- The code of a representable magnitude. -/
def FFmt.codeOf (f : FFmt) (mag : Rat) : Nat :=
  let emin : Int := 1 - (f.bias : Int)
  if mag < pow2 emin then (rhe (mag / pow2 (emin - f.fb))).toNat
  else
    let e := log2Rat mag
    (rhe (mag / pow2 (e - f.fb))).toNat - 2 ^ f.fb + (e + f.bias).toNat * 2 ^ f.fb

def FFmt.signBit (f : FFmt) (neg : Bool) : Nat := if neg then 2 ^ (f.eb + f.fb) else 0

def FFmt.infCode (f : FFmt) : Nat := (2 ^ f.eb - 1) * 2 ^ f.fb

/-- binary32 of a value, one round to nearest even; NaN is the canonical one (R34). -/
def toFp32 : FVal → Nat
  | .nan => 0x7FC0_0000
  | .inf n => fp32.signBit n + fp32.infCode
  | .fin n m =>
    let r := fp32.round m
    fp32.signBit n + (if fp32.maxFin < r then fp32.infCode else fp32.codeOf r)

def FVal.mul : FVal → FVal → FVal
  | .nan, _ | _, .nan => .nan
  | .inf a, .inf b => .inf (a != b)
  | .inf a, .fin b m | .fin b m, .inf a => if m = 0 then .nan else .inf (a != b)
  | .fin a m, .fin b k => .fin (a != b) (m * k)

def FVal.add : FVal → FVal → FVal
  | .nan, _ | _, .nan => .nan
  | .inf a, .inf b => if a = b then .inf a else .nan
  | .inf a, .fin .. | .fin .., .inf a => .inf a
  | .fin a m, .fin b k =>
    let x : Rat := (if a then -m else m) + (if b then -k else k)
    if x = 0 then .fin (a && b) 0 else .fin (x < 0) (absRat x)

/-- Products are formed in binary32 and added one at a time, with one rounding after each addition (R34). DESIGN CHOICE
(log 90): a product that binary32 cannot hold exactly is rounded to binary32 before the addition. -/
def fpStep (acc : Nat) (p : FVal) : Nat :=
  toFp32 (FVal.add (fp32.decode acc) (fp32.decode (toFp32 p)))

/-! ## Integer accumulation and shifts (R33, R36) -/

def accMin : Int := -(2 ^ 47)
def accMax : Int := 2 ^ 47 - 1

def accVal (a : W48) : Int := sgn 48 a.toNat

def accOf (i : Int) : W48 := BitVec.ofNat 48 (uns 48 i)

/-- A saturating sum, and whether it saturated. -/
def accAdd (a x : Int) : Int × Bool :=
  let v := a + x
  (clampInt accMin accMax v, v < accMin || accMax < v)

/-- `rhe_shift` with its cases for s = 0 and for a left shift (R36): value and whether the left shift clamped. -/
def rheShift (a : Int) (s : Int) : Int × Bool :=
  if s = 0 then (a, false)
  else if 0 < s then
    let n := s.toNat
    let q := a / (2 ^ n : Int)
    let r := a - q * 2 ^ n
    let half : Int := 2 ^ (n - 1)
    (if half < r ∨ (r = half ∧ q % 2 = 1) then q + 1 else q, false)
  else
    let v := a * 2 ^ (-s).toNat
    (clampInt accMin accMax v, v < accMin || accMax < v)

/-! ## Drain (R35, R38) -/

def clampFlag (lo hi v : Int) : Int × Bool := (clampInt lo hi v, v < lo || hi < v)

def int16Min : Int := -32768
def int16Max : Int := 32767
def int32Min : Int := -2147483648
def int32Max : Int := 2147483647

/-- Floating drain to a narrower format: code, and whether the element is counted. -/
def drainFloat (f : FFmt) (clamps : Bool) (nan : Nat) (v : FVal) : Nat × Bool :=
  match v with
  | .nan => (nan, true)
  | .inf n => (f.signBit n + (if clamps then f.codeOf f.maxFin else f.infCode), true)
  | .fin n m =>
    let r := f.round m
    if f.maxFin < r then (f.signBit n + (if clamps then f.codeOf f.maxFin else f.infCode), true)
    else (f.signBit n + f.codeOf r, false)

/-- One element: its bytes and whether the range counter counts it. -/
def drainOne (fmt : DrainFmt) (a : W48) : List Byte × Bool :=
  let v := accVal a
  match fmt with
  | .int32 =>
    let x := clampFlag int32Min int32Max v
    (leBytes 4 (uns 32 x.1), x.2)
  | .requant wide m s =>
    let c := clampFlag int32Min int32Max v
    let q := rheShift (c.1 * m) s
    let x := if wide then clampFlag int16Min int16Max q.1 else clampFlag (-128) 127 q.1
    (leBytes (if wide then 2 else 1) (uns 16 x.1), c.2 || x.2)
  | .bfx16 s =>
    let q := rheShift v s
    let x := clampFlag int16Min int16Max q.1
    (leBytes 2 (uns 16 x.1), q.2 || x.2)
  | .fromInt16 wide s =>
    let q := rheShift v s
    let x := if wide then clampFlag int32Min int32Max q.1 else clampFlag int16Min int16Max q.1
    (leBytes (if wide then 4 else 2) (uns 32 x.1), q.2 || x.2)
  | .fp32 =>
    let c := a.toNat % 2 ^ 32
    (leBytes 4 c, match fp32.decode c with | .fin .. => false | _ => true)
  | .bf16 =>
    let x := drainFloat fmtBf16 false 0x7FC0 (fp32.decode (a.toNat % 2 ^ 32))
    (leBytes 2 x.1, x.2)
  | .e4m3 =>
    let x := drainFloat fmtE4m3 true 0x7F (fp32.decode (a.toNat % 2 ^ 32))
    (leBytes 1 x.1, x.2)
  | .e5m2 =>
    let x := drainFloat fmtE5m2 true 0x7E (fp32.decode (a.toNat % 2 ^ 32))
    (leBytes 1 x.1, x.2)

/-! ## Elements of tensors (R25, R31, R32, R249) -/

def elemBits : ElemType → Nat
  | .int4 => 4
  | .int8 | .e4m3 | .e5m2 => 8
  | .int16 | .bf16 => 16
  | .int32 | .fp32 => 32

/-- The floating format of an element type, with whether its overflow clamps and its NaN. -/
def elemFloat : ElemType → Option (FFmt × Bool × Nat)
  | .e4m3 => some (fmtE4m3, true, 0x7F)
  | .e5m2 => some (fmtE5m2, true, 0x7E)
  | .bf16 => some (fmtBf16, false, 0x7FC0)
  | .fp32 => some (fp32, false, 0x7FC0_0000)
  | .int4 | .int8 | .int16 | .int32 => none

def ofRat (q : Rat) : FVal := .fin (q < 0) (absRat q)

def elemVal (t : ElemType) (code : Nat) : FVal :=
  match elemFloat t with
  | some f => f.1.decode code
  | none => ofRat (sgn (elemBits t) code)

/-- The code of a result brought to an element type as a drain brings it (R35), and whether it is counted. -/
def elemCode (t : ElemType) (v : FVal) : Nat × Bool :=
  match elemFloat t, v with
  | some f, v => drainFloat f.1 f.2.1 f.2.2 v
  | none, .fin n m =>
    let half : Int := 2 ^ (elemBits t - 1)
    let x := clampFlag (-half) (half - 1) (rhe (if n then -m else m))
    (uns (elemBits t) x.1, x.2)
  | none, _ => (0, true)

def FVal.neg : FVal → FVal
  | .nan => .nan
  | .inf n => .inf !n
  | .fin n m => .fin (!n) m

/-- Whether one value is greater than another; a NaN is not. -/
def FVal.greater (a b : FVal) : Bool :=
  match FVal.add a b.neg with
  | .nan => false
  | .inf n => !n
  | .fin n m => !n && m != 0

/-- The greater of two; a NaN operand gives a NaN (R34). -/
def FVal.max (a b : FVal) : FVal :=
  match a, b with
  | .nan, _ | _, .nan => .nan
  | .inf m, .inf n => if m && n then .inf true else .inf false
  | a, b => if FVal.greater b a then b else a

/-! ## MAC operands (R21, R25, R33, R34) -/

/-- Element `i` of `w` bits in a byte string; int4 elements share a byte, the lower index in bits [3:0] (R31). -/
def element (w : Nat) (bs : List Byte) (i : Nat) : Nat :=
  if w = 4 then (nth bs (i / 2) 0).toNat / 16 ^ (i % 2) % 16 else field bs (i * (w / 8)) (w / 8)

/-- Widths of the two operands and the products per accumulator. -/
def macShape : MacType → Nat × Nat × Nat
  | .int8 => (8, 8, 4)
  | .int4int8 => (4, 8, 8)
  | .fp8e4m3 => (8, 8, 4)
  | .fp8e5m2 => (8, 8, 4)
  | .int16 => (16, 16, 2)
  | .bf16 => (16, 16, 1)

def macFloat : MacType → Option FFmt
  | .fp8e4m3 => some fmtE4m3
  | .fp8e5m2 => some fmtE5m2
  | .bf16 => some fmtBf16
  | .int8 | .int4int8 | .int16 => none

/-- The new accumulator `k` and whether it saturated: lanes k·n to k·n + n − 1, in ascending order (DEDUCED, log 15). A floating sum
stands in bits [31:0]; DESIGN CHOICE (log 146): bits [47:32] are 0 after it. -/
def macAcc (t : MacType) (a b : List Byte) (k : Nat) (acc : W48) : W48 × Bool :=
  let sh := macShape t
  let lanes := (List.range sh.2.2).map fun i => k * sh.2.2 + i
  match macFloat t with
  | some f =>
    let prods := lanes.map fun i => FVal.mul (f.decode (element sh.1 a i)) (f.decode (element sh.2.1 b i))
    (BitVec.ofNat 48 (prods.foldl fpStep (acc.toNat % 2 ^ 32)), false)
  | none =>
    let prods := lanes.map fun i => sgn sh.1 (element sh.1 a i) * sgn sh.2.1 (element sh.2.1 b i)
    let r := accAdd (accVal acc) (sumInt prods)
    (accOf r.1, r.2)

end Sys2Proof.Machine
end

