-- ==== Sys2Proof/Machine/Spouts.lean ====
section
/-! DEFINITION. Spout channels, the authenticating gate and the lock bank (chapter 16): sends, receives,
acknowledgements, party resets, lock reads and writes. -/

namespace Sys2Proof.Machine

open Sys2Proof

/-! ## Channels -/

def chanGet (s : State) : Chan → SChan
  | .n i => s.spout.n.get i
  | .s i => s.spout.sec.get i

def chanSet (s : State) (ch : Chan) (c : SChan) : State :=
  match ch with
  | .n i => { s with spout := { s.spout with n := s.spout.n.set i c } }
  | .s i => { s with spout := { s.spout with sec := s.spout.sec.set i c } }

/-- An internal interrupt to sconce (R358). -/
def coreSignal (s : State) : State := { s with spout := { s.spout with signals := s.spout.signals + 1 } }

/-- An internal interrupt to glow. -/
def glowSignal (s : State) : State := { s with spout := { s.spout with glowSignals := s.spout.glowSignals + 1 } }

/-- The receiver and the sender of S2 to S15: sconce, or a linked partner, whom no core of this device stands for (R353). -/
def sconceReceives (i : Fin 16) : Bool := i.val == 0 || (i.val != 1 && i.val % 2 == 1)

def sconceSends (i : Fin 16) : Bool := i.val == 1 || (i.val != 0 && i.val % 2 == 0)

/-- The MSI-X vector of the host driver's pair, if the enable bit of `SPOUT_HOST_CFG` is set. -/
def driverIrq (s : State) (enableBit : Nat) : State :=
  if s.spout.cfg.getLsbD enableBit then raiseIrq s (bits s.spout.cfg.toNat 5 0) else s

def agentIrq (s : State) (enableBit : Nat) : State :=
  if s.spout.cfg.getLsbD enableBit then raiseIrq s (bits s.spout.cfg.toNat 13 8) else s

/-- FULL became 1: the receiver is signalled (R353, R358). -/
def signalSet (s : State) : Chan → State
  | .n 1 => driverIrq s 6
  | .n 2 => coreSignal s
  | .n _ => glowSignal s
  | .s 1 => agentIrq s 14
  | .s i => if sconceReceives i then coreSignal s else s

/-- FULL became 0: the sender is signalled. -/
def signalClear (s : State) : Chan → State
  | .n 0 => driverIrq s 7
  | .n 3 => coreSignal s
  | .n _ => glowSignal s
  | .s 0 => agentIrq s 15
  | .s i => if sconceSends i then coreSignal s else s

/-- `SPOUT_RX_ACK` was written: the sender is signalled. -/
def signalAck (s : State) : Chan → State := signalClear s

/-- Receiver reset (R360). The party keeps its memory of what it acknowledged, so that a message re-sent after its reset
takes effect once (R364). -/
def recvReset (c : SChan) : SChan :=
  { c with buf := Vector.replicate 64 0, full := false, ackSeq := 0xFFFF, ackCode := 0xFFFF
           dropped := c.dropped || c.full }

/-- Sender reset (R361). The sender forgets what it had sent. -/
def sendReset (c : SChan) : SChan :=
  { c with epoch := c.epoch + 1, buf := if c.full then c.buf else Vector.replicate 64 0
           dropped := false, blocked := false, nextSeq := 0, unacked := none }

def chanRecvReset (s : State) (ch : Chan) : State :=
  let c := chanGet s ch
  let s1 := chanSet s ch (recvReset c)
  if c.full then signalClear s1 ch else s1

def chanSendReset (s : State) (ch : Chan) : State := chanSet s ch (sendReset (chanGet s ch))

/-! ## Locks (R368 to R371) -/

def lockMask (s : State) (held : Fin 11 → Bool) : Nat :=
  pack ((List.finRange 64).map fun n => (n.val, b2n ((s.spout.locks.get n).any held)))

def dropLocks (s : State) (held : Fin 11 → Bool) : State :=
  { s with spout := { s.spout with locks := s.spout.locks.map fun o => if o.any held then none else o } }

/-- A party's reset releases every lock it holds, with one event that carries the mask. -/
def releaseLocks (s : State) (req : Fin 11) : State :=
  let m := lockMask s (· == req)
  if m = 0 then s
  else raise (dropLocks s (· == req)) .lockForcedRelease [BitVec.ofNat 32 m, BitVec.ofNat 32 (m / 2 ^ 32)]

/-- R369: a read of a free lock acquires it. Returns the word read. -/
def lockRead (s : State) (req : Fin 11) (n : Fin 64) : State × Nat :=
  match s.spout.locks.get n with
  | none => ({ s with spout := { s.spout with locks := s.spout.locks.set n (some req) } }, 0)
  | some o => (s, 0x8000_0000 + o.val)

/-- R370: the owner releases by writing 0; any other write is ignored and logged. -/
def lockWrite (s : State) (req : Fin 11) (n : Fin 64) (v : W32) : State :=
  if s.spout.locks.get n = some req ∧ v = 0 then
    { s with spout := { s.spout with locks := s.spout.locks.set n none } }
  else raise s .lockWrongOwner []

/-! ## Party resets (R359) -/

def hostDriverReset (s : State) : State := releaseLocks (chanSendReset (chanRecvReset s (.n 1)) (.n 0)) 0

def hostAgentReset (s : State) : State := releaseLocks (chanSendReset (chanRecvReset s (.s 1)) (.s 0)) 1

def glowPartyReset (s : State) : State :=
  releaseLocks (chanSendReset (chanSendReset (chanRecvReset (chanRecvReset s (.n 0)) (.n 3)) (.n 1)) (.n 2)) 3

/-- The channels of linked partner p, 0 to 6 (R353). -/
def partnerTx (p : Fin 7) : Chan := .s (Fin.ofNat 16 (2 + 2 * p.val))

def partnerRx (p : Fin 7) : Chan := .s (Fin.ofNat 16 (3 + 2 * p.val))

def partnerReset (s : State) (p : Fin 7) : State :=
  releaseLocks (chanSendReset (chanRecvReset s (partnerTx p)) (partnerRx p)) (Fin.ofNat 11 (4 + p.val))

/-- Both ends of a channel reset: R360 first, then R361; DROPPED is set if FULL was 1 (R362). -/
def chanBothReset (s : State) (ch : Chan) : State :=
  let full := (chanGet s ch).full
  let s1 := chanSendReset (chanRecvReset s ch) ch
  chanSet s1 ch { chanGet s1 ch with dropped := full }

/-- A channel whose partner changes is reset at both ends (R354, R362). -/
def bothEndsReset (s : State) (p : Fin 7) : State := chanBothReset (chanBothReset s (partnerTx p)) (partnerRx p)

/-! ## Sending and the gate (R356, R357, R366, R367) -/

def spAuthFail : W16 := 4

/-- The gate discards a message: FULL clears and `SP_AUTH_FAIL` carries its SEQ. -/
def gateDiscard (s : State) : State :=
  let c := chanGet s (.s 0)
  let seq := BitVec.ofNat 16 (field c.buf.toList 0 2)
  signalClear (chanSet s (.s 0) { c with full := false, ackSeq := seq, ackCode := spAuthFail }) (.s 0)

/-- TAG of a message on S0 or S1: over its first 56 bytes, the channel number and MSG_EPOCH. -/
def gateTag (s : State) (m : List Byte) (ch epoch : Nat) : List Byte :=
  mac8 (gateKey s) (slice m 0 56 ++ leBytes 1 ch ++ leBytes 1 epoch)

/-- The message in S0's buffer carries its TAG. -/
def tagOk (s : State) : Bool :=
  let c := chanGet s (.s 0)
  slice c.buf.toList 56 8 == gateTag s c.buf.toList 0 c.msgEpoch.toNat

/-- Every S0 message is discarded for 1 s (R367). -/
def lockedOut (s : State) : Bool := s.spout.lockout.any fun t => decide (s.pwr.ticks < t)

/-- The gate checks a posted S0 message before FULL is shown to sconce. -/
def gateCheck (s : State) : State :=
  let service := field (chanGet s (.s 0)).buf.toList 2 1
  if lockedOut s then gateDiscard s
  else if (s.spout.gateKey && tagOk s) || (!s.spout.gateKey && service == 1) then
    signalSet { s with spout := { s.spout with gateFail := 0 } } (.s 0)
  else
    let n := s.spout.gateFail + 1
    let s1 := { s with spout := { s.spout with
      gateFail := if n = 8 then 0 else n
      lockout := if n = 8 then some (s.pwr.ticks + ticksPerSec) else none } }
    raise (gateDiscard s1) .spoutGateFail []

/-- A write of the buffer by the sender. -/
def bufWrite (s : State) (ch : Chan) (bs : List Byte) (off : Nat) : State :=
  let c := chanGet s ch
  if c.full then chanSet s ch { c with blocked := true }
  else
    let new := c.buf.toList.take off ++ bs ++ c.buf.toList.drop (off + bs.length)
    chanSet s ch { c with buf := Vector.ofFn fun i => nth new i.val 0 }

/-- SEND. -/
def sendPost (s : State) (ch : Chan) : State :=
  let c := chanGet s ch
  if c.full then chanSet s ch { c with blocked := true }
  else
    let s1 := chanSet s ch { c with full := true, msgEpoch := c.epoch }
    match ch with
    | .s 0 => gateCheck s1
    | _ => signalSet s1 ch

/-- A receiver's read of one buffer word: the last word clears FULL. -/
def recvWord (s : State) (ch : Chan) (w : Fin 16) : State × Nat :=
  let c := chanGet s ch
  let v := receiverWord c (4 * w.val)
  if c.full && w == 15 then (signalClear (chanSet s ch { c with full := false }) ch, v) else (s, v)

/-- The acknowledgement that a message already has: its MSG_EPOCH and SEQ are those last acknowledged, and its code says that
it was acted on (R364). -/
def ackedAs (c : SChan) (seq : W16) : Option W16 :=
  match c.lastAck with
  | some (e, q, k) => if e == c.msgEpoch && q == seq && k != 1 then some k else none
  | none => none

/-- An acknowledgement ends a sender's message: it shows its SEQ with a code other than `SP_BUSY` (R364). -/
def endsMessage (c : SChan) (seq code : W16) : Bool :=
  code != 1 && c.unacked.any fun m => BitVec.ofNat 16 (field m 0 2) == seq

/-- An acknowledged part on S1 leaves what is still to be sent of a report or of the key exchange's second message (R417, R422). -/
def partDone (s : State) (ch : Chan) : State :=
  let left := s.sec.reportOut.drop 48
  match ch, (chanGet s ch).unacked with
  | .s 1, some m =>
    if field m 2 1 = 4 then { s with sec := { s.sec with reportOut := left, reporting := !left.isEmpty } }
    else if field m 2 1 = 1 then { s with sec := { s.sec with keOut := s.sec.keOut.drop 48 } }
    else s
  | _, _ => s

/-- A receiver writes `SPOUT_RX_ACK` (R355, R364). -/
def ackWrite (s : State) (ch : Chan) (seq code : W16) : State :=
  let c := chanGet s ch
  let done := endsMessage c seq code
  signalAck (chanSet (if done then partDone s ch else s) ch
    { c with ackSeq := seq, ackCode := code, lastAck := some (c.msgEpoch, seq, code)
             unacked := if done then none else c.unacked }) ch

def setBus (s : State) (v : Nat) : State := { s with host := { s.host with busRead := BitVec.ofNat 64 v } }

/-! ## Meanings -/

/-- A channel whose sender is a core of this device (R353). -/
def deviceSends : Chan → Bool
  | .n i => i != 0
  | .s i => sconceSends i

/-- A part of a message that is split on S1 (R363): header, the next of its payload's 48 B, FIRST and LAST. -/
def splitPart (service total : Nat) (left : List Byte) : List Byte :=
  let flags := b2n (left.length == total) + 2 * b2n (left.length ≤ 48)
  leBytes 1 service ++ leBytes 1 flags ++ leBytes 2 (min 48 left.length) ++ [0, 0] ++ slice left 0 48

/-- What follows SEQ in sconce's next message on S1: a part of the key exchange's second message (R422), a part of a report (R417), or
a message of another service. -/
def nextS1Message (s : State) (m : List Byte) : List Byte :=
  if !s.sec.keOut.isEmpty then splitPart 1 160 s.sec.keOut
  else if s.sec.reporting then splitPart 4 0xAE0 s.sec.reportOut
  else slice m 2 62

/-- A message of sconce on S1 with the TAG of R366. -/
def taggedS1 (s : State) (m : List Byte) : List Byte :=
  if s.spout.gateKey then slice m 0 56 ++ gateTag s m 1 (chanGet s (.s 1)).epoch.toNat else slice m 0 64

/-- A sender within the device writes a message to the buffer. -/
def putMessage (s : State) (ch : Chan) (m : List Byte) : State :=
  match ch with
  | .s 1 => bufWrite s ch (taggedS1 s m) 0
  | _ => bufWrite s ch (slice m 0 64) 0

/-- The bits of `SPOUT_TX_STATUS` that a sender writes 1 to: DROPPED and BLOCKED (R355). -/
def statusClear (s : State) (ch : Chan) (w : BitVec 2) : State :=
  let c := chanGet s ch
  chanSet s ch { c with dropped := c.dropped && !w.getLsbD 0, blocked := c.blocked && !w.getLsbD 1 }

/-- What a sender writes to the buffer before SEND. A core of the device keeps a message until it is acknowledged and sends it again with
the same SEQ; its new messages count SEQ up (R363, R364; DESIGN CHOICE, log 144: it has one message under way on a channel). -/
def sendOn (s : State) (ch : Chan) (msg : Option (List Byte)) : State :=
  let c := chanGet s ch
  if !deviceSends ch then msg.elim s fun m => bufWrite s ch (slice m 0 64) 0
  else match c.unacked, msg with
    | some k, _ => putMessage s ch k
    | none, none => s
    | none, some m =>
      if c.full then putMessage s ch m
      else
        let k := leBytes 2 c.nextSeq.toNat ++ (match ch with
          | .s 1 => nextS1Message s m
          | _ => slice m 2 62)
        putMessage (chanSet s ch { c with nextSeq := c.nextSeq + 1, unacked := some k }) ch k

/-- The SERVICE of a message. -/
def serviceOf (m : List Byte) : Nat := field m 2 1

/-- Glow sheds this message of its own (R438): periodic telemetry from state 3 on, reports of unknown nodes and links in state 4. -/
def shedsSend (s : State) (ch : Chan) (msg : Option (List Byte)) : Bool :=
  ch == .n 1 && (s.mgmt.glow == 3 || s.mgmt.glow == 4) && msg.any fun m =>
    Config.glowService (serviceOf m) == 2 || (s.mgmt.glow == 4 && Config.glowService (serviceOf m) == 3)

/-- `SPOUT_SEND` (R355 to R357, R363, R364, R366, R417, R422): `clear` holds the W1C bits that the sender wrote, and `msg` what
it wrote to the buffer, just before. -/
def execSpoutSend (ch : Chan) (clear : BitVec 2) (msg : Option (List Byte)) (s : State) : Out :=
  viaBus (ch == .n 0 || ch == .s 0) s fun s =>
    let s1 := statusClear s ch clear
    if shedsSend s ch msg then s1 else sendPost (sendOn s1 ch msg) ch

/-- `GATE_LOCKOUT_END` (R367): the second has passed. -/
def execGateLockoutEnd (s : State) : Out :=
  live s fun s => if lockedOut s then s else { s with spout := { s.spout with lockout := none } }

/-- The services of S0 (R363, R411, R413, R417, R457). -/
def knownService (m : List Byte) : Bool := let n := field m 2 1; 1 ≤ n && n ≤ 5

/-- LENGTH out of range, or a reserved field set (R363). -/
def badFields (limit : Nat) (m : List Byte) : Bool := limit < field m 4 2 || 4 ≤ field m 3 1 || field m 6 2 != 0

/-- The same on S0 and S1. -/
def badLength (m : List Byte) : Bool := badFields 48 m

/-- The inboxes of sconce: N2, S0 and S3 + 2p (R353). -/
def sconceInbox : Chan → Bool
  | .n i => i == 2
  | .s i => sconceReceives i

/-- Sconce offers the service of a message on an inbox. -/
def offered (ch : Chan) (m : List Byte) : Bool :=
  match ch with
  | .s 0 => knownService m
  | .s i => Config.sconceService i.val (serviceOf m)
  | .n i => Config.sconceService (16 + i.val) (serviceOf m)

/-- Sconce answers a message that it has taken and does not act on (R363, R364): one that it has acknowledged already, or that no service
can act on. On S0 the service's command answers the former. -/
def refuseMessage (s : State) (ch : Chan) (m : List Byte) : State :=
  let seq := BitVec.ofNat 16 (field m 0 2)
  let again := if ch == .s 0 then none else ackedAs (chanGet s ch) seq
  match again with
  | some code => ackWrite s ch seq code
  | none =>
    if !offered ch m then ackWrite s ch seq 2
    else if badFields (if ch == .s 0 then 48 else 56) m then ackWrite s ch seq 3
    else s

/-- `SPOUT_RECEIVE` (R356, R363): with the last word of a message on one of its inboxes sconce has taken it. -/
def execSpoutReceive (ch : Chan) (word : Fin 16) (s : State) : Out :=
  viaBus (ch == .n 1 || ch == .s 1) s fun s =>
    let t := setBus (recvWord s ch word).1 (recvWord s ch word).2
    if sconceInbox ch && (chanGet s ch).full && word == 15 then refuseMessage t ch (chanGet s ch).buf.toList else t

/-- Glow acknowledges a telemetry request `SP_BUSY` while it sheds telemetry (R438). -/
def shedCode (s : State) (ch : Chan) (code : W16) : W16 :=
  if ch == .n 0 && (s.mgmt.glow == 3 || s.mgmt.glow == 4)
    && Config.glowService (serviceOf (chanGet s ch).buf.toList) == 1 then 1 else code

/-- `SPOUT_ACK` (R363, R364): no receiver writes 0xFFFF (log 144). -/
def execSpoutAck (ch : Chan) (seq code : W16) (s : State) : Out :=
  viaBus (ch == .n 1 || ch == .s 1) s fun s => if code == 0xFFFF then s else ackWrite s ch seq (shedCode s ch code)

/-- `DRIVER_RESET` (R359 to R362, R371). -/
def execDriverReset (s : State) : Out := busLive s hostDriverReset

/-- `AGENT_RESET` (R359 to R362, R371). -/
def execAgentReset (s : State) : Out := busLive s hostAgentReset

/-- `PARTNER_RESET_REPORT` (R359). -/
def execPartnerResetReport (p : Fin 7) (s : State) : Out := live s fun s => partnerReset s p

/-- `LOCK_READ` (R369). DESIGN CHOICE (log 142): reads of one cycle stand in the queue by requester number. -/
def execLockRead (req : Fin 11) (lock : Fin 64) (s : State) : Out :=
  viaBus (req ≤ 1) s fun s => setBus (lockRead s req lock).1 (lockRead s req lock).2

/-- `LOCK_WRITE` (R370). -/
def execLockWrite (req : Fin 11) (lock : Fin 64) (value : W32) (s : State) : Out :=
  viaBus (req ≤ 1) s fun s => lockWrite s req lock value

end Sys2Proof.Machine
end

