-- ==== Sys2Proof/Machine/EmberCmds.lean ====
section
/-! DEFINITION. Commands of the ember event log (chapter 21). -/

namespace Sys2Proof.Machine

open Sys2Proof

/-- A flash page whose write failed as a record was written: the failure is logged once that record's write is over (R452, log 160). -/
def flashFault (s : State) : State :=
  if s.ember.pageFail then raise { s with ember := { s.ember with pageFail := false } } .emberFlashFail [] else s

/-- The write in progress is over; the earliest pending slot is written next, unless the log is frozen (R448, R456). -/
def nextWrite (e : Ember) : Ember :=
  let e1 := { e with writing := false }
  match if e.frozen then none else earliest e.pend with
  | none => e1
  | some p => emberWrite { e1 with pend := e.pend.filter fun q => q.cls != p.cls } p

/-- `EMBER_WRITE_COMPLETE` (R448, R452). -/
def execEmberWriteComplete (s : State) : Out :=
  pilotLive s fun s => flashFault { s with ember := nextWrite s.ember }

/-- `EMBER_FLUSH` (R452): a flush begins, or one in progress is extended. -/
def execEmberFlush (s : State) : Out := pilotLive s emberFlushStart

/-- The message whose clear this flush ends: its record has been written (R458). -/
def clearDone (e : Ember) : Option W16 := if e.pend.any fun p => p.cls == .emberCleared then none else e.clearing

/-- The end of a flush: the records up to its latest trigger and the head copy are in flash (R452), and a clear that waited on it is
acknowledged (R458). -/
def flushEnd (s : State) : State :=
  let e := emberToFlash s.ember s.ember.flushTo
  let clearing := if (clearDone s.ember).isSome then none else e.clearing
  let s1 := busyNow { s with ember := { e with headCopy := e.head, flushing := false, clearing } }
  match clearDone s.ember with
  | some seq => ackWrite s1 (.s 0) seq 0
  | none => s1

/-- A flush whose flash write fails leaves flash as it was. -/
def flushFailed (s : State) : State :=
  let s1 := busyNow { s with ember := { s.ember with flushing := false, flashFail := true, clearing := none } }
  raise s1 .emberFlashFail []

/-- `EMBER_FLUSH_COMPLETE` (R452). -/
def execEmberFlushComplete (ok : Bool) (s : State) : Out :=
  pilotLive s fun s => if !s.ember.flushing then s else if ok then flushEnd s else flushFailed s

/-- A freeze begins, unless a ring is served in service (R456). -/
def freezeOn (s : State) : State :=
  if s.safety.state != .service || s.rings.ring.toList.all fun g => g.state != .running then
    if s.ember.frozen then s
    else { s with ember := { s.ember with
      frozen := true, frozenAt := s.pwr.ticks, frozenN := 0, frozenS2 := 0, frozenS3 := 0 } }
  else raise s .emberFreezeRefused []

/-- `EMBER_FREEZE` (R456): a write of 1 to `EMBER_CTRL.FREEZE`. -/
def execEmberFreeze (s : State) : Out := busLive s freezeOn

/-- `EMBER_UNFREEZE` (R456): a write of 0, or 100 ms after the freeze began, which the pilot domain counts. -/
def execEmberUnfreeze (cause : UnfreezeCause) (s : State) : Out :=
  pilotLive s fun s =>
    let due := match cause with
      | .write => pcieUp s
      | .timeout => decide (s.ember.frozenAt + 100 * ticksPerMs ≤ s.pwr.ticks)
    if s.ember.frozen && due then emberThaw s else s

/-- A write of `EMBER_CURSOR` (R454, R459). -/
def cursorWrite (s : State) (v : W32) : State :=
  let area := BitVec.ofNat 2 (bits v.toNat 17 16)
  { s with ember := { s.ember with index := BitVec.ofNat 16 v.toNat, area, winReady := area != 2 } }

/-- `EMBER_CURSOR_WRITE`. -/
def execEmberCursorWrite (value : W32) (s : State) : Out := busLive s fun s => cursorWrite s value

/-- The 64 records of flash from the cursor's position on (R454). -/
def flashWindow (e : Ember) : List (Option EmberRec) :=
  (List.range 64).map fun i => e.flash.find ((e.index.toNat + i) % 65536)

/-- `EMBER_FILL_COMPLETE` (R454): a fill in progress ends, and the window holds what flash held. -/
def execEmberFillComplete (s : State) : Out :=
  live s fun s =>
    if s.ember.winReady then s
    else { s with ember := { s.ember with winReady := true, window := flashWindow s.ember } }

end Sys2Proof.Machine
end

