-- ==== Sys2Proof/Machine/KLinks.lean ====
section
/-! DEFINITION. K-links and device groups (chapter 17): port states, packets, the group map, group exchanges, the shared
world and shared arms. -/

namespace Sys2Proof.Machine

open Sys2Proof

def kGet (s : State) (p : Fin 4) : KPort := s.klink.ports.get p

def kSet (s : State) (p : Fin 4) (k : KPort) : State :=
  { s with klink := { s.klink with ports := s.klink.ports.set p k } }

/-- Something that calls for a new group map happened (R379). -/
def mapDue (s : State) : State := { s with klink := { s.klink with changeAt := some s.pwr.ticks } }

/-- Enters state 1. -/
def kTrain (s : State) (p : Fin 4) (k : KPort) : State :=
  kSet s p { k with state := 1, attempts := 0, partner := none, crcRun := 0, since := s.pwr.ticks }

/-- Loss of an up port (R375): state 1, counted, logged; a link loss under R379. -/
def kRetrain (s : State) (p : Fin 4) : State :=
  let k := kGet s p
  mapDue (raise (raise (kTrain s p { k with retrains := satInc k.retrains }) .klinkRetrain []) .klinkDown [])

/-- Leaves for state 4. -/
def kFail (s : State) (p : Fin 4) : State :=
  kSet s p { kGet s p with state := 4, partner := none, since := s.pwr.ticks }

/-- A write of `KL_CTRL` to one port: enabled from down, or down when disabled (R375). -/
def kEnable (on : Bool) (s : State) (p : Fin 4) : State :=
  let k := kGet s p
  if on then (if k.state == 0 then kTrain s p k else s)
  else if k.state == 0 then s
  else kSet s p { k with state := 0, attempts := 0, partner := none, crcRun := 0, since := s.pwr.ticks }

def klCtrlWrite (s : State) (v : W32) : State :=
  let s1 := { s with klink := { s.klink with enable := BitVec.ofNat 4 v.toNat } }
  (List.finRange 4).foldl (fun s p => kEnable (v.getLsbD p.val) s p) s1

/-! ## The group map -/

/-- Byte strings in ascending order from byte 0 (R377). -/
def bytesLt : List Byte → List Byte → Bool
  | [], _ => false
  | _ :: _, [] => false
  | a :: t, b :: u => a.toNat < b.toNat || (a == b && bytesLt t u)

def ascending : List Digest → Bool
  | a :: b :: t => bytesLt (digestBytes a) (digestBytes b) && ascending (b :: t)
  | _ => true

/-- A map's link table agrees with this device's own ports (R378): it shows on each port the partner that is there, and none on a port
that is not up. -/
def linksAgree (s : State) (m : GroupMap) : Bool :=
  match m.members.findIdx? (· == s.fuses.identity) with
  | none => false
  | some g =>
    (List.finRange 4).all fun p =>
      let k := kGet s p
      (nth (nth m.links g []) p.val none).bind (m.members[·]?) == if k.state == 3 then k.partner else none

/-- R380: the next hop and the port of the shortest path from member `a` to member `t`, equal paths toward the lower
next-hop group number and then the lower port. -/
def routePort (m : GroupMap) (a t : Nat) : Option (Nat × Nat) :=
  match hops m a t with
  | some (n + 1) =>
    ((List.range m.members.length).flatMap fun q => (List.range 4).filterMap fun p =>
      if nth (nth m.links a []) p none == some q && hops m q t == some n then some (q, p) else none).head?
  | _ => none

/-- This device's rows of a map's route table. -/
def routesOf (s : State) (m : GroupMap) : List (Option (Nat × Nat)) :=
  match m.members.findIdx? (· == s.fuses.identity) with
  | some g => (List.range m.members.length).map (routePort m g)
  | none => []

/-! ## Group jobs -/

/-- A job of a group image, with its exchange lag and exchanges (R381). -/
def groupOf (j : Job) : Option GroupCfg := j.img.group

/-- The slot whose data the job is to read next in its current slot: of the exchanges sent `lag` slots before and not yet
read, that of the lowest read cycle (R383). -/
def dueExchange (j : Job) : Option Nat :=
  (groupOf j).bind fun g =>
    (((g.exchanges.filter fun e => e.slot + g.lag == j.slot && !j.exchRead.contains e.slot).insertionSort fun a b =>
      a.readCycle ≤ b.readCycle).head?).map (·.slot)

/-- Data in the store that carries the tag of one of the job's exchanges. -/
def isInput (j : Job) (slot : Nat) (e : ExchTag × BList × Nat) : Bool :=
  e.1.planId == j.img.planId && e.1.tag == j.desc.tag && e.1.slot == slot

/-- What one expected input shows: absent, of another epoch, or good. -/
def inputState (s : State) (j : Job) (slot src : Nat) : Option Bool :=
  ((s.klink.store.find? fun e => isInput j slot e && e.1.source.val == src).map fun e => e.1.epoch == j.epoch)

def otherMembers (s : State) : List Nat := (List.range (mapSize s)).filter (· != mapNum s)

/-- The inputs of an exchange by the source number of a group merge: those that are present, and this member's own result of
that slot (R384). -/
def takenInputs (s : State) (j : Job) (slot : Nat) : List (Nat × BList) :=
  ((s.klink.store.filter (isInput j slot)).map fun e => (32 + e.1.source.val, e.2.1))
    ++ (j.ownSent.filter fun e => e.1 == slot).map fun e => (32 + (j.member.getD 0), e.2)

/-- Reads one exchange of a job (R383). -/
def readExchange (s : State) (j : Job) (slot : Nat) : State :=
  let taken := takenInputs s j slot
  let inputs := (otherMembers s).map fun g => inputState s j slot g
  let s0 := { s with klink := { s.klink with store := s.klink.store.filter fun e => !isInput j slot e } }
  let s1 := modJob s0 j.ref fun j => { j with
    lists := taken.foldl (fun m e => m.put e.1 e.2) j.lists, exchRead := slot :: j.exchRead }
  let failNow := fun (s : State) (c : EventClass) =>
    modJob (raise s c []) j.ref fun j => { j with endAs := j.endAs.orNow c }
  if inputs.any (·.isNone) then failNow s1 .klinkLate
  else if inputs.any (· == some false) then failNow s1 .groupEpochSkew
  else s1

/-- Bytes of the data of an exchange: the rows' keys and payloads. -/
def exchBytes (b : BList) : Nat := 64 + sumNat (b.rows.map fun r => 8 + r.pay.length)

/-- The K-link store of 16 MiB has room for another member's data (R383). DESIGN CHOICE (log 137): data beyond it does not
arrive. -/
def storeFits (s : State) (b : BList) : Bool :=
  sumNat (s.klink.store.map fun e => exchBytes e.2.1) + exchBytes b ≤ 0x0100_0000

/-- Ends every running job that `p` selects at the next slot boundary with an S2 event's status, raising the event once
per job. -/
def failNowWhere (s : State) (cls : EventClass) (p : Job → Bool) : State :=
  { s with jobs := s.jobs.map fun j => if p j then { j with endAs := j.endAs.orNow cls } else j }

/-! ## Meanings -/

/-- `KL_PORT_ENABLE` (R375, R389): a write of `KL_CTRL`. -/
def execKlPortEnable (value : W32) (s : State) : Out := busLive s fun s => klCtrlWrite s value

/-- `KLINK_TRAINED` (R375): block lock and deskew on all lanes. -/
def execKlinkTrained (p : Fin 4) (s : State) : Out :=
  live s fun s =>
    if (kGet s p).state == 1 then kSet s p { kGet s p with state := 2, since := s.pwr.ticks } else s

/-- `KLINK_TRAIN_TIMEOUT` (R375): a retry; after the third failed attempt, state 4. -/
def execKlinkTrainTimeout (p : Fin 4) (s : State) : Out :=
  live s fun s =>
    let k := kGet s p
    if k.state != 1 || s.pwr.ticks < k.since + 10 * ticksPerMs then s
    else if k.attempts + 1 < 3 then kSet s p { k with attempts := k.attempts + 1, since := s.pwr.ticks }
    else kFail s p

/-- A member that was reported unreachable and to which a path exists again is no longer so (R379). -/
def findAgain (s : State) : State :=
  let there := fun (d : Digest) => (s.klink.map.members.findIdx? (· == d)).any (pathTo s s.klink.map)
  { s with klink := { s.klink with lostAt := s.klink.lostAt.filter fun e => !there e.1 } }

/-- `KLINK_CERT_RECEIVED` (R375, R376, R412). DESIGN CHOICE (log 70): sequence numbers start at 0 as the port comes up, and
what is unacknowledged is sent again from there. -/
def execKlinkCertReceived (p : Fin 4) (chainOk : Bool) (key : BitVec 512) (partner : Digest) (s : State) : Out :=
  live s fun s =>
    let k := kGet s p
    if k.state != 2 then s
    else if chainOk && ownerKey s == some key then
      mapDue (findAgain (kSet s p { kGet s p with
        state := 3, partner := some partner, crcRun := 0, rxSeq := 0, txAck := 0xFFF, since := s.pwr.ticks
        txSeq := BitVec.ofNat 12 k.replay.length
        replay := k.replay.mapIdx fun i e => (BitVec.ofNat 12 i, e.2) }))
    else raise (kFail s p) .klinkCertFail []

/-- `KLINK_CERT_TIMEOUT` (R375): no verified certificate within 5 ms. -/
def execKlinkCertTimeout (p : Fin 4) (s : State) : Out :=
  live s fun s =>
    if (kGet s p).state == 2 && (kGet s p).since + 5 * ticksPerMs ≤ s.pwr.ticks then raise (kFail s p) .klinkCertFail [] else s

/-- `KLINK_LOCK_LOSS` (R375). -/
def execKlinkLockLoss (p : Fin 4) (s : State) : Out :=
  live s fun s => if (kGet s p).state == 3 then kRetrain s p else s

/-- A cumulative acknowledgement takes in a sequence number: the number is not after it, in arithmetic modulo 4,096. -/
def seqAcked (ack seq : BitVec 12) : Bool := decide ((ack - seq).toNat < 2048)

/-- `KLINK_PACKET_RECEIVED` (R373 to R375, R387): exactly once and in order; eight CRC failures running retrain. A block
whose sync header is not that of a control block is no header: 00 and 11 are framing errors, whose further effect the
spec does not give (log 70). -/
def execKlinkPacketReceived (p : Fin 4) (packet : KPacket) (s : State) : Out :=
  live s fun s =>
    let k := kGet s p
    if k.state != 3 || packet.sync != 0b10 then s
    else if !packet.crcOk then
      let s1 := kSet s p { k with crcErr := satInc k.crcErr, crcRun := k.crcRun + 1 }
      if 8 ≤ k.crcRun + 1 then kRetrain s1 p else s1
    else
      let s1 := kSet s p { k with
        crcRun := 0, txAck := packet.ack, replay := k.replay.filter fun e => !seqAcked packet.ack e.1 }
      if packet.seq != k.rxSeq then s1
      else
        let s2 := kSet s1 p { kGet s1 p with rxSeq := k.rxSeq + 1, rxBytes := k.rxBytes + packet.len }
        match packet.raw with
        | some (c, f, ns) => if isReceiver s then applyTap s2 c ns f.pixels else s2
        | none => s2

/-- The link table row of a device in a map, as identities. -/
def rowOf (m : GroupMap) (d : Digest) : List (Option Digest) :=
  match m.members.findIdx? (· == d) with
  | some g => (nth m.links g []).map fun o => o.bind (m.members[·]?)
  | none => []

/-- The active count of a device in a map. -/
def activeIn (m : GroupMap) (d : Digest) : Option Nat := (m.members.findIdx? (· == d)).map fun g => nth m.active g 0

/-- The devices that a new map may hold, in ascending identity: those of which the members have told, the members of the installed map,
the partners on this device's own ports, and itself (R377, R379). -/
def candidates (s : State) (map : GroupMap) : List Digest :=
  let own := (List.finRange 4).filterMap fun p => if (kGet s p).state == 3 then (kGet s p).partner else none
  (s.fuses.identity :: map.members ++ s.klink.map.members ++ own).dedup.insertionSort fun a b =>
    !bytesLt (digestBytes b) (digestBytes a)

/-- Their map: of each device's links and active count the newest that this device knows, of its own what is so now. -/
def fullMap (s : State) (map : GroupMap) : GroupMap :=
  let ds := candidates s map
  let known := fun (d : Digest) => if map.members.contains d then map else s.klink.map
  let m : GroupMap :=
    { version := s.klink.seen + 1, members := ds
      links := ds.map fun d => (rowOf (known d) d).map fun o => o.bind fun q => ds.findIdx? (· == q)
      active := ds.map fun d => if d == s.fuses.identity then activeCount s else (activeIn (known d) d).getD 0 }
  ownView s m

/-- A device stays in a map while a path joins it to this one; a member stays until it counts as unreachable (R377, R379, R380). -/
def staysIn (s : State) (m : GroupMap) (g : Nat) : Bool :=
  pathTo s m g || m.members[g]?.any fun d =>
    s.klink.map.members.contains d && !(s.klink.lostAt.any fun e => e.1 == d)

/-- A map without the devices that have left, numbered anew (R377). -/
def pruneMap (s : State) (m : GroupMap) : GroupMap :=
  let keep := (List.range m.members.length).filter (staysIn s m)
  { m with
    members := keep.map fun g => nth m.members g 0
    links := keep.map fun g => (nth m.links g []).map fun o => o.bind fun q => keep.findIdx? (· == q)
    active := keep.map fun g => nth m.active g 0 }

/-- The map that this device issues: the devices reachable through ports that are up (R377), and those not yet counted as left. -/
def issuedMap (s : State) (map : GroupMap) : GroupMap := pruneMap s (fullMap s map)

/-- `GROUP_MAP_ISSUE` (R377 to R379): member 0 issues the next version to every member of it, and will install it; `map` is what the
members have told of their links. -/
def execGroupMapIssue (map : GroupMap) (s : State) : Out :=
  live s fun s =>
    let m := issuedMap s map
    if m.members.head? == some s.fuses.identity && m.members.length ≤ 8 then
      { s with klink := { s.klink.sendOver (routesOf s m) (.map m.version) with
        seen := m.version, pendMap := some m, changeAt := none } }
    else s

/-- `GROUP_MAP_RECEIVED` (R378). -/
def execGroupMapReceived (map : GroupMap) (sigOk : Bool) (s : State) : Out :=
  live s fun s =>
    let seen := if s.klink.seen.toNat < map.version.toNat then map.version else s.klink.seen
    if sigOk && s.klink.map.version.toNat < map.version.toNat && linksAgree s map then
      { s with klink := { s.klink with seen, pendMap := some map } }
    else raise s .groupMapReject []

/-- `DEVICE_UNREACHABLE` (R379): the device is to leave the map. -/
def execDeviceUnreachable (member : Digest) (s : State) : Out :=
  live s fun s =>
    if s.klink.map.members.contains member then
      mapDue { s with klink := { s.klink with
        lostAt := if s.klink.lostAt.any fun e => e.1 == member then s.klink.lostAt
          else s.klink.lostAt ++ [(member, s.pwr.ticks)] } }
    else s

/-- `KLINK_EXCHANGE_RECEIVED` (R383): the data waits in the K-link store. -/
def execKlinkExchangeReceived (tag : ExchTag) (data : BList) (s : State) : Out :=
  live s fun s =>
    if storeFits s data then { s with klink := { s.klink with store := s.klink.store ++ [(tag, data, s.grid.count)] } } else s

/-- `KLINK_EXCHANGE_READ` (R281, R383): at its read cycle a running group job takes the inputs of an exchange. -/
def execKlinkExchangeRead (job : JobRef) (s : State) : Out :=
  live s fun s =>
    match (findJob s job).bind fun j => (dueExchange j).map fun k => (j, k) with
    | some (j, k) => readExchange s j k
    | none => s

/-- `KLINK_EXCH_EXPIRED` (R383): data that no running job read within 64 slot periods of its arrival. -/
def execKlinkExchExpired (tag : ExchTag) (s : State) : Out :=
  live s fun s =>
    let old := fun (e : ExchTag × BList × Nat) => e.1 == tag && e.2.2 + 64 ≤ s.grid.count
    if s.klink.store.any old then
      raise { s with klink := { s.klink with store := s.klink.store.filter fun e => !old e } } .klinkExchExpired []
    else s

/-- `GROUP_ABORT_RECEIVED` (R385): a running copy ends at the next boundary, and one that waits is completed there. -/
def execGroupAbortReceived (planId tag : W32) (s : State) : Out :=
  live s fun s =>
    let mine := fun (j : Job) => j.img.planId == planId && j.desc.tag == tag && (groupOf j).isSome
    let waiting := s.descs.any (isCopy s planId tag)
    let s1 := failNowWhere s .groupPeerAbort mine
    let s2 := if waiting then { s1 with klink := { s1.klink with peerAborts := s1.klink.peerAborts ++ [(planId, tag)] } } else s1
    if waiting || s.jobs.any mine then raise s2 .groupPeerAbort [] else s

/-- One part of a received world set is written to this device's masters. -/
def takeWorldSet (s : State) (set : WorldSet) : State :=
  let p := s.world.places
  let s1 := set.masters.foldl (fun s m => storeAt s (nth p.masters m.1.val 0) m.2) s
  let s2 := set.spec.foldl (fun s m => noteSpec (storeAt s (nth p.spec m.1.val 0) m.2) m.1.val set.epoch) s1
  storeAt s2 p.route set.route

/-- `WORLD_MASTER_RECEIVED` (R386): once the whole set has arrived, the receiver's epoch follows its source's. -/
def execWorldMasterReceived (set : WorldSet) (s : State) : Out :=
  live s fun s =>
    if !sourceOk s then s
    else
      let s1 := takeWorldSet s set
      if set.complete then setEpoch s1 set.epoch set.teNs else s1

/-- `PUBLISHED_TRAJ_RECEIVED` (R388): a partner's newest trajectory comes first; those of that robot that can still govern
stay. -/
def execPublishedTrajReceived (traj : Traj) (s : State) : Out :=
  live s fun s =>
    let mine := s.klink.partners.filter fun t => t.robot == traj.robot
    let rest := s.klink.partners.filter fun t => t.robot != traj.robot
    { s with klink := { s.klink with partners := traj :: liveTrajs mine (asNs s) ++ rest } }

end Sys2Proof.Machine
end

