-- ==== Sys2Proof/Machine/MotionPorts.lean ====
section
/-! DEFINITION. Motion ports (R396 to R406): 802.1AS time, setpoint frames, joint states, hellos, node presence. -/

namespace Sys2Proof.Machine

open Sys2Proof

/-! ## Nodes -/

def nodeTable (s : State) : List NodeCfg := (s.sluice.recipe.map (·.nodes)).getD []

/-- Node table entry and index of a node ID. -/
def nodeIdx (s : State) (id : W16) : Option (Fin 32 × NodeCfg) :=
  (List.finRange 32).findSome? fun i =>
    match (nodeTable s)[i.val]? with
    | some c => if c.nodeId == id then some (i, c) else none
    | none => none

def nodeGet (s : State) (i : Fin 32) : NodeState := s.motion.nodes.get i

def nodeSet (s : State) (i : Fin 32) (n : NodeState) : State :=
  { s with motion := { s.motion with nodes := s.motion.nodes.set i n } }

/-- The controlled drive nodes of a robot model (R405). -/
def drivesOf (s : State) (robot : Nat) : List (Fin 32 × NodeCfg) :=
  (List.finRange 32).filterMap fun i =>
    match (nodeTable s)[i.val]? with
    | some c => if c.kind == .drive && c.controlled && c.robot == robot then some (i, c) else none
    | none => none

/-- Whether a job needs a robot's drives: not for a restored job, nor for an image with ROBOT = 0xFF (R405). -/
def needsDrives (j : Job) : Bool := j.img.robot != 0xFF && !j.restored

/-- A node's state after a new recipe (R399, R405): counters and frames follow the node and its drive key, and it stays present while its
entry still says what its hello said. -/
def nodeKept (s : State) (new : List NodeCfg) (i : Fin 32) : NodeState :=
  match new[i.val]? with
  | none => .reset
  | some c =>
    match nodeIdx s c.nodeId with
    | some (k, o) =>
      if o.wrapped != c.wrapped then .reset
      else
        let same := o.kind == c.kind && o.axes == c.axes && (c.kind == .encoder || (o.robot == c.robot && o.firstAxis == c.firstAxis))
        { nodeGet s k with present := (nodeGet s k).present && same }
    | none => .reset

/-- A frame with a bad TAG or a stale COUNTER: counted, and logged at most once per 10 ms (R399). -/
def tagFail (s : State) : State :=
  let m := s.motion
  let s1 := { s with motion := { m with tagFail := satInc m.tagFail } }
  if m.tagLog.any fun t => s.pwr.ticks < t + 10 * ticksPerMs then s1
  else raise { s1 with motion := { s1.motion with tagLog := some s.pwr.ticks } } .motionTagFail []

/-- COUNTER is later than the last accepted one; the first frame under a key may carry any. -/
def counterOk (n : NodeState) (c : W32) : Bool :=
  match n.rx with
  | none => true
  | some r => serialLt r c

/-! ## Frames as bytes (R399, R400, R403, R404) -/

def subSetpoint : Nat := 1
def subJoint : Nat := 2
def subHello : Nat := 3

/-- The common header. -/
def frameHead (sub : Nat) (node : W16) (counter : W32) (timeNs : Nat) : List Byte :=
  leBytes 1 sub ++ leBytes 1 1 ++ leBytes 2 node.toNat ++ leBytes 4 counter.toNat ++ leBytes 8 timeNs

def i32Bytes (v : Int) : List Byte := leBytes 4 (uns 32 v)

/-- A frame with its TAG (R399): 8 B under the drive key of the node to which it is sent, over the destination address and the frame. -/
def withTag (s : State) (c : NodeCfg) (bs : List Byte) : List Byte :=
  let mac := leBytes 6 (Config.nodeMac ((s.sluice.recipe.map (·.bodyDigest)).getD 0) c.nodeId).toNat
  bs ++ mac8 (driveKey s c) (mac ++ bs)

/-- A setpoint frame up to its TAG: a sample's axes stand side by side. -/
def setpointBytes (f : Setpoint) : List Byte :=
  frameHead subSetpoint f.nodeId f.counter f.timeNs ++ leBytes 4 f.trajId.toNat
    ++ leBytes 1 (b2n f.still + 2 * b2n f.stopReq) ++ leBytes 1 f.rest.length ++ [0, 0] ++ leBytes 8 f.startNs
    ++ leBytes 4 f.tUs ++ leBytes 4 f.tailUs ++ leBytes 8 f.winNs ++ f.ctrl.flatMap (·.flatMap i32Bytes)
    ++ f.rest.flatMap i32Bytes ++ f.window.flatMap (·.flatMap fun x => i32Bytes x.1 ++ i32Bytes x.2)

/-- The device's own hello up to its TAG. -/
def helloBytes (own : W16) (counter : W32) (timeNs : Nat) (keyId : W64) : List Byte :=
  frameHead subHello own counter timeNs ++ [0, 0, 0xFF, 0] ++ leBytes 8 keyId.toNat ++ [0, 0, 0, 0]

/-- A received frame of a subtype and version 1 that is as long as its layout; any other is discarded (DEDUCED, log 105). -/
def frameIs (sub size : Nat) (bs : List Byte) : Bool := field bs 0 1 == sub && field bs 1 1 == 1 && bs.length == size

/-- A joint-state frame. -/
def decodeJoint (bs : List Byte) : Option JointFrame :=
  let n := field bs 0x10 1
  let i32 := fun off => sgn 32 (field bs off 4)
  if frameIs subJoint (0x20 + 12 * n + 8) bs && 1 ≤ n && n ≤ 12 then
    some { nodeId := BitVec.ofNat 16 (field bs 2 2), counter := BitVec.ofNat 32 (field bs 4 4)
           status := BitVec.ofNat 8 (field bs 0x11 1), heldId := BitVec.ofNat 32 (field bs 0x14 4), timeNs := field bs 0x18 8
           axes := (List.range n).map fun a => (i32 (0x20 + 12 * a), i32 (0x24 + 12 * a), i32 (0x28 + 12 * a)) }
  else none

/-- A hello. -/
def decodeHello (bs : List Byte) : Option HelloFrame :=
  let b := fun off => BitVec.ofNat 8 (field bs off 1)
  if frameIs subHello 0x28 bs then
    some { nodeId := BitVec.ofNat 16 (field bs 2 2), counter := BitVec.ofNat 32 (field bs 4 4), kind := b 0x10, axes := b 0x11
           robot := b 0x12, firstAxis := b 0x13, keyId := BitVec.ofNat 64 (field bs 0x14 8) }
  else none

/-! ## Setpoint frames (R400, R401) -/

/-- Start of the Qbv cycle in progress (R398). -/
def qbvStart (s : State) : Nat :=
  let off := 1000 * s.motion.offset
  if asNs s < off then 0 else (asNs s - off) / 250000 * 250000 + off

def q16 (v : Rat) : Int := rhe (v * 65536)

/-- Position, velocity and acceleration of one axis at an instant. Before the first START the robot rests at the start
point of its first trajectory (DEDUCED, log 28). -/
def streamAxis (ts : List Traj) (axis ns : Nat) : Rat × Rat × Rat :=
  match governs ts ns, ts.getLast? with
  | some t, _ => axisAt t axis ns
  | none, some t => (nth (nth t.ctrl axis []) 0 0, 0, 0)
  | none, none => (0, 0, 0)

/-- Position and velocity of one axis at an instant, in frame units. -/
def axisSample (ts : List Traj) (axis ns : Nat) : Int × Int :=
  let x := streamAxis ts axis ns
  (q16 x.1, q16 x.2.1)

def setpoint (s : State) (c : NodeCfg) (counter : W32) (newest : Traj) (ts : List Traj) : Setpoint :=
  let win := qbvStart s + 250000
  let still : Bool := trajEnd newest ≤ win
  let axes := (List.range c.axes).map (· + c.firstAxis)
  let rest := axes.map fun a => q16 (nth newest.rest a 0)
  { nodeId := c.nodeId, counter, timeNs := asNs s, trajId := newest.id, still, stopReq := s.pwr.stop
    startNs := newest.startNs
    tUs := if still then 0 else newest.tUs
    tailUs := if still then 0 else (rhe newest.tail).toNat
    winNs := win
    ctrl := axes.map fun a =>
      if still then List.replicate 12 (q16 (nth newest.rest a 0)) else (nth newest.ctrl a []).map q16
    rest
    window := (List.range 8).map fun k =>
      axes.map fun a =>
        if still then (q16 (nth newest.rest a 0), 0) else axisSample ts a (win + 250000 * k) }

/-- The trajectories of a robot that a frame of the cycle in progress carries: one handed off less than 50 µs before its window waits for
the next cycle (R402). -/
def carried (s : State) (robot : Nat) : List Traj :=
  let ts := (s.motion.trajs.find robot).getD []
  if (s.motion.handedAt.find robot).any fun h => qbvStart s < h + 50000 then ts.drop 1 else ts

/-- The frames of one cycle on a port, in ascending node ID; each advances its node's counter. -/
def sendSetpoints (s : State) (port : Fin 2) : State :=
  let mine := ((List.finRange 32).filterMap fun i =>
    match (nodeTable s)[i.val]? with
    | some c => if c.kind == .drive && c.controlled && c.port == port then some (i, c) else none
    | none => none)
  let inOrder := mine.insertionSort fun a b => a.2.nodeId.toNat ≤ b.2.nodeId.toNat
  inOrder.foldl (fun s ic =>
    match carried s ic.2.robot with
    | [] => s
    | newest :: older =>
      let n := nodeGet s ic.1
      let f := setpoint s ic.2 n.tx newest (newest :: older)
      let s1 := nodeSet s ic.1 { n with tx := n.tx + 1 }
      { s1 with motion := { s1.motion with
        sent := s1.motion.sent ++ [f], wire := s1.motion.wire ++ [withTag s ic.2 (setpointBytes f)] } })
    { s with motion := { s.motion with sent := [], wire := [] } }

/-! ## Meanings -/

/-- The best master clock algorithm's choice (R397): the lower priority1 wins; `announced` is the best other clock's, and whether this
device's remaining properties are the better ones. -/
def bestClock (s : State) (announced : Option (Byte × Bool)) : Bool :=
  match announced with
  | none => true
  | some (p, better) => s.motion.priority1.toNat < p.toNat || (s.motion.priority1 == p && better)

/-- Synchronisation is there again: a loss that was logged has ended, and so has the wait after a pilot wake (R470). -/
def syncBack (s : State) : State :=
  let s1 := { s with motion := { s.motion with syncLost := false, awaitSync := false } }
  if s.motion.syncLost then raise s1 .timeSyncRestored [] else s1

/-- `PTP_FRAME_RECEIVED` (R397): a valid Sync sets a follower's time base and ends a loss; a device that is chosen as grandmaster is its
own time base (DEDUCED, log 161). -/
def execPtpFrameReceived (sync valid : Bool) (timeNs : Nat) (announced : Option (Byte × Bool)) (s : State) : Out :=
  live s fun s =>
    if !valid then s
    else
      let gm := s.motion.gmRole && bestClock s announced
      let s1 := { s with motion := { s.motion with gm } }
      if gm then syncBack s1
      else if !sync then s1
      else syncBack { s1 with
        grid := { s1.grid with asTime := 4 * timeNs }
        motion := { s1.motion with sync := true, syncAt := s.pwr.ticks } }

/-- `TIME_SYNC_LOST` (R397): every running job that publishes ends at the next slot boundary. -/
def execTimeSyncLost (s : State) : Out :=
  live s fun s =>
    if s.motion.gm || s.motion.syncLost then s
    else
      let s1 := { s with
        motion := { s.motion with sync := false, syncLost := true }
        jobs := s.jobs.map fun j =>
          if j.img.publishes then { j with endAs := j.endAs.orNow .timeSyncLost } else j }
      raise s1 .timeSyncLost []

/-- `QBV_CYCLE` (R398 to R401): the setpoint window of a port opens. -/
def execQbvCycle (port : Fin 2) (s : State) : Out := live s fun s => sendSetpoints s port

/-- `HELLO_TRANSMIT` (R404): one hello to each node of the table, tagged with its key. -/
def execHelloTransmit (s : State) : Out :=
  live s fun s =>
    let idx := (List.finRange 32).filter fun i => i.val < (nodeTable s).length
    let cfg := fun (i : Fin 32) => nth (nodeTable s) i.val default
    let hellos := idx.map fun i => ((cfg i).nodeId, (nodeGet s i).tx)
    let s1 := idx.foldl (fun s i => nodeSet s i { nodeGet s i with tx := (nodeGet s i).tx + 1 }) s
    let own := (s.sluice.recipe.map (·.deviceNode)).getD 0
    let wire := idx.map fun i => withTag s (cfg i) (helloBytes own (nodeGet s i).tx (asNs s) s.motion.keyId)
    { s1 with motion := { s1.motion with hellos, wire } }

/-- Whether a hello agrees with its node table entry and the device's KEY_ID (R405, R427). -/
def helloAgrees (s : State) (c : NodeCfg) (f : HelloFrame) : Bool :=
  let kind : Byte := match c.kind with | .drive => 1 | .encoder => 2
  f.kind == kind && f.axes.toNat == c.axes && f.keyId == s.motion.keyId
    && (c.kind == .encoder || (f.robot.toNat == c.robot && f.firstAxis.toNat == c.firstAxis))

/-- A hello whose TAG and COUNTER hold. -/
def takeHello (s : State) (f : HelloFrame) (i : Fin 32) (c : NodeCfg) : State :=
  let n := nodeGet s i
  if !helloAgrees s c f then raise s .driveMismatch []
  else
    let s1 := nodeSet s i { n with rx := some f.counter, hello := s.pwr.ticks, present := true }
    if n.present then s1 else raise s1 .driveFound []

/-- A received frame of a node: its TAG and COUNTER are checked before `f` takes it (R399). -/
def takeFrame (s : State) (node : W16) (counter : W32) (tagOk : Bool) (f : Fin 32 → NodeCfg → State) : State :=
  match nodeIdx s node with
  | none => tagFail s
  | some (i, c) => if !tagOk || !counterOk (nodeGet s i) counter then tagFail s else f i c

/-- `HELLO_RECEIVED` (R399, R404, R405, R427). -/
def execHelloReceived (frame : List Byte) (tagOk : Bool) (s : State) : Out :=
  live s fun s =>
    match decodeHello frame with
    | none => s
    | some f => takeFrame s f.nodeId f.counter tagOk (takeHello s f)

/-- `JOINT_STATE_RECEIVED` (R399, R403). -/
def execJointStateReceived (frame : List Byte) (tagOk : Bool) (s : State) : Out :=
  live s fun s =>
    match decodeJoint frame with
    | none => s
    | some f => takeFrame s f.nodeId f.counter tagOk fun i _ =>
        nodeSet s i { nodeGet s i with rx := some f.counter, hist := f :: (nodeGet s i).hist }

/-- `DRIVE_LOST` (R405): no valid hello for 30 ms; running jobs that need the node end at the next boundary. -/
def execDriveLost (i : Fin 32) (s : State) : Out :=
  live s fun s =>
    let n := nodeGet s i
    if !n.present || s.pwr.ticks < n.hello + 30 * ticksPerMs then s
    else
      let c := (nodeTable s)[i.val]?
      let wants := fun (j : Job) => needsDrives j &&
        (match c with
         | some c => c.kind == .drive && c.controlled && c.robot == j.img.robot.toNat
         | none => false)
      let s1 := nodeSet s i { n with present := false }
      let ends := fun (j : Job) => if wants j then { j with endAs := j.endAs.orNow .driveLost } else j
      raise { s1 with jobs := s1.jobs.map ends } .driveLost []

/-- `MOTION_PORT_LINK_CHANGE` (R406). -/
def execMotionPortLinkChange (port : Fin 2) (up : Bool) (s : State) : Out :=
  live s fun s =>
    let m := BitVec.ofNat 2 (2 ^ port.val)
    { s with motion := { s.motion with link := if up then s.motion.link ||| m else s.motion.link &&& ~~~m } }

end Sys2Proof.Machine
end

