-- ==== Sys2Proof/Machine/Security.lean ====
section
/-! DEFINITION. Security services (chapter 19) and the clearing of the ember log (R457, R458): key exchange, owner
enrolment and lock, attestation, debug attachment. -/

namespace Sys2Proof.Machine

open Sys2Proof

def spOk : W16 := 0
def spBusy : W16 := 1
def spRefused : W16 := 6

/-- Mi := SM3(Mi ‖ d) (R415). -/
def extend (s : State) (i : Fin 8) (d : Digest) : State :=
  { s with sec := { s.sec with
    meas := s.sec.meas.set i (Config.sm3 (digestBytes (s.sec.meas.get i) ++ digestBytes d)) } }

/-- An event code in M7: 1 enrolment, 2 lock, 3 debug attached, 4 session installed. -/
def extendEvent (s : State) (code : Nat) : State := extend s 7 (Config.sm3 (leBytes 1 code))

/-- SEQ of the message in S0's buffer. -/
def svcSeq (s : State) : W16 := BitVec.ofNat 16 (field (chanGet s (.s 0)).buf.toList 0 2)

/-- Sconce acknowledges the message in S0's buffer. -/
def svcAck (s : State) (code : W16) : State := ackWrite s (.s 0) (svcSeq s) code

/-- Sconce takes a service message of S0: one that it has acknowledged already is not acted on again (R364), and one whose
LENGTH or reserved fields are bad is not acted on (R363). -/
def svcTake (s : State) (f : State → State) : State :=
  match ackedAs (chanGet s (.s 0)) (svcSeq s) with
  | some code => svcAck s code
  | none => if badLength (chanGet s (.s 0)).buf.toList then svcAck s 3 else f s

def sessionBound (s : State) (id : Nat) : Bool := s.rings.ring.toList.any fun g => g.session == some id

/-- An installed session retires the earlier one; one that rings still bind may not go (R423). -/
def installRefused (s : State) : Bool :=
  sessionBound s s.sec.sessId && s.sec.earlier.any fun e => sessionBound s e.1

def installSession (s : State) (secret : Digest) : State :=
  let c := s.sec
  let earlier := if sessionBound s c.sessId then some (c.sessId, c.secret) else c.earlier
  extendEvent { s with
    sec := { c with session := if (ownerKey s).isSome then .owned else .unowned, sessId := c.sessId + 1, secret
                    earlier, ke := 0, kePeer := [], keOut := [] }
    spout := { s.spout with gateKey := true } } 4

/-- The exchange in progress is given up. -/
def dropExchange (s : State) : State := { s with sec := { s.sec with ke := 0, keCert := false, kePeer := [], keOut := [] } }

/-- An owner is enrolled and the agent's certificate did not pass its check (R422). -/
def certRefused (s : State) (certOk : Bool) : Bool := (ownerKey s).isSome && !certOk

/-- The second message of the exchange (R422): the identity public key, a fresh ephemeral public key and the confirmation hash, 160 B that
leave on S1 in parts of 48 B. -/
def secondMessage (s : State) : List Byte :=
  let eph := Config.sm2Scalar (digestBytes (Config.random s.free))
  leBytes 64 (Config.sm2Public identityKey).toNat ++ leBytes 64 (Config.sm2Public eph).toNat
    ++ digestBytes (Config.sm2Confirm identityKey eph s.sec.kePeer)

/-! ## Meanings -/

/-- `KEY_EXCHANGE` (R421 to R423). -/
def execKeyExchange (msg : KeMsg) (s : State) : Out :=
  live s fun s =>
    match msg with
    | .first certOk payload => svcTake s fun s =>
      if certRefused s certOk then svcAck (dropExchange s) spAuthFail
      else svcAck { s with sec := { s.sec with ke := 1, keCert := certOk, kePeer := payload, keOut := [] } } spOk
    | .second =>
      if s.sec.ke = 1 then { s with sec := { s.sec with ke := 2, keOut := secondMessage s }, free := s.free + 1 } else s
    | .third confirmOk secret => svcTake s fun s =>
      if s.sec.ke ≠ 2 then svcAck s spRefused
      else if !confirmOk || certRefused s s.sec.keCert then svcAck (dropExchange s) spAuthFail
      else if installRefused s then svcAck (dropExchange s) spRefused
      else svcAck (installSession s secret) spOk

/-- `OWNER_ENROL` (R410, R411): the slot is programmed, then read back; a slot is enrolled by its commit bit alone. -/
def execOwnerEnrol (publicKey : BitVec 512) (sigOk readBackOk : Bool) (s : State) : Out :=
  live s fun s => svcTake s fun s =>
    if (ownerKey s).isSome || enrolDamaged s || !sigOk then svcAck s spRefused
    else
      let slot : OwnerSlot := ⟨publicKey, true, readBackOk⟩
      let s1 :=
        if s.fuses.owner0.anyBit then { s with fuses := { s.fuses with owner1 := slot } }
        else { s with fuses := { s.fuses with owner0 := slot } }
      if readBackOk then svcAck (extendEvent s1 1) spOk else svcAck s1 spRefused

/-- `OWNER_LOCK` (R413): the lock takes effect at the next power-on or device reset. -/
def execOwnerLock (sigOk : Bool) (s : State) : Out :=
  live s fun s => svcTake s fun s =>
    if (ownerKey s).isSome && sigOk then
      svcAck (extendEvent { s with fuses := { s.fuses with lock := true } } 2) spOk
    else svcAck s spRefused

/-- `ATTESTATION_REPORT` (R417, R418): one at a time; the bytes are one snapshot. -/
def execAttestationReport (nonce : Digest) (s : State) : Out :=
  live s fun s => svcTake s fun s =>
    if s.sec.reporting then svcAck s spBusy
    else
      let count := s.sec.reports + 1
      let body := attestBytes s nonce count
      let sig := Config.signature identityKey s.sec.reports.toNat (Config.sm3 body)
      svcAck { s with sec := { s.sec with
        reports := count, reportOut := body ++ leBytes 64 sig.toNat, reporting := true } } spOk

/-- Every record with a SEQ below a limit is removed from the tail, the head, its copy and flash (R458). -/
def removeBelow (e : Ember) (limit : W32) : Ember :=
  let keep := fun (x : Nat × EmberRec) => !serialLt x.2.seq limit
  { e with tail := e.tail.filter keep, flash := e.flash.filter keep, head := e.head.filter keep, headCopy := e.headCopy.filter keep
           last := e.last.filter fun r => !serialLt r.seq limit }

/-- `EMBER_CLEAR` (R457, R458): the clear record is written like any other (R448); it begins the flush that the acknowledgement awaits. -/
def execEmberClear (clearSeq : W32) (signed sigOk : Bool) (s : State) : Out :=
  live s fun s => svcTake s fun s =>
    let e := s.ember
    let refused := s.sec.session != .owned || serialLt e.next clearSeq || !serialLt e.clear clearSeq
      || (3 ≤ groupSize s && !(signed && sigOk)) || (signed && !sigOk)
    if refused then svcAck s spRefused
    else if e.frozen || e.flushing || e.clearing.isSome then svcAck s spBusy
    else
      let words := [clearSeq, e.clear, BitVec.ofNat 32 (b2n signed), BitVec.ofNat 32 (groupSize s)]
      let p : PendSlot := ⟨.emberCleared, 1, false, false, snapshot s .emberCleared words, 4, s.pwr.ticks, false⟩
      { s with ember := { emberLog (removeBelow e clearSeq) p with clearing := some (svcSeq s) } }

/-- `DEBUG_ATTACH` (R413): none while the JTAG functions are disabled. -/
def execDebugAttach (s : State) : Out :=
  live s fun s =>
    if s.sec.debugOff then s else extendEvent { s with sec := { s.sec with debugSeen := true } } 3

end Sys2Proof.Machine
end

