-- ==== Sys2Proof/Machine/Power.lean ====
section
/-! DEFINITION. Pilot domain, power states, start-up, resets, supplies and temperature (chapters 22 and 23, R101 to R104,
R303, R414, R515). -/

namespace Sys2Proof.Machine

open Sys2Proof

/-! ## Logical numbers and retirement (R101 to R103) -/

/-- The spare that stands in for a retired lantern (steps 1 and 2 of R101). -/
def standIn (f : Fuses) (p : Phys) : Option Phys :=
  let die := allPhys.filter fun q => dieOf q == dieOf p && !isDisabled f q
  let retired := die.filter fun q => isRetired f q && !isSpare f q
  let spares := die.filter fun q => isSpare f q && !isRetired f q
  (retired.findIdx? (· == p)).bind fun i => spares[i]?

/-- Logical numbers 0, 1, … in ascending position (steps 3 to 5 of R101). -/
def logicalMap (f : Fuses) : List Phys :=
  (allPhys.filterMap fun p =>
    if isDisabled f p || isSpare f p then none else if isRetired f p then standIn f p else some p)

/-- The logical numbers are assigned, and with them the lanterns that show as retired (R101, R509). -/
def assignMap (s : State) : State := { s with map := logicalMap s.fuses, mapRetired := s.fuses.retired, mapSet := true }

/-- Fuse options, lantern disable map and retirement fuses, as M1 takes them (R415); their layout is log 13's. -/
def fuseBytes (f : Fuses) : List Byte :=
  leBytes 1 (gradeCode f.grade) ++ leBytes 1 (b2n f.suffixX) ++ allPhys.map fun p =>
    BitVec.ofNat 8 (b2n (isDisabled f p) + 2 * b2n (isRetired f p))

def extendFuses (s : State) : State := extend s 1 (Config.sm3 (fuseBytes s.fuses))

/-- Sconce blows the retirement fuses of the lanterns that failed self-test; M1 takes each (R102, R415). -/
def retire (s : State) (failed : List Phys) : State :=
  failed.foldl (fun s p =>
    if isRetired s.fuses p || isDisabled s.fuses p then s
    else extendFuses { s with fuses := { s.fuses with retired := s.fuses.retired ++ [p] } }) s

/-! ## World and memory after a loss of the dies -/

/-- Step 6 of R305 and R107: bricks freed, SEEN lost, tracks ended, probe regions cleared; the epoch stays. DESIGN CHOICE
(log 128): a delivery of shape completion that no run has merged outlives a clear, of which R107 does not speak. -/
def clearWorld (s : State) : State :=
  { s with world := { s.world with
    primed := false, era := false, tePrev := none, dir := [], voxels := [], coarse := [], tracks := [], overflowBox := [], changed := []
    changedPrev := [], probe := [], cut := [], refused := [], formed := none, clears := s.world.clears + 1
    probed := Vector.replicate 4 none, specHas := [] } }

/-- What the frames and inference runs left in the cistern is gone with it. -/
def loseWorld (s : State) : State :=
  let s1 := clearWorld s
  { s1 with world := { s1.world with
    built := false, waiting := [], openSet := none, inboxes := Vector.replicate 2 ⟨0, false⟩, newestInbox := none
    buffers := Vector.replicate 2 none } }

/-- The filled regions of the cistern as their backing copies hold them (R72). -/
def restoreFills (r : Ram) (bs : List Backing) : Ram :=
  bs.foldl (fun r b => if b.fill.isDram then r else r.writeN b.fill.base b.fill.bytes) r

/-- Basins and cistern lose their contents; filled regions are restored unless DRAM was lost too. -/
def loseMemories (s : State) (restore : Bool) : State :=
  { s with
    mem := { s.mem with
      cistern := if restore then restoreFills s.mem.cistern.lose s.mem.backing else s.mem.cistern.lose
      backing := if restore then s.mem.backing else []
      groups := Vector.replicate 48 .awake
      flights := [], recent := [], hubIn := [], dma := s.mem.dma.map fun d => { d with busy := false } }
    lanterns := s.lanterns.map fun l => { l with basin := l.basin.lose } }

/-- A lantern after its die's reset and a complete self-test pass: gated, stores cleared. -/
def freshLantern (now : Nat) (l : Lantern) : Lantern :=
  { l with
    ctx := 0, switches := [], contexts := Vector.replicate 4 blankCtx, cycle := 0, job := none, gated := true, rangeCtr := 0
    offers := [], fresh := [], counted := [], rill := [], retain := .awake, idle := none, wicks := [], diagStart := now, slices := 0, overdue := false, diagHold := false }

def freshLanterns (s : State) : State :=
  { s with
    lanterns := s.lanterns.map (freshLantern s.pwr.ticks)
    safety := { s.safety with degraded := false } }

/-- The slot grid starts again: its next boundary lies one period ahead. -/
def startGrid (s : State) : State :=
  { s with grid := { s.grid with running := true, base := s.grid.base + slotCycles s, sub := 0 } }

def stopGrid (s : State) : State := { s with grid := { s.grid with running := false } }

/-! ## PLLs (R462): bits in the row order of the table -/

def pllHub : BitVec 14 := 0x3C00
def pllAll : BitVec 14 := 0x3FFF

/-! ## Start-up (R471, R473) -/

/-- HALT from start-up: the PCI Express interface answers; FAIL gives the reason. -/
def startHalt (s : State) (fail : Byte) : State :=
  enterHalt { s with pwr := { s.pwr with hub := true, fail, pll := pllHub } }

/-- The ember log before its control area is read; only events held from before stay, and not over a power-on. -/
def emberCold (e : Ember) (powerOn : Bool) : Ember :=
  let z := { Ember.reset with
    next := e.next, clear := e.clear, reserve := e.reserve, flash := e.flash, flashed := e.flashed
    headCopy := e.headCopy, pages := e.pages }
  if powerOn then z
  else if e.online then z
  else { z with held := e.held, heldDrop := e.heldDrop, heldS2 := e.heldS2, heldS3 := e.heldS3 }

/-- The records of flash, the newest first: SEQ stays below NEXT (R451). -/
def flashNewest (e : Ember) : List EmberRec :=
  (e.flash.map Prod.snd).insertionSort fun a b => (e.next - a.seq).toNat ≤ (e.next - b.seq).toNat

/-- The log reads the control area (R451): NEXT is the reserve, the head area is its copy, and the tail takes the newest 1,024 records. -/
def emberLoad (e : Ember) (triggers : List (EventClass × List Nat)) : Ember :=
  let newest := (flashNewest { e with next := e.reserve }).take 1024
  { e with
    next := e.reserve, reserve := e.reserve + 65536, flashed := e.reserve, online := true, triggers
    tail := newest.foldr (fun r (m : SMap EmberRec) => m.put (r.seq.toNat % 1024) r) []
    head := e.headCopy, last := newest.head?
    held := [], heldDrop := 0, heldS2 := 0, heldS3 := 0 }

/-- The log at start-up step 5: what was held before it is numbered in arrival order, the count of the drops first (R451). -/
def emberBoot (s : State) (triggers : List (EventClass × List Nat)) : State :=
  let e := s.ember
  let s1 := { s with ember := emberLoad e triggers }
  let words := [e.heldDrop, e.heldS2, e.heldS3, 0].map (BitVec.ofNat 32 ·)
  let drops : List PendSlot :=
    if e.heldDrop = 0 then []
    else [⟨.frozenDrops, 1, false, false, snapshot s1 .frozenDrops words, 4, s.pwr.ticks, false⟩]
  { s1 with ember := (drops ++ e.held).foldl emberWrite s1.ember }

/-- Everything outside the pilot domain at its reset value (R11, R474). -/
def freshHub (s : State) (powerOn : Bool) : State :=
  let z := State.reset
  { z with
    pwr := { s.pwr with
      hub := false, step := 2, ready := false, pstate := .run, fail := 0, waitGlow := false, dozeEn := false
      pilotArm := false, dozeIdle := 100, pll := 0, tjMax := 0, hottest := 0, warn := false, tripped := false
      low := false, preS1 := [], resetPend := false, heldStart := none, timeHi := 0, saveDigest := none }
    fuses := s.fuses, free := s.free, pending := s.pending
    host := { z.host with mem := s.host.mem, irqs := s.host.irqs }
    mem := { z.mem with cistern := s.mem.cistern.lose, dram := s.mem.dram.lose, dramKey := s.mem.dramKey }
    lanterns := s.lanterns.map fun l => { Lantern.reset with basin := l.basin.lose }
    world := { z.world with lastAdvance := if powerOn then 0 else s.world.lastAdvance }
    sec := { z.sec with debugSeen := !powerOn && s.sec.debugSeen, reports := if powerOn then 0 else s.sec.reports }
    mgmt := { z.mgmt with image := s.mgmt.image.lose, sram := s.mgmt.sram.lose }
    ember := emberCold s.ember powerOn }

/-- Step 5: the configuration block, or the recovery configuration of R414; the glow image; the ember log. -/
def loadConfig (o : StartupObs) (s : State) : State :=
  let c := o.cfgOk
  let period := if c then o.cfgPeriod else 100
  let links : W32 := if c then BitVec.ofNat 32 o.linkEnable.toNat else 0
  let s1 := { s with
    grid := { s.grid with period, regPeriod := period }
    mem := { s.mem with hostWin := if c then o.hostWin else 1, dataRate := if c then o.dataRate else 0 }
    motion := { s.motion with
      offset := if c then o.motOffset else 0, spWin := if c then o.spWin else 40, gmRole := c && o.grandmaster
      priority1 := if c then o.priority1 else 0 }
    sec := { s.sec with cfgRec := !c } }
  let s2 := extend (klCtrlWrite (emberBoot s1 (if c then o.triggers else [])) links) 2 o.cfgDigest
  let s3 := if c then s2 else raise s2 .bootCfgFail []
  let s4 :=
    if o.glowOk then
      extend { s3 with mgmt := { s3.mgmt with glow := 1, digest := o.glowDigest, image := s3.mgmt.image.lose } } 3 o.glowDigest
    else { s3 with mgmt := { s3.mgmt with glow := 0 } }
  let flush := s4.pwr.preS1 != []
  { (if flush then emberFlushStart s4 else s4) with pwr := { s4.pwr with step := 5 } }

/-- Memory-side dies of a mask. -/
def presentCount (m : BitVec 4) : Nat := ((List.range 4).filter fun d => m.getLsbD d).length

/-- Capacity per channel in half GiB, by the density of the parts (R63). -/
def channelHalves (density : Fin 4) : Nat := nth [2, 3, 4, 6] density.val 2

/-- The mapped size in GiB: six channels per die in service, at most 64 GiB (R64, R104). -/
def mappedGib (dies : Nat) (density : Fin 4) : Nat := min (6 * dies * channelHalves density / 2) 64

/-- The work of step 7: dies released and trained; a failing die is excluded (R104, R473). -/
def trainDies (o : StartupObs) (s : State) : State :=
  let bad := o.ddrFail ||| o.d2dFail
  let s1 := { s with
    pwr := { s.pwr with pll := pllAll }
    mem := { s.mem with
      present := ~~~ bad, ddrFail := o.ddrFail, d2dFail := o.d2dFail
      capacity := mappedGib (presentCount (~~~ bad)) o.density, density := o.density
      dma := Vector.ofFn fun c => { s.mem.dma.get c with excluded := bad.getLsbD (c.val / 4) } } }
  let each := fun (m : BitVec 4) (cls : EventClass) (s : State) =>
    (List.range 4).foldl (fun s d => if m.getLsbD d then raise s cls [] else s) s
  each o.d2dFail .d2dTrainFail (each o.ddrFail .ddrTrainFail s1)

/-- Step 10: the reflector check, the slot grid, READY; the S1 events queued before READY begin one relight. -/
def startFinish (s : State) (reflectorOk : Bool) : State :=
  let s1 := { s with pwr := { s.pwr with waitGlow := false, step := 9 } }
  if !reflectorOk then enterHalt (emberFlushStart (assertStop (emberEvent s1 .reflectorFault [] false)))
  else
    let s2 := busyNow { startGrid s1 with
      pwr := { s1.pwr with step := 10, ready := true, pstate := .run, preS1 := [] }
      safety := { s1.safety with state := .service } }
    match s.pwr.preS1 with
    | [] => refreshHeader s2
    | cls :: _ => handleNow s2 (cls, 1)

/-- A start-up step is complete: `PILOT_STATE.STEP` reports it (R471). -/
def stepDone (s : State) (n : Nat) : State := { s with pwr := { s.pwr with step := n } }

/-- Steps 7 to 9. -/
def startDies (o : StartupObs) (s : State) : State :=
  let s1 := trainDies o s
  if presentDies s1 < 3 then startHalt s1 2
  else
    let s2 := freshLanterns (assignMap (retire (stepDone s1 7) o.selftestFail))
    if s2.map.isEmpty then startHalt s2 3
    else
      let s3 := stepDone s2 8
      if o.glowOk then
        { s3 with pwr := { s3.pwr with waitGlow := true, reflectorOk := o.reflectorOk }
                  mgmt := { s3.mgmt with beatAt := s3.pwr.ticks } }
      else startFinish s3 o.reflectorOk

/-- Warning and trip levels of R497, in °C, and the low level. -/
def tempWarnAt (s : State) : Int := if s.fuses.suffixX then 105 else 100
def tempTripAt (s : State) : Int := if s.fuses.suffixX then 115 else 110
def tempLowAt (s : State) : Int := if s.fuses.suffixX then -40 else 0

/-- Steps 3 to 5, then the rest. -/
def startRun (o : StartupObs) (s : State) : State :=
  let s1 := { s with
    pwr := { s.pwr with step := 3, heldStart := none }
    sec := { s.sec with debugOff := s.fuses.lock } }
  if !o.fusesOk then startHalt (stepDone s1 2) 1
  else
    let s2 := { s1 with
      pwr := { s1.pwr with hub := true, pll := pllHub, step := 4 }
      mem := { s1.mem with dramKey := s1.mem.dramKey + 1 }
      motion := { s1.motion with keyId := BitVec.ofNat 64 (Config.random s1.free).toNat }
      free := s1.free + 1 }
    let s3 := extendFuses (extend (extend s2 0 o.romDigest) 0 o.patchDigest)
    startDies o (loadConfig o s3)

/-- Start-up from step 3, which begins once the hottest reading is below the warning level (R497), and never with
PILOT_TRIM_TEST high at power-on (R482). -/
def startFrom3 (o : StartupObs) (s : State) : State :=
  let s1 := { s with pwr := { s.pwr with ticks := s.pwr.ticks + o.ticks } }
  if s.pwr.trimTest then s1
  else if tempWarnAt s ≤ o.hottest then { s1 with pwr := { s1.pwr with heldStart := some o } }
  else startRun o s1

/-- A start-up that a reset or a power failure held runs from step 3 once both inputs are high and the flush has ended
(R475, R476, R491). -/
def restart (o : StartupObs) (s : State) : State :=
  if s.pwr.powerFail || (s.pwr.resetPend && !s.pwr.perstN) then s
  else startFrom3 o (freshHub (if s.ember.flushing then flushEnd s else s) false)

/-! ## Power failure (R452, R476, R487) -/

/-- The lanterns of jobs that ended outside a boundary, with their dies running, are free and clock-gated (R510). -/
def freeAll (s : State) : State :=
  if diesReset s then s
  else { s with lanterns := s.lanterns.map fun l => if l.job.isSome then { l with job := none, gated := true, idle := some 0 } else l }

/-- PWR_FAIL_N is asserted, or a rail goes low: each assertion logs, asserts STOP_REQ_N and starts or extends a flush. -/
def failAssert (s : State) : State :=
  let s1 := emberFlushStart (assertStop (raise s .powerFail []))
  let s2 := freeAll (endJobs { s1 with pwr := { s1.pwr with powerFail := true } })
  if !s2.pwr.ready && s2.safety.state == .startup then
    { s2 with pwr := { s2.pwr with hub := false, waitGlow := false, heldStart := none } }
  else s2

/-- Every cause of R476 has gone: a relight, which in the pilot state goes on after the wake (log 54), or start-up again. -/
def failDeassert (o : StartupObs) (s : State) : State :=
  let s1 := { s with pwr := { s.pwr with powerFail := false } }
  if s1.pwr.ready || s1.pwr.pstate == .pilot then beginRelight s1
  else if s1.safety.state == .halt then s1
  else restart o s1

def failGone (o : StartupObs) (s : State) : State :=
  if s.pwr.powerFail && s.pwr.pwrFailN && s.pwr.railLow == 0 then failDeassert o s else s

/-! ## Doze (R466, R467) -/

/-- Every held trajectory has reached standstill at an 802.1AS instant. -/
def standstillBy (s : State) (ns : Nat) : Bool := s.motion.trajs.all fun e => e.2.all fun t => trajEnd t ≤ ns

def dozeDue (s : State) : Bool :=
  let idle := s.pwr.dozeIdle.toNat
  s.pwr.ready && s.safety.state == .service && s.pwr.dozeEn && s.pwr.pstate != .doze && s.pwr.pstate != .pilot
    && s.jobs.isEmpty && weirUsed s == 0 && !s.ember.flushing
    && s.pwr.idleSince + idle * ticksPerMs ≤ s.pwr.ticks
    && (s.motion.trajs.isEmpty || (idle * 1000000 ≤ asNs s && standstillBy s (asNs s - idle * 1000000)))

def enterDoze (s : State) : State :=
  { stopGrid s with
    pwr := { s.pwr with pstate := .doze, pll := pllHub, dozeAt := s.pwr.ticks }
    lanterns := s.lanterns.map fun l => { l with gated := true, retain := .retained, idle := none }
    mem := { s.mem with groups := Vector.replicate 48 .retained }
    world := { s.world with openSet := none }
    motion := { s.motion with cams := s.motion.cams.map fun c => { c with inSet := false } } }

/-- The wake: PLLs, LPDDR5X, bank groups, slot grid; diagnostic ages go on from their value at entry (R303), and the
lanterns of jobs that became ready in doze wake (R18). -/
def dozeLeave (s : State) : State :=
  if s.pwr.pstate != .doze then s
  else
    let slept := s.pwr.ticks - s.pwr.dozeAt
    wakeReady (busyNow { startGrid s with
      pwr := { s.pwr with pstate := .hold, pll := pllAll }
      lanterns := s.lanterns.map fun l => { l with diagStart := l.diagStart + slept }
      mem := { s.mem with groups := Vector.replicate 48 .awake } })

/-- A write of `PWR_CTRL` (R477): a written DOZE_IDLE of 0 is ignored. -/
def pwrCtrlWrite (s : State) (v : W32) : State :=
  let idle := BitVec.ofNat 8 (bits v.toNat 15 8)
  let s1 := { s with pwr := { s.pwr with
    dozeEn := v.getLsbD 0, pilotArm := v.getLsbD 1, dozeIdle := if idle = 0 then s.pwr.dozeIdle else idle } }
  if v.getLsbD 0 then s1 else dozeLeave s1

/-! ## Pilot state (R468 to R470) -/

def pilotAllowed (s : State) : Bool :=
  (s.rings.ring.toList.all fun g => g.state == .off) && (s.pwr.pstate == .doze || s.pwr.pstate == .hold)
    && standstillBy s (asNs s)

/-- The blocks of BAR0 with registers (R502 to R511): offset and length. -/
def regBlocks : List (Nat × Nat) :=
  [(0, 0x3000), (0x10000, 0x1014), (0x20000, 0x34), (0x30000, 0x18), (0x40000, 0x240), (0x50000, 0x1C), (0x60000, 0x28),
   (0x70000, 0x14), (0x80000, 0x1200)]

/-- The hub's state as the pilot state's entry saves it (R469): the registers, the goal table, the directory of the seed libraries,
the tables of loaded images and weight sets, glow's verified image. DESIGN CHOICE (log 162): the layout. -/
def hubState (s : State) : List Byte :=
  let ints := fun (l : List Int) => leBytes 4 l.length ++ l.flatMap fun v => leBytes 8 (uns 64 v)
  (regBlocks.flatMap fun b => (List.range (b.2 / 4)).flatMap fun i => leBytes 4 (readReg s (b.1 + 4 * i)))
    ++ (s.sluice.goals.flatMap fun e =>
        leBytes 4 e.1 ++ leBytes 4 (b2n e.2.tool) ++ leBytes 4 e.2.robot ++ leBytes 4 e.2.cls ++ ints e.2.values)
    ++ (s.sluice.libs.flatMap fun e => leBytes 4 e.1 ++ leBytes 4 e.2.length)
    ++ (s.sluice.images.flatMap fun e => leBytes 4 e.1 ++ leBytes 32 e.2.bodyDigest.toNat)
    ++ (s.sluice.weights.flatMap fun e => leBytes 4 e.1 ++ leBytes 32 e.2.hdr.bodyDigest.toNat)
    ++ leBytes 32 s.mgmt.digest.toNat ++ s.mgmt.image.readN 0 0x100000

/-- The entry to the pilot state (R469, R470): the hub's state is saved, STOP_REQ_N asserted, and all but the pilot domain loses power;
PILOT_ARM stays. -/
def enterPilot (s : State) : State :=
  let s1 := assertStop s
  let saved := hubState s1
  { stopGrid s1 with
    pwr := { s1.pwr with pstate := .pilot, hub := false, ready := false, pll := 0, saveDigest := some (Config.sm3 saved) }
    mem := { s1.mem with hubSave := saved }
    motion := { s1.motion with
      cams := Vector.replicate 4 .reset, sync := false, gm := false, link := 0
      nodes := s1.motion.nodes.map fun n => { n with present := false, hist := [] } }
    klink := { s1.klink with ports := s1.klink.ports.map fun k => { k with state := 0, partner := none, crcRun := 0 } }
    world := { s1.world with openSet := none } }

/-- The wake: hub state restored, self-test of every lantern passed, world cleared, READY set; the trace went with the cistern, and
publishing jobs wait for synchronisation. -/
def leavePilot (s : State) : State :=
  let s1 := { s with pwr := { s.pwr with
    pstate := .run, hub := true, ready := true, pll := pllAll, resetPend := false } }
  let s2 := freshLanterns (loseMemories (loseWorld s1) true)
  let s3 := { s2 with
    safety := { s2.safety with bitmap := [] }
    sluice := { s2.sluice with trace := [] }
    motion := { s2.motion with awaitSync := true }
    mgmt := { s2.mgmt with glow := if s2.mgmt.glow = 0 ∨ s2.mgmt.glow = 5 then s2.mgmt.glow else 1
                           beatAt := s2.pwr.ticks } }
  refreshHeader (busyNow (startGrid (klCtrlWrite s3 (BitVec.ofNat 32 s3.klink.enable.toNat))))

/-- A device reset begins: STOP_REQ_N, the hub held in reset, `DEVICE_RESET` logged, the log flushed (R475). -/
def resetBegin (s : State) : State :=
  let s1 := emberFlushStart (emberEvent (assertStop s) .deviceReset [] false)
  let s2 := endJobs s1
  { s2 with
    pwr := { s2.pwr with hub := false, ready := false, waitGlow := false, step := 2, pstate := .run, resetPend := true
                         heldStart := none, pll := 0, preS1 := [] }
    safety := { s2.safety with state := .startup, current := none, suspended := [], queue := [], overflow := 0 } }

/-! ## Meanings -/

/-- `POWER_ON` (R471, R474): PWR_GOOD is asserted after it was deasserted. -/
def execPowerOn (o : StartupObs) (s : State) : Out :=
  .next (
    if s.pwr.pwrGood then s
    else
      let p := { Pwr.reset with
        pwrGood := true, perstN := s.pwr.perstN, perstSeen := s.pwr.perstN, pwrFailN := s.pwr.pwrFailN
        railLow := s.pwr.railLow, trimTest := o.trimTest, powerFail := !s.pwr.pwrFailN || s.pwr.railLow != 0 }
      let s1 := freshHub { s with pwr := p } true
      if p.powerFail then s1 else startFrom3 o s1)

/-- `DEVICE_RESET` (R474, R475): PERST_N is driven low. In the pilot state that only clears WAKE_N (R470). -/
def execDeviceReset (s : State) : Out :=
  .next (
    let low := { s with pwr := { s.pwr with perstN := false, wakeN := s.pwr.wakeN && s.pwr.pstate != .pilot } }
    if s.pwr.pwrGood && s.pwr.perstSeen && s.pwr.perstN && s.pwr.pstate != .pilot then resetBegin low else low)

/-- `PERST_DEASSERT` (R472, R474, R475): the PCIe controller is released; a device reset's start-up runs. -/
def execPerstDeassert (o : StartupObs) (s : State) : Out :=
  .next (
    let s1 := { s with pwr := { s.pwr with perstN := true, perstSeen := s.pwr.perstSeen || s.pwr.pwrGood } }
    if s.pwr.pwrGood && s.pwr.resetPend then restart o s1 else s1)

/-- `PWR_FAIL_ASSERT` (R452, R476). -/
def execPwrFailAssert (s : State) : Out :=
  .next (
    let s1 := { s with pwr := { s.pwr with pwrFailN := false } }
    if s.pwr.pwrGood && s.pwr.pwrFailN then failAssert s1 else s1)

/-- `PWR_FAIL_DEASSERT` (R476): a relight, or start-up again from step 3. -/
def execPwrFailDeassert (o : StartupObs) (s : State) : Out :=
  .next (
    let s1 := { s with pwr := { s.pwr with pwrFailN := true } }
    if s.pwr.pwrGood then failGone o s1 else s1)

def railBit : Rail → BitVec 4
  | .cmp => 1 | .mem => 2 | .hub => 4 | .pilot => 8

/-- `RAIL_UNDERVOLT` (R487): it acts as an assertion of PWR_FAIL_N for as long as the rail stays low. -/
def execRailUndervolt (rail : Rail) (s : State) : Out :=
  .next (
    let s1 := { s with pwr := { s.pwr with railLow := s.pwr.railLow ||| railBit rail } }
    if !s.pwr.pwrGood || s.pwr.railLow &&& railBit rail != 0 then s1
    else failAssert (raise s1 .railUndervolt []))

/-- `RAIL_RECOVERY` (R487). -/
def execRailRecovery (rail : Rail) (o : StartupObs) (s : State) : Out :=
  .next (
    let s1 := { s with pwr := { s.pwr with railLow := s.pwr.railLow &&& ~~~ railBit rail } }
    if s.pwr.pwrGood then failGone o s1 else s1)

/-- `PWR_GOOD_DEASSERT` (R460, R475, R489): every clock stops; STOP_REQ_N reads asserted. -/
def execPwrGoodDeassert (s : State) : Out :=
  .next { assertStop s with
    pwr := { (assertStop s).pwr with
      pwrGood := false, hub := false, ready := false, waitGlow := false, pstate := .run, step := 0, resetPend := false
      perstSeen := false, wakeN := false, heldStart := none, pll := 0 }
    jobs := [] }

/-- `TEMP_READ` (R497, R498): the hottest reading acts; in the pilot state only the hub die's sensors are read. -/
def execTempRead (readings : List (Fin 7 × Int)) (s : State) : Out :=
  pilotLive s fun s =>
    let read := if s.pwr.pstate == .pilot then readings.filter fun r => r.1 == 6 else readings
    match read with
    | [] => s
    | r :: t =>
      let hot := t.foldl (fun (a : Fin 7 × Int) b => if a.2 < b.2 ∨ (a.2 = b.2 ∧ b.1 < a.1) then b else a) r
      let v := hot.2
      let warn := tempWarnAt s ≤ v || (s.pwr.warn && tempWarnAt s - 3 < v)
      let low : Bool := v < tempLowAt s
      let trip : Bool := tempTripAt s ≤ v
      let s1 := { s with pwr := { s.pwr with
        tjMax := BitVec.ofInt 8 v, hottest := hot.1.val, warn, low, tripped := s.pwr.tripped || trip } }
      let s2 := if low && !s.pwr.low then raise s1 .tempLow [] else s1
      let s3 := if warn && !s.pwr.warn then raise s2 .tempWarn [] else s2
      let s4 := if trip && !s.pwr.tripped then raise s3 .tempTrip [] else s3
      match s4.pwr.heldStart with
      | some o => if v < tempWarnAt s && s4.safety.state == .startup then startRun o s4 else s4
      | none => s4

/-- `DOZE_ENTRY` (R466). -/
def execDozeEntry (s : State) : Out := live s fun s => if dozeDue s then enterDoze s else s

/-- `DOZE_WAKE` (R467). -/
def execDozeWake (cause : WakeCause) (s : State) : Out :=
  live s fun s =>
    match cause with
    | .dozeDisabled => dozeLeave { s with pwr := { s.pwr with dozeEn := false } }
    | .descriptor => dozeLeave s
    | .memoryAccess => dozeLeave s

/-- `PILOT_ARM_WRITE` (R468, R477): a write of `PWR_CTRL`. -/
def execPilotArmWrite (value : W32) (s : State) : Out := busLive s fun s => pwrCtrlWrite s value

/-- `PILOT_ENTRY` (R468, R469): the link reaches L2. -/
def execPilotEntry (s : State) : Out :=
  live s fun s =>
    if !s.pwr.pilotArm then s
    else if pilotAllowed s then enterPilot s
    else raise { s with pwr := { s.pwr with pilotArm := false } } .pilotReqRefused []

/-- `PILOT_WAKE` (R470): PERST_N was deasserted in the pilot state. A saved state that fails its digest leads to a device reset, whose
start-up follows as PERST_N is already high. -/
def execPilotWake (digestOk : Bool) (ticks : Nat) (obs : StartupObs) (s : State) : Out :=
  .next (
    if s.pwr.pwrGood && s.pwr.pstate == .pilot && s.pwr.perstN then
      let s1 := { s with pwr := { s.pwr with ticks := s.pwr.ticks + ticks } }
      if digestOk && s.pwr.saveDigest.isSome then leavePilot s1 else restart obs (resetBegin s1)
    else s)

/-- A read of `PILOT_TIME_LO` latches the high part (R477). -/
def pilotTimeLatch (s : State) : State :=
  { s with pwr := { s.pwr with timeHi := BitVec.ofNat 16 (s.pwr.ticks / 2 ^ 32) } }

/-- `PILOT_TIME_READ` (R461, R477). -/
def execPilotTimeRead (s : State) : Out :=
  busLive s fun s => setBus (pilotTimeLatch s) (s.pwr.ticks % 2 ^ 32)

end Sys2Proof.Machine
end

