-- ==== Sys2Proof/Machine/Management.lean ====
section
/-! DEFINITION. The management complex: glow's heartbeat, restart, load shedding, bus firewall and host load
(R431 to R441). -/

namespace Sys2Proof.Machine

open Sys2Proof

def modMgmt (s : State) (f : Mgmt → Mgmt) : State := { s with mgmt := f s.mgmt }

/-- Glow's core runs or starts: not awaiting a host load, not held. -/
def glowUp (s : State) : Bool := s.mgmt.glow != 0 && s.mgmt.glow != 5

/-- Ports in state 1 go back to the start of configuring (R394). -/
def reconfigure (s : State) : State :=
  { s with motion := { s.motion with cams := s.motion.cams.map fun c =>
      if c.state == 1 then { c with cfgFails := 0 } else c } }

/-- Restarts within the last 10 s (R436). -/
def restarts10s (s : State) : Nat :=
  (s.mgmt.restartAt.filter fun t => s.pwr.ticks < t + 10 * ticksPerSec).length

/-- Where the image of a restart comes from (R434, R435): the image SRAM, flash, whose bytes no command gives (log 162), or none: host-load
mode. -/
def restartImage (s : State) (imageOk flashOk : Bool) (digest : Digest) : State :=
  if imageOk then extend (modMgmt s fun m => { m with glow := 1 }) 3 s.mgmt.digest
  else if flashOk then
    extend { modMgmt s fun m => { m with glow := 1, digest, image := m.image.lose } with sec := { s.sec with hostload := false } } 3 digest
  else modMgmt s fun m => { m with glow := 0 }

/-- A restart of glow (R434): not a relight; its party's spouts and locks are reset (R359). -/
def glowRestart (s : State) (imageOk flashOk : Bool) (digest : Digest) : State :=
  let s1 := modMgmt s fun m => { m with
    restarts := satInc m.restarts, restartAt := s.pwr.ticks :: m.restartAt.take 7, beatAt := s.pwr.ticks
    high := 0, lowRun := 0 }
  raise (restartImage (reconfigure (glowPartyReset s1)) imageOk flashOk digest) .glowRestart []

/-- A heartbeat interval's busy fraction moves the shedding step (R438). -/
def shed (m : Mgmt) (busy : Nat) : Mgmt :=
  let high := if 90 < busy then m.high + 1 else 0
  let low := if busy < 70 then m.lowRun + 1 else 0
  match m.glow with
  | 2 => if 2 ≤ high then { m with glow := 3, high := 0, lowRun := 0 } else { m with high, lowRun := low }
  | 3 =>
    if 2 ≤ high then { m with glow := 4, high := 0, lowRun := 0 }
    else if 5 ≤ low then { m with glow := 2, high := 0, lowRun := 0 }
    else { m with high, lowRun := low }
  | 4 => if 5 ≤ low then { m with glow := 3, high := 0, lowRun := 0 } else { m with high, lowRun := low }
  | _ => m

/-- Glow is held in reset (R436); an attempt of its to configure a camera ends with it (R394). -/
def holdGlow (s : State) : State :=
  raise (reconfigure (modMgmt s fun m => { m with glow := 5, high := 0, lowRun := 0 })) .glowHeld []

/-- Writes to `GLOW_LOAD_WIN` and GO are taken in host-load mode or while glow is held (R440). -/
def loadOpen (s : State) : Bool := !glowUp s

/-- A write of `GLOW_LOAD_CTRL`: PAGE, and GO, which begins the verification (R439 to R441). -/
def loadCtrlWrite (s : State) (v : W32) : State :=
  let s1 := modMgmt s fun m => { m with page := BitVec.ofNat 4 v.toNat }
  if v.getLsbD 4 && loadOpen s && !s.mgmt.busy then modMgmt s1 fun m => { m with busy := true, loadFail := false }
  else s1

/-- Bytes written to `GLOW_LOAD_WIN`, into the selected page of the image. -/
def loadWinWrite (s : State) (off : Nat) (data : List Byte) : State :=
  if loadOpen s && !s.mgmt.busy then
    modMgmt s fun m => { m with
      image := m.image.writeN (65536 * m.page.toNat + off) (data.take (65536 - off)) }
  else s

/-! ## Meanings -/

/-- `GLOW_HEARTBEAT` (R431, R434, R471): glow writes its heartbeat word. -/
def execGlowHeartbeat (word : W32) (s : State) : Out :=
  live s fun s =>
    if !glowUp s then s
    else
      let s1 := modMgmt s fun m => { m with beat := word, beatAt := s.pwr.ticks, glow := if m.glow = 1 then 2 else m.glow }
      if s1.pwr.waitGlow && s1.safety.state == .startup then startFinish s1 s1.pwr.reflectorOk else s1

/-- `STARTUP_HEARTBEAT_TIMEOUT` (R473): glow is restarted as at any lost heartbeat (R434, R435), and step 10 proceeds. -/
def execStartupHeartbeatTimeout (reflectorOk imageOk flashOk : Bool) (digest : Digest) (s : State) : Out :=
  live s fun s =>
    if !s.pwr.waitGlow || s.safety.state != .startup || s.pwr.ticks < s.mgmt.beatAt + 140 * ticksPerMs then s
    else startFinish (glowRestart s imageOk flashOk digest) (reflectorOk && s.pwr.reflectorOk)

/-- `GLOW_RESTART` (R434 to R436): 50 ms without a heartbeat; the fifth within 10 s holds glow in reset. -/
def execGlowRestart (imageOk flashOk : Bool) (digest : Digest) (s : State) : Out :=
  live s fun s =>
    if !glowUp s || s.pwr.waitGlow || s.pwr.ticks < s.mgmt.beatAt + 50 * ticksPerMs then s
    else if 4 ≤ restarts10s s then holdGlow s
    else glowRestart s imageOk flashOk digest

/-- `GLOW_BUS_VIOLATION` (R431): the access does not take place, a read returns 0; counted, logged at most once per 10 ms. -/
def execGlowBusViolation (_addr : W32) (write : Bool) (s : State) : Out :=
  live s fun s =>
    let s1 := modMgmt (if write then s else setBus s 0) fun m => { m with viol := satInc m.viol }
    if s.mgmt.violLog.any fun t => s.pwr.ticks < t + 10 * ticksPerMs then s1
    else raise (modMgmt s1 fun m => { m with violLog := some s.pwr.ticks }) .glowBusViolation []

/-- `GLOW_LOAD_MEASURE` (R438). -/
def execGlowLoadMeasure (busyPercent : Nat) (s : State) : Out :=
  live s fun s => modMgmt s fun m => shed m busyPercent

/-- `GLOW_LOAD_WIN_WRITE` (R439, R440): a write through BAR2; one that R312 does not accept is an Unsupported Request (R506). -/
def execGlowLoadWinWrite (offset : BitVec 16) (data : List Byte) (s : State) : Out :=
  busLive s fun s =>
    if (data.length == 4 || data.length == 8) && offset.toNat % data.length == 0 then loadWinWrite s offset.toNat data
    else { s with host := { s.host with ur := true } }

/-- `GLOW_LOAD_GO` (R439, R440): the verification of the image that GO began, or begins, ends. Glow that was held restarts,
which is its party's reset (R359). -/
def execGlowLoadGo (ok : Bool) (digest : Digest) (s : State) : Out :=
  live s fun s =>
    if !loadOpen s then s
    else
      let s1 := modMgmt s fun m => { m with busy := false, loadFail := !ok }
      if ok then
        extend { modMgmt (reconfigure (if s.mgmt.glow == 5 then glowPartyReset s1 else s1)) fun m => { m with glow := 1, digest, beatAt := s.pwr.ticks, high := 0, lowRun := 0 } with
          sec := { s1.sec with hostload := true } } 3 digest
      else raise s1 .glowLoadFail []

end Sys2Proof.Machine
end

