-- ==== Sys2Proof/Machine/Faults.lean ====
section
/-! DEFINITION. Functional safety (chapter 13): events from any unit, the fault handler's completion, relight, HALT,
STOP_REQ_N's release, world age, self-test and the diagnostic interval. -/

namespace Sys2Proof.Machine

open Sys2Proof

/-! ## What the unit that raised an event does itself (R29, R76) -/

def spoutChan (n : Nat) : Chan := if n < 4 then .n (Fin.ofNat 4 n) else .s (Fin.ofNat 16 (n - 4))

def markDamaged (m : SMap EmberRec) (seq : W32) : SMap EmberRec :=
  m.map fun e => if e.2.seq == seq then (e.1, { e.2 with damaged := true }) else e

/-- `unit` is the SEQ of the damaged record, the number of the channel (N0 to N3, then S0 to S15), or the physical
lantern, by class. -/
def unitEffect (s : State) (cls : EventClass) (unit : Nat) : State :=
  match cls with
  | .emberEccFatal =>
    let seq := BitVec.ofNat 32 unit
    { s with ember := { s.ember with
      tail := markDamaged s.ember.tail seq, head := markDamaged s.ember.head seq
      last := s.ember.last.map fun r => if r.seq == seq then { r with damaged := true } else r } }
  | .spoutEccFatal =>
    let ch := spoutChan unit
    let c := chanGet s ch
    if c.full then
      signalClear (chanSet s ch { c with buf := Vector.replicate 64 0, full := false, dropped := true }) ch
    else s
  | .fabricEccCorr =>
    if h : unit < 34 then modLant s ⟨unit, h⟩ fun l => { l with eccCorr := satInc l.eccCorr } else s
  | _ => s

/-! ## Admission (R336, R339) -/

/-- Whether the descriptor with an index on the ring has completed. -/
def hasCompleted (s : State) (r : RingId) (i : W32) : Bool :=
  serialLt i (ringGet s r).complete || (findDesc s ⟨r, i⟩).any fun d => d.stage.isDone

/-- A selected token whose condition already holds at acceptance. -/
def tokenNow (s : State) (d : DescEntry) : Nat → Bool
  | 0 => serialLe (minEpoch d) s.world.epoch
  | 1 => (s.sluice.goals.find (goalOf d)).isSome
  | 3 => serialLe d.ref.index (afterOf d) || hasCompleted s d.ref.ring (afterOf d)
  | _ => false

/-- A `PLAN_RUN` enters the weir's matching store. -/
def admitRun (s : State) (d : DescEntry) : State :=
  let s1 := modDesc s d.ref fun e => { e with stage := .waiting }
  let self := (tokensOf d).getLsbD 3 && serialLe d.ref.index (afterOf d)
  let s2 := if self then raise s1 .sluiceAfterSelf [] else s1
  let hit := fun (s : State) (b : Nat) =>
    match findDesc s d.ref with
    | some e => if tokenNow s e b then matchToken b s e else s
    | none => s
  let s3 := [0, 1, 3].foldl hit s2
  match findDesc s3 d.ref with
  | some e => settleReady s3 e
  | none => s3

/-- Every accepted run that has not entered the matching store enters it. -/
def admitRuns (s : State) : State :=
  s.descs.foldl (fun s d => if d.stage == .entered && d.desc.body.isJob && !d.desc.body.isRestore then admitRun s d else s) s

/-! ## Re-execution (R329, R346) -/

/-- Whether a relight makes a descriptor run again: it was dispatched or begun, or its result is unreleased. -/
def lostByRelight (d : DescEntry) : Bool :=
  d.begun || (match d.stage with
    | .done _ | .executing | .running => true
    | .entered | .waiting | .ready => false)

/-- The epoch under which an encrypted result was already written (R426). -/
def writtenUnder (d : DescEntry) : Option W32 :=
  match d.stage with
  | .done r => if d.desc.encrypted && r.epoch != 0 && 512 < r.length && !isRestore d then some r.epoch else d.notBefore
  | _ => d.notBefore

/-- A verdict that execution did not give: of acceptance (R317, R323), or of the return from a detach (R333). -/
def fixedVerdict (d : DescEntry) : Option Result :=
  match d.stage with
  | .done r => if d.desc.body.isBad || r.status == .deviceDetachedHold then some r else none
  | _ => none

/-- A descriptor queued for re-execution from scratch; a cancelled one is re-executed as a cancel, a restore is read anew, and one
that acceptance refused gets its verdict again, with FLAGS.REPLAYED. -/
def requeue (s : State) (d : DescEntry) : State :=
  if !lostByRelight d then s
  else
    let s1 := modDesc s d.ref fun e => { e with
      stage := if e.desc.body.isJob && !e.desc.body.isRestore then .waiting else .entered
      begun := false, replayed := true, verified := false, ctx := none, resume := none, notBefore := writtenUnder d }
    match fixedVerdict d with
    | some r => finish s1 d.ref r.status r.detail.toNat
    | none => if d.cancelled then finish s1 d.ref .cancelled 0 else s1

def requeueAll (s : State) : State := s.descs.foldl requeue s

/-- Every seed set is posted with 0 seeds (R338). -/
def postEmptySeeds (s : State) : State :=
  let s1 := { s with sluice := { s.sluice with seedSets := (List.range 64).map fun n => (n, ⟨[]⟩) } }
  matchWhere s1 2 fun _ => true

/-! ## Relight (R305) -/

/-- Whether a range lies inside the present cistern, or inside mapped DRAM. -/
def placed (s : State) (isDram : Bool) (base len : Nat) : Bool :=
  if isDram then base + len ≤ s.mem.capacity * gib
  else base + len ≤ 0x0C00_0000 &&
    (List.range 4).all fun d => diePresent s d || base + len ≤ d * 0x0300_0000 || (d + 1) * 0x0300_0000 ≤ base

/-- What the device stages again from sconce's tables of the recipe, where memory still holds its places (R104). -/
def restaged (s : State) : List Backing :=
  s.mem.backing.filter fun b => b.owner == .recipe && placed s b.fill.isDram b.fill.base b.fill.bytes.length

/-- Step 4: memory-side dies that fail are excluded; DRAM and everything loaded into it is lost with them, but for the recipe's
tables, which are staged again (R104). -/
def excludeDies (s : State) (fail : BitVec 4) : State :=
  let bad := fail &&& s.mem.present
  if bad = 0 then s
  else
    let s1 := { s with
      mem := { s.mem with
        present := s.mem.present &&& ~~~ bad, d2dFail := s.mem.d2dFail ||| bad
        capacity := mappedGib (presentCount (s.mem.present &&& ~~~ bad)) s.mem.density
        dma := Vector.ofFn fun c =>
          { s.mem.dma.get c with excluded := (s.mem.dma.get c).excluded || bad.getLsbD (c.val / 4) } }
      sluice := { s.sluice with images := [], weights := [], libs := [] } }
    { s1 with mem := { s1.mem with
      backing := restaged s1
      dram := (restaged s1).foldl (fun r b => if b.fill.isDram then r.writeN b.fill.base b.fill.bytes else r) s1.mem.dram.lose } }

/-- Steps 2 to 6. -/
def relightDies (s : State) (o : RelightObs) : State :=
  let s1 := excludeDies s o.diesFail
  let s2 := { s1 with
    sluice := { s1.sluice with
      images := s1.sluice.images.filter fun e => !(o.damagedPlans.any fun p => p.toNat == e.1)
      trace := [], parse := [] }
    safety := { s1.safety with disHist := [], bitmap := [] } }
  loseMemories (loseWorld s2) true

/-- Step 9: stores cleared, the grid restarted, service, re-execution queued. What was accepted before has its tokens matched
(R338); a relight that no event's handling began is followed at once by the S1 event that waits (R284). -/
def relightReady (s : State) : State :=
  let s1 := busyNow (startGrid (freshLanterns s))
  let s2 := { s1 with
    safety := { s1.safety with state := .service }
    pwr := { s1.pwr with pstate := .run, pll := pllAll } }
  let s3 := settleAll (postEmptySeeds (requeueAll (admitRuns (refreshHeader s2))))
  if s3.safety.current.any fun c => c.2 == 1 then s3 else (nextS1 s3).getD s3

/-- What the status registers of the dies show keeps its value through a relight that ends in HALT (R500): `old` is the
state in which the relight began. DESIGN CHOICE (log 157): that holds for `MEM_DIE_STATUS` too, which R508 has step 4 of a relight update. -/
def keepShown (old s : State) : State :=
  { s with
    map := old.map, mapRetired := old.mapRetired, mapSet := old.mapSet
    lanterns := Vector.ofFn fun p => { old.lanterns.get p with basin := (s.lanterns.get p).basin }
    mem := { s.mem with present := old.mem.present, ddrFail := old.mem.ddrFail, d2dFail := old.mem.d2dFail
                        capacity := old.mem.capacity, dma := old.mem.dma } }

def haltFail (old s : State) (fail : Byte) : State := enterHalt (keepShown old { s with pwr := { s.pwr with fail } })

/-- Steps 7 to 9. -/
def relightTest (old s : State) (o : RelightObs) : State :=
  let s1 := retire s (o.selftestFail)
  if !o.reflectorOk then
    enterHalt (keepShown old (emberFlushStart (assertStop (emberEvent s1 .reflectorFault [] false))))
  else
    let s2 := assignMap s1
    if s2.map.isEmpty then haltFail old s2 3 else relightReady s2

/-! ## Self-test (R302, R303) -/

/-- A lantern under the diagnostic interval: active, or a spare. -/
def diagnosed (s : State) (p : Phys) : Bool :=
  s.map.contains p || (isSpare s.fuses p && !isRetired s.fuses p && !isDisabled s.fuses p)

/-- The diagnostic age of a lantern: it stands still in doze (R303). -/
def diagAge (s : State) (p : Phys) : Nat :=
  (if s.pwr.pstate == .doze then s.pwr.dozeAt else s.pwr.ticks) - (lant s p).diagStart

/-- Where a slice that ends now, 20 µs after it began, may have run (R302): wholly in a free window, on a lantern with no job since the
latest boundary, at least 64 cycles before the next one, or on a spare. -/
def sliceAllowed (s : State) (p : Phys) : Bool :=
  diagnosed s p && s.pwr.pstate != .doze && s.safety.state == .service &&
    (match jobOn s p with
     | none => spareNow s p || (20000 ≤ slotCycles s && slotCycles s + 64 ≤ 10000 * s.grid.period)
     | some j => 20000 ≤ slotCycles s && freeWindow s j p (slotCycles s - 20000) (slotCycles s))

/-- A complete pass: the age is 0 again; DEGRADED clears once no age exceeds 100 ms. -/
def passDone (s : State) (p : Phys) : State :=
  let s1 := modLant s p fun l => { l with slices := 0, diagStart := s.pwr.ticks, overdue := false, diagHold := false }
  if s1.lanterns.toList.any (·.overdue) then s1 else { s1 with safety := { s1.safety with degraded := false } }

/-! ## Meanings -/

/-- A corrected error of a structure of the memory-side dies: of `MEM_ECC_CORR`'s structures (R76), unit 0 is a plan image,
any other a structure of the hub. -/
def dieStructure (cls : EventClass) (unit : Nat) : Bool := cls == .memEccCorr && unit == 0

/-- In a speculative slot, words that would carry a candidate ID or a score are 0 (R235): the two scores of a
`DUPLICATE_MISMATCH`, the first word of a `REFLECTOR_DISAGREE`. -/
def specWords (s : State) (cls : EventClass) (words : List W32) (r : JobRef) : List W32 :=
  if (findJob s r).any (·.spec) then
    match cls with
    | .duplicateMismatch => words.map fun _ => 0
    | .reflectorDisagree => 0 :: words.drop 1
    | _ => words
  else words

/-- `FAULT_EVENT` (R282 to R284, R515, R516): an event of a unit, with the job that its source rule fails. One that is suppressed while
the dies are in reset changes nothing. -/
def execFaultEvent (cls : EventClass) (unit : Nat) (words : List W32) (job : Option JobRef) (s : State) : Out :=
  live s fun s =>
    let s1 := unitEffect s cls unit
    if suppressed s cls || (dieStructure cls unit && diesReset s) then s
    else match job with
    | some r => raiseFor s1 cls (specWords s cls words r) r
    | none => raise s1 cls words

/-- `FAULT_HANDLING_COMPLETE` (R283, R284): handling that includes a relight ends with it. -/
def execFaultHandlingComplete (s : State) : Out :=
  live s fun s =>
    match s.safety.current with
    | none => s
    | some c => if c.2 = 1 && s.safety.state == .relight then s else handlerDone s

/-- `RELIGHT` (R305, R306, R308): the steps of a relight that an event has begun. -/
def execRelight (o : RelightObs) (s : State) : Out :=
  live s fun s =>
    if s.safety.state != .relight then s
    else
      let s1 := relightDies { s with pwr := { s.pwr with ticks := s.pwr.ticks + o.ticks } } o
      if presentDies s1 < 3 then haltFail s s1 2 else relightTest s s1 o

/-- `LOCKSTEP_MISMATCH` (R309): HALT without relight. -/
def execLockstepMismatch (s : State) : Out := live s enterHalt

/-- A write of 1 to `SAFE_CTRL.STOP_RELEASE` (R286). -/
def stopReleaseWrite (s : State) : State :=
  if !stopRelHost s || !s.pwr.stop then s
  else if s.safety.handed then { s with pwr := { s.pwr with stop := false } }
  else raise s .stopReleaseEarly []

/-- `STOP_RELEASE`. -/
def execStopRelease (s : State) : Out := busLive s stopReleaseWrite

/-- Pilot time since the latest advance of the world epoch (R301). -/
def worldAge (s : State) : Nat := s.pwr.ticks - s.world.lastAdvance

/-- `WORLD_STALE` (R301): the world age first exceeds 100 ms. -/
def execWorldStale (s : State) : Out :=
  live s fun s =>
    if s.world.staleLogged || worldAge s ≤ 100 * ticksPerMs then s
    else raise { s with
      world := { s.world with staleLogged := true }
      safety := { s.safety with stale := true } } .worldStale []

/-- `SELFTEST_SLICE` (R102, R302 to R304): a lantern found faulty has its retirement fuse blown, and the relight retires it. -/
def execSelftestSlice (p : Phys) (pass : Bool) (s : State) : Out :=
  live s fun s =>
    if !sliceAllowed s p then s
    else if !pass then raise (retire s [p]) .lanternSelftestFail []
    else if (lant s p).slices + 1 < 25 then modLant s p fun l => { l with slices := l.slices + 1 }
    else passDone s p

/-- `DIAG_OVERDUE` (R303): an age first exceeds 100 ms. -/
def execDiagOverdue (p : Phys) (s : State) : Out :=
  live s fun s =>
    if !diagnosed s p || (lant s p).overdue || diagAge s p ≤ 100 * ticksPerMs then s
    else
      let s1 := modLant s p fun l => { l with overdue := true }
      raise { s1 with safety := { s1.safety with degraded := true } } .diagOverdue []

/-- `DIAG_ADMIT_HOLD` (R303): an age reaches 200 ms. -/
def execDiagAdmitHold (p : Phys) (s : State) : Out :=
  live s fun s =>
    if diagnosed s p && 200 * ticksPerMs ≤ diagAge s p then modLant s p fun l => { l with diagHold := true } else s

/-- `REFLECTOR_SELF_CHECK` (R294): the periodic check against the ROM's bitmap. -/
def execReflectorSelfCheck (ok : Bool) (s : State) : Out :=
  live s fun s => if ok then s else raise s .reflectorFault []

end Sys2Proof.Machine
end

