-- ==== Sys2Proof/Machine/Memory.lean ====
section
/-! DEFINITION. Basins, cistern and DRAM (chapter 3) and the planned transfers of control streams (R94 to R100):
retention, atomics, transfers in flight, window and debug accesses. -/

namespace Sys2Proof.Machine

open Sys2Proof

def zeros (n : Nat) : List Byte := List.replicate n 0

/-! ## Addresses (R44) -/

def basinBank (a : Nat) : Nat := a / 8 % 64

def inPool (a : Nat) : Bool := 62 ≤ basinBank a

/-- Basin-view address of a pool-view address. -/
def poolToBasin (p : Nat) : Nat := (p / 16 % 16384) * 512 + (62 + p / 8 % 2) * 8 + p % 8

/-- The 8 B word in which a place lies (R44): the low three address bits are not decoded. -/
def placeWord : Place → Place
  | .basin l a => .basin l (a / 8 * 8)
  | .cistern a => .cistern (a / 8 * 8)
  | .dram a => .dram (a / 8 * 8)

/-! ## Retention (R56 to R58) -/

def groupRetain (s : State) (a : Nat) : Retain :=
  if h : cisternGroup a < 48 then s.mem.groups.get ⟨cisternGroup a, h⟩ else .awake

/-- First address of a bank group (R59). -/
def groupBase (g : Nat) : Nat := g / 12 * 0x0300_0000 + g % 12 * 0x0040_0000

/-- Bank group `g` holds a byte of the `n` from `a` on. -/
def groupMeets (g a n : Nat) : Bool := decide (groupBase g < a + n ∧ a < groupBase g + 0x0040_0000)

def setGroup (s : State) (a : Nat) (r : Retain) : State :=
  if h : cisternGroup a < 48 then
    { s with mem := { s.mem with groups := s.mem.groups.set (cisternGroup a) r } }
  else s

def placeAsleep (s : State) : Place → Bool
  | .basin l _ => (lant s l).retain.asleep
  | .cistern a => (groupRetain s a).asleep
  | .dram _ => false

/-- A memory that holds any of the `n` bytes from a place on is in retention or still waking. -/
def rangeAsleep (s : State) (pl : Place) (n : Nat) : Bool :=
  match pl with
  | .cistern a => (List.finRange 48).any fun g => (s.mem.groups.get g).asleep && groupMeets g.val a n
  | .basin .. | .dram _ => placeAsleep s pl

/-- A host, debug or descriptor-driven access wakes what it reaches, waits and is then performed (R58, R467). DESIGN CHOICE
(log 81): the count of R81 to retention starts with the wake, as for one of the sluice's wakes. -/
def wakeFor (s : State) (pl : Place) : State :=
  match pl with
  | .basin l _ =>
    let s1 := dozeLeave s
    if (lant s1 l).retain.asleep then modLant s1 l fun x => { x with retain := .awake, idle := some 1 } else s1
  | .cistern a =>
    let s1 := dozeLeave s
    if (groupRetain s1 a).asleep then setGroup s1 a .awake else s1
  | .dram _ => dozeLeave s

/-- Every memory that holds one of the `n` bytes from a place on is woken (R58). -/
def wakeRange (s : State) (pl : Place) (n : Nat) : State :=
  match pl with
  | .cistern a =>
    let s1 := dozeLeave s
    { s1 with mem := { s1.mem with
      groups := Vector.ofFn fun g =>
        if groupMeets g.val a n && (s1.mem.groups.get g).asleep then .awake else s1.mem.groups.get g } }
  | .basin .. | .dram _ => wakeFor s pl

/-- A plan access to a memory in retention or still waking is not performed; the job fails (R57). -/
def retainedAccess (s : State) (r : JobRef) : State := raiseFor s .memRetainedAccess [] r

/-- A write by a running job's stage: discarded where the memory is in retention or still waking, and the job fails (R57). -/
def planPut (s : State) (r : JobRef) (pl : Place) (bs : List Byte) : State :=
  if rangeAsleep s pl bs.length then retainedAccess s r else placeWrite s pl bs

/-- The bytes of a basin from a pool-view address on. -/
def poolGet (s : State) (p : Phys) (a n : Nat) : List Byte :=
  (List.range n).flatMap fun i => placeRead s (.basin p (poolToBasin (a + i))) 1

/-- Bytes written to a basin from a pool-view address on. -/
def poolPut (s : State) (p : Phys) (a : Nat) (bs : List Byte) : State :=
  (List.range bs.length).foldl (fun s i => placeWrite s (.basin p (poolToBasin (a + i))) [nth bs i 0]) s

/-! ## Atomics (R53 to R55) -/

/-- New word and returned value. DESIGN CHOICE (log 82): a 32-bit old value comes back zero-extended. -/
def atomicOn (op : AtomicOp) (old : W64) (x : W64) : W64 × W64 :=
  let o32 : Nat := old.toNat % 2 ^ 32
  let hi : Nat := old.toNat / 2 ^ 32
  let put := fun (v : Nat) => BitVec.ofNat 64 (hi * 2 ^ 32 + v % 2 ^ 32)
  match op with
  | .add32 => (put (o32 + x.toNat), BitVec.ofNat 64 o32)
  | .addSat32 =>
    (put (uns 32 (clampInt (-2147483648) 2147483647 (sgn 32 o32 + sgn 32 x.toNat))), BitVec.ofNat 64 o32)
  | .swap32 => (put x.toNat, BitVec.ofNat 64 o32)
  | .swap64 => (x, old)

def atomicBytes : AtomicOp → Nat
  | .swap64 => 8
  | _ => 4

/-- Misaligned, or at a basin bank other than 62 or 63 (R55); DRAM has no atomics (DEDUCED, log 14). -/
def atomicValid (pl : Place) (op : AtomicOp) : Bool :=
  match pl with
  | .basin _ a => a % atomicBytes op == 0 && inPool a
  | .cistern a => a % atomicBytes op == 0
  | .dram _ => false

/-- The job that a requester acts for. -/
def reqJob (s : State) : Requester → Option JobRef
  | .wick l => (jobOn s l).map (·.ref)
  | .rill l => (jobOn s l).map (·.ref)
  | .dma _ plan => plan.map (·.1)
  | .host | .debug => none

/-- A plan-issued request, as opposed to one of the host, of debug or of descriptor-driven DMA. -/
def reqPlanned : Requester → Bool
  | .wick _ | .rill _ => true
  | .dma _ plan => plan.isSome
  | .host | .debug => false

/-- A requester reaches the memories: the host over a link that is up (R472), debug while its functions are not disabled
(R413). -/
def reqOpen (s : State) : Requester → Bool
  | .host => pcieUp s
  | .debug => !s.sec.debugOff
  | .wick _ | .rill _ | .dma .. => true

def failReq (s : State) (req : Requester) (cls : EventClass) : State :=
  match reqJob s req with
  | some r => raiseFor s cls [] r
  | none => raise s cls []

def atomic (s : State) (req : Requester) (pl : Place) (op : AtomicOp) (x : W64) : State :=
  if !atomicValid pl op then reqReturn (failReq s req .memAtomicInvalid) req (BitVec.allOnes 64)
  else if reqPlanned req && placeAsleep s pl then reqReturn (failReq s req .memRetainedAccess) req 0
  else
    let s1 := if reqPlanned req then s else wakeFor s pl
    let n := atomicBytes op
    let r := atomicOn op (word8 (placeRead s1 pl n)) x
    reqReturn (placeWrite s1 pl (leBytes n r.1.toNat)) req r.2

/-! ## The rill-side port of the pool (R48, R50, R51) -/

def setCollide (s : State) : Requester → State
  | .wick l => modLant s l fun x => { x with collide := true }
  | .rill l => modLant s l fun x => { x with collide := true }
  | .dma c _ => { s with mem := { s.mem with dma := s.mem.dma.set c { s.mem.dma.get c with collide := true } } }
  | .host => { s with host := { s.host with collide := true } }
  | .debug => s

/-- A write of enabled bytes to word `w` of a basin. -/
def wordWrite (s : State) (p : Phys) (w : Nat) (be : BitVec 8) (data : List Byte) : State :=
  modLant s p fun l => { l with basin := l.basin.writeN (8 * w) (mergeBytes be (l.basin.readN (8 * w) 8) data) }

/-- An access of the rill side to a basin address, with no fabric access to its word. A plan-issued one to a sleeping
basin is not performed (R57), one of the host or of a descriptor wakes it (R58). An atomic keeps the low address bits
(R53, R55). -/
def rillAlone (s : State) (p : Phys) (addr : Nat) (acc : RillAcc) (req : Requester) : State :=
  let w := addr / 8
  match acc with
  | .atomic op x => atomic s req (.basin p addr) op x
  | .read =>
    if reqPlanned req && (lant s p).retain.asleep then reqReturn (failReq s req .memRetainedAccess) req 0
    else reqReturn (wakeFor s (.basin p (8 * w))) req (word8 ((lant s p).basin.readN (8 * w) 8))
  | .write be data =>
    if reqPlanned req && (lant s p).retain.asleep then failReq s req .memRetainedAccess
    else wordWrite (wakeFor s (.basin p (8 * w))) p w be (leBytes 8 data.toNat)

/-- The accesses that wait at the rill side of a basin are performed, once no instruction follows the one that held them
(R54). -/
def settleRill (s : State) (p : Phys) : State :=
  (lant s p).rill.foldl (fun s r => rillAlone s p r.addr r.acc r.req) (modLant s p fun l => { l with rill := [] })

def settlePlace (s : State) : Place → State
  | .basin p _ => settleRill s p
  | .cistern _ | .dram _ => s

/-! ## Control streams (R94) -/

/-- Whether a command stands next in the control stream of its job's slot, with its stamped cycle. -/
def issues (s : State) (r : JobRef) (cycle : Nat) (op : CtrlOp) : Bool :=
  ((findJob s r).bind (·.stream.head?)) == some ⟨cycle, op⟩

/-- The command has issued. -/
def popStream (s : State) (r : JobRef) : State := modJob s r fun j => { j with stream := j.stream.drop 1 }

/-- Cycles since the grid first started. -/
def absCycle (s : State) (cycle : Nat) : Nat := s.grid.base + cycle

/-- The place is in basin `l`. -/
def inBasin (l : Phys) : Place → Bool
  | .basin q _ => q == l
  | .cistern _ | .dram _ => false

/-- Accesses in flight to a memory at cycle `now` (R56): a flight to or from a basin or from a bank group, a plan's write from
a basin or to a bank group that is not complete, an access that waits at the rill side of a basin. -/
def inFlight (s : State) (now : Nat) : SleepUnit → Bool
  | .basin l =>
    (s.mem.flights.any fun f => f.dests.contains l || f.source.any (inBasin l))
    || (s.mem.recent.any fun w => now < w.until_ && inBasin l w.source)
    || !(lant s l).rill.isEmpty
  | .group g => (s.mem.flights.any fun f => match f.source with
      | some (.cistern a) => groupMeets g.val a f.data.length
      | _ => false)
    || s.mem.recent.any fun w => !w.isDram && now < w.until_ && groupMeets g.val w.start w.len

def sleepNow (busy : Bool) : Retain → Retain
  | .sleeping => if busy then .sleeping else .retained
  | r => r

/-- Sleep commands take effect once the accesses that were in flight have completed (R56). -/
def settleSleep (s : State) (now : Nat) : State :=
  { s with
    lanterns := Vector.ofFn fun p => { lant s p with retain := sleepNow (inFlight s now (.basin p)) (lant s p).retain }
    mem := { s.mem with groups := Vector.ofFn fun g => sleepNow (inFlight s now (.group g)) (s.mem.groups.get g) } }

/-- The slot sequencer issues a command of a job's control stream, in the order of the stream; a command that does not
stand next in it does not issue (DEDUCED, log 83). -/
def issue (s : State) (r : JobRef) (cycle : Nat) (op : CtrlOp) (f : State → State) : State :=
  if issues s r cycle op then f (settleSleep (popStream s r) (absCycle s cycle)) else s

/-- A DMA access that a plan issues stands next in its job's control stream, with its stamped cycle (R94); any other request
needs no stream. -/
def dmaIssue (s : State) (req : Requester) (acc : DmaAcc) (f : State → State) : State :=
  match req with
  | .dma c (some (r, cycle)) => issue s r cycle (.dma c acc) f
  | _ => f s

/-! ## Planned transfers -/

/-- A byte of the cistern or DRAM as a plan reads it: free while a plan write to it may be incomplete. -/
def planByte (s : State) (j : Option Job) (isDram : Bool) (cycle a : Nat) (v : Byte) : Byte :=
  if s.mem.recent.any fun w => w.isDram == isDram && w.start ≤ a && a < w.start + w.len && absCycle s cycle < w.until_ then
    Config.earlyByte ((j.map (·.img.bodyDigest)).getD 0) ((j.map (·.slot)).getD 0) cycle a
  else v

/-- What a plan of job `r` reads at a place in cycle `cycle` of the slot. -/
def planRead (s : State) (r : JobRef) (pl : Place) (cycle n : Nat) : List Byte :=
  let bs := placeRead s pl n
  let j := findJob s r
  match pl with
  | .cistern a => (List.range n).map fun i => planByte s j false cycle (a + i) (nth bs i 0)
  | .dram a => (List.range n).map fun i => planByte s j true cycle (a + i) (nth bs i 0)
  | .basin _ _ => bs

def noteWrite (s : State) (isDram : Bool) (start len now until_ : Nat) (source : Place) : State :=
  { s with mem := { s.mem with
    recent := ⟨s.mem.nextId, isDram, start, len, until_, source, []⟩ :: s.mem.recent.filter fun w => now < w.until_
    nextId := s.mem.nextId + 1 } }

/-- A transfer takes flight; its data is released after its fixed latency. -/
def launch (s : State) (f : Flight) : State :=
  { s with
    mem := { s.mem with flights := s.mem.flights ++ [{ f with id := s.mem.nextId }], nextId := s.mem.nextId + 1 } }

/-- A flight of data to lanterns given by their physical numbers. -/
def flightTo (r : JobRef) (due : Nat) (dests : List Phys) (addr : Nat) (data : List Byte) : Flight :=
  { id := 0, job := r, due, cistern := false, dests, addr, data, source := none, hub := false, done := [], taken := [] }

/-- The basin place of a logical lantern. -/
def logicalPlace (s : State) (n : Logical) (addr : Nat) : Option Place :=
  (physOf s n.val).map fun p => .basin p addr

def windowEnd (cycle : Nat) : Nat := (cycle / 625 + 1) * 625

/-- An access outside a plan window is not performed (R66). -/
def windowMiss (s : State) (r : JobRef) : State := raiseFor s .memDdrWindow [] r

/-- A read by a plan into its basin: `ok` says whether it is performed; a read that is not returns zeros. -/
def planFetch (s : State) (x : PlanXfer) (pl : Place) (ok : Bool) (latency : Nat) : State :=
  let s1 := settlePlace s pl
  let now := absCycle s x.cycle
  launch s1 { flightTo x.job (now + latency) (physOf s x.x.basin.val).toList x.x.addr
      (if ok then planRead s1 x.job pl x.cycle x.x.bytes else zeros x.x.bytes) with
    cistern := match pl with | .cistern _ => true | _ => false
    source := if ok then some pl else none }

/-- A read by a plan of a place that may sleep (R57). -/
def fetchAwake (s : State) (x : PlanXfer) (pl : Place) (latency : Nat) : State :=
  if rangeAsleep s pl x.x.bytes then retainedAccess (planFetch s x pl false latency) x.job
  else planFetch s x pl true latency

/-- A write by a plan from its basin to a far place, complete by `until_` (R60, R66); not performed where either memory
sleeps (R57). -/
def planStore (s : State) (x : PlanXfer) (pl : Place) (isDram : Bool) (until_ : Nat) : State :=
  match logicalPlace s x.x.basin x.x.addr with
  | none => s
  | some src =>
    if rangeAsleep s pl x.x.bytes || placeAsleep s src then retainedAccess s x.job
    else
      let s1 := settlePlace s src
      noteWrite (placeWrite s1 pl (placeRead s1 src x.x.bytes)) isDram x.x.far x.x.bytes (absCycle s x.cycle) until_ src

/-! ## Delivery -/

/-- Line `k` of a flight (R95, R98): its address and bytes. A line is an aligned 64 B. -/
def lineOf (f : Flight) (k : Nat) : Nat × List Byte :=
  let lo := max f.addr (64 * (f.addr / 64 + k))
  (lo, (f.data.drop (lo - f.addr)).take (64 * (f.addr / 64 + k + 1) - lo))

def lineCount (f : Flight) : Nat := (f.addr % 64 + f.data.length + 63) / 64

/-- The lines of a flight that have not yet reached a destination (R50). -/
def linesLeft (f : Flight) (l : Phys) : List (Nat × List Byte) :=
  ((List.range (lineCount f)).filter fun k => !f.done.contains (l, k)).map (lineOf f)

/-- Data reaches one destination basin. -/
def deliverTo (f : Flight) (s : State) (l : Phys) : State :=
  if placeAsleep s (.basin l f.addr) then retainedAccess s f.job
  else if f.done.all fun d => d.1 != l then placeWrite s (.basin l f.addr) f.data
  else (linesLeft f l).foldl (fun s x => placeWrite s (.basin l x.1) x.2) s

def deliverAll (s : State) (f : Flight) : State :=
  let s1 := f.dests.foldl (deliverTo f) s
  if f.hub then { s1 with mem := { s1.mem with hubIn := s1.mem.hubIn ++ [(f.job, f.data)] } } else s1

/-! ## The device memory window (R312, R507) -/

def accBytes : AccSize → Nat
  | .b4 => 4 | .b8 => 8 | .other => 0

def accOk (size : AccSize) (offset : Nat) : Bool :=
  match size with
  | .b4 => offset % 4 == 0
  | .b8 => offset % 8 == 0
  | .other => false

/-- An access completed as Unsupported Request. -/
def unsupported (s : State) : State := { s with host := { s.host with ur := true } }

/-- The place that the window shows at an offset; none where it reads 0 and ignores writes. -/
def winPlace (s : State) (off : Nat) : Option Place :=
  let w := s.mem.memWin.toNat
  let addr := bits w 21 8 * 0x40_0000 + off
  match bits w 1 0 with
  | 0 => if addr < basinSize then (physOf s (bits w 7 3)).map fun p => .basin p addr else none
  | 1 => if cisternHas s addr then some (.cistern addr) else none
  | 2 => if dramHas s addr then some (.dram addr) else none
  | _ => none

def winAccess (s : State) (pl : Place) (n : Nat) (write : Bool) (data : W64) : State :=
  let s1 := wakeFor (settlePlace s pl) pl
  match pl with
  | .dram a =>
    if hostWaits s1 then { s1 with mem := { s1.mem with waits := s1.mem.waits ++ [⟨a, n, write, data⟩] } }
    else hostDram s1 ⟨a, n, write, data⟩
  | _ => if write then placeWrite s1 pl (leBytes n data.toNat) else reqReturn s1 .host (word8 (placeRead s1 pl n))

/-- An access to the window at an offset. DESIGN CHOICE (log 133): while the dies are in reset it reads 0 and ignores writes. -/
def memWindow (s : State) (off : Nat) (size : AccSize) (write : Bool) (data : W64) : State :=
  if !accOk size off then unsupported s
  else if diesReset s then (if write then s else reqReturn s .host 0)
  else match winPlace s off with
    | none =>
      let s1 := if bits s.mem.memWin.toNat 1 0 < 3 then dozeLeave s else s
      if write then s1 else reqReturn s1 .host 0
    | some pl => winAccess s pl (accBytes size) write data

/-! ## Meanings -/

/-- `ATOMIC_OPERATION` (R53 to R55). -/
def execAtomicOperation (req : Requester) (place : Place) (op : AtomicOp) (operand : W64) (s : State) : Out :=
  serve s fun s =>
    if reqOpen s req then dmaIssue s req (.atomic place op operand) fun s => atomic (settlePlace s place) req place op operand
    else s

/-- A rill transfer (R97): between lanterns 64 cycles, between a lantern and the hub 96. DESIGN CHOICE (log 119): R97 names no
place in the hub; the bytes from the hub are those the control stream's command carries, and the bytes to it end in
`MemUnit.hubIn`. -/
def rillTransfer (s : State) (x : PlanXfer) (far : RillEnd) : State :=
  let due := absCycle s x.cycle
  match far with
  | .lantern src =>
    match logicalPlace s src x.x.far with
    | some pl => fetchAwake s x pl 64
    | none => s
  | .fromHub data => launch s (flightTo x.job (due + 96) (physOf s x.x.basin.val).toList x.x.addr (slice data 0 x.x.bytes))
  | .toHub =>
    match logicalPlace s x.x.basin x.x.addr with
    | some pl =>
      let asleep := placeAsleep s pl
      let s0 := settlePlace s pl
      let s1 := launch s0 { flightTo x.job (due + 96) [] 0 (if asleep then zeros x.x.bytes else placeRead s0 pl x.x.bytes)
        with hub := true, source := if asleep then none else some pl }
      if asleep then retainedAccess s1 x.job else s1
    | none => s

/-- `RILL_TRANSFER` (R94, R97). -/
def execRillTransfer (x : PlanXfer) (far : RillEnd) (s : State) : Out :=
  serve s fun s => issue s x.job x.cycle (.rill x.x far) fun s => rillTransfer s x far

/-- One line from a basin to every basin of the mask, 64 cycles after issue. DESIGN CHOICE (log 84): the spec names no
source of the line; it is the 64 B of a basin that the command names. -/
def multicast (s : State) (job : JobRef) (cycle : Nat) (mask : W32) (addr : Nat) (pl : Place) : State :=
  let asleep := placeAsleep s pl
  let s0 := settlePlace s pl
  let s1 := launch s0 { flightTo job (absCycle s cycle + 64) (maskPhys s mask) addr
    (if asleep then zeros 64 else placeRead s0 pl 64) with source := if asleep then none else some pl }
  if asleep then retainedAccess s1 job else s1

/-- `MULTICAST` (R94, R98). -/
def execMulticast (job : JobRef) (cycle : Nat) (mask : W32) (addr : Nat) (src : Logical) (srcAddr : Nat) (s : State) :
    Out :=
  serve s fun s => issue s job cycle (.multicast mask addr src srcAddr) fun s =>
    match logicalPlace s src srcAddr with
    | some pl => multicast s job cycle mask addr pl
    | none => s

/-- `CISTERN_READ` (R57, R60, R94). -/
def execCisternRead (x : PlanXfer) (s : State) : Out :=
  serve s fun s => issue s x.job x.cycle (.cisternRead x.x) fun s => fetchAwake s x (.cistern x.x.far) 320

/-- `CISTERN_WRITE` (R57, R60, R94). -/
def execCisternWrite (x : PlanXfer) (s : State) : Out :=
  serve s fun s => issue s x.job x.cycle (.cisternWrite x.x) fun s =>
    planStore s x (.cistern x.x.far) false (absCycle s x.cycle + 320)

/-- `DRAM_READ` (R66, R94). -/
def execDramRead (x : PlanXfer) (s : State) : Out :=
  serve s fun s => issue s x.job x.cycle (.dramRead x.x) fun s =>
    if planWindow s x.cycle then planFetch s x (.dram x.x.far) true 1024
    else windowMiss (planFetch s x (.dram x.x.far) false 1024) x.job

/-- `DRAM_WRITE` (R66, R94). -/
def execDramWrite (x : PlanXfer) (s : State) : Out :=
  serve s fun s => issue s x.job x.cycle (.dramWrite x.x) fun s =>
    if planWindow s x.cycle then planStore s x (.dram x.x.far) true (absCycle s (windowEnd x.cycle))
    else windowMiss s x.job

/-- `PLANNED_DELIVERY` (R60, R62, R97, R98, R100): the latency of a transfer has elapsed. -/
def execPlannedDelivery (id : Nat) (arrived : Bool) (s : State) : Out :=
  serve s fun s =>
    match s.mem.flights.find? fun f => f.id == id with
    | none => s
    | some f =>
      let s1 := { s with mem := { s.mem with flights := s.mem.flights.filter fun g => g.id != id } }
      if arrived then settleSleep (deliverAll s1 f) f.due
      else raise s1 (if f.cistern then .cisternLate else .rillLate) []

/-- A sleep command to a memory; one still waking enters retention at once (DESIGN CHOICE, log 85). -/
def startSleep (busy : Bool) : Retain → Retain
  | .retained => .retained
  | .waking _ => .retained
  | .awake | .sleeping => if busy then .sleeping else .retained

/-- The memory that a control stream names. -/
def unitOf (s : State) : PlanUnit → Option SleepUnit
  | .basin n => (physOf s n.val).map .basin
  | .group g => some (.group g)

def modRetain (s : State) (u : SleepUnit) (f : Retain → Retain) : State :=
  match u with
  | .basin l => modLant s l fun x => { x with retain := f x.retain }
  | .group g => { s with mem := { s.mem with groups := s.mem.groups.set g (f (s.mem.groups.get g)) } }

/-- `MEMORY_SLEEP` (R56, R94). -/
def execMemorySleep (job : JobRef) (cycle : Nat) (unit : PlanUnit) (s : State) : Out :=
  serve s fun s => issue s job cycle (.sleep unit) fun s =>
    match unitOf s unit with
    | some u => modRetain s u (startSleep (inFlight s (absCycle s cycle) u))
    | none => s

def startWake (until_ : Nat) : Retain → Retain
  | .retained => .waking until_
  | r => r

/-- A basin is accessible 12 µs after its wake issues, a bank group 20 µs after. -/
def wakeUs : SleepUnit → Nat
  | .basin _ => 12
  | .group _ => 20

/-- `MEMORY_WAKE` (R56, R94). -/
def execMemoryWake (job : JobRef) (cycle : Nat) (unit : PlanUnit) (s : State) : Out :=
  serve s fun s => issue s job cycle (.wake unit) fun s =>
    match unitOf s unit with
    | some u => modRetain s u (startWake (s.pwr.ticks + wakeUs u * ticksPerUs))
    | none => s

def endWake : Retain → Retain
  | .waking _ => .awake
  | r => r

/-- `MEMORY_WAKE_COMPLETE` (R56, R81): an undispatched lantern's count to retention starts. DESIGN CHOICE (log 81): whatever
woke it. -/
def execMemoryWakeComplete (unit : SleepUnit) (s : State) : Out :=
  serve s fun s =>
    match unit with
    | .basin l => modLant s l fun x =>
        match x.retain with
        | .waking _ => { x with retain := .awake, idle := if x.job.isNone then some 1 else x.idle }
        | _ => x
    | .group g => { s with mem := { s.mem with groups := s.mem.groups.set g (endWake (s.mem.groups.get g)) } }

/-- `DDR_REFRESH_LIMIT` (R68): the DRAM on a channel in service asks for more refreshes than the windows hold. -/
def execDdrRefreshLimit (channel : Fin 24) (s : State) : Out :=
  serve s fun s => if diePresent s (channel.val / 6) then raise s .ddrRefreshLimit [] else s

/-- `D2D_RETRAIN` (R100): a module of a die in service retrains. DESIGN CHOICE (log 86): `RILL_LATE` follows each retrain. -/
def execD2dRetrain (die : Fin 4) (s : State) : Out :=
  serve s fun s => if diePresent s die.val then raise s .rillLate [] else s

/-- `MEM_WINDOW_ACCESS` (R312, R507). -/
def execMemWindowAccess (offset : BitVec 22) (size : AccSize) (write : Bool) (data : W64) (s : State) : Out :=
  busLive s fun s => memWindow s offset.toNat size write data

/-- `DEBUG_ACCESS` (R45, R58, R413): one 8 B word; none answers while the JTAG functions are disabled, and one in reset
dies reads 0 (log 133). -/
def execDebugAccess (place : Place) (write : Bool) (data : W64) (s : State) : Out :=
  live s fun s =>
    if s.sec.debugOff then s
    else if diesReset s then (if write then s else reqReturn s .debug 0)
    else
      let s1 := wakeFor (settlePlace s place) (placeWord place)
      if write then placeWrite s1 (placeWord place) (leBytes 8 data.toNat)
      else reqReturn s1 .debug (word8 (placeRead s1 (placeWord place) 8))

end Sys2Proof.Machine
end

