-- ==== Sys2Proof/Machine/World.lean ====
section
/-! DEFINITION. The parts of the world model (R105 to R141): brick directory and byte layouts, the fusion of voxels and of
whole frame sets, inferred bricks, hot bricks, signed distance, windows, obstacle primitives, clusters and tracks. -/

namespace Sys2Proof.Machine

open Sys2Proof

def voxIdx (x y z : Nat) : Nat := x + 8 * y + 64 * z

/-! ## The brick directory (R118 to R120) -/

def brickKey (bx by_ bz : Nat) : Nat := bx + 128 * by_ + 16384 * bz

def dirProbe (k : Nat) (i : Nat) : Nat := (k * 0x9E37 / 2 ^ 18 % 262144 + i) % 262144

def DirEntry.key (e : DirEntry) : Nat := brickKey e.bx e.by_ e.bz

/-- The lookup of R119 over the remaining probes. -/
def dirScan (d : SMap DirEntry) (k : Nat) : List Nat → Option Nat
  | [] => none
  | i :: t =>
    match d.find (dirProbe k i) with
    | none => none
    | some e =>
      if e.valid && e.key == k then some (dirProbe k i)
      else if !e.valid && !e.tomb then none
      else dirScan d k t

def dirLookup (d : SMap DirEntry) (k : Nat) : Option Nat := dirScan d k (List.range 16)

/-- The entry an insertion takes: the first TOMB on the path, or the first entry that is neither VALID nor TOMB
(DEDUCED, log 16: the TOMB when the lookup met one). -/
def dirSlot (d : SMap DirEntry) (k : Nat) : Option Nat :=
  let path := (List.range 16).map (dirProbe k)
  let isTomb := fun j => (d.find j).any fun e => e.tomb && !e.valid
  let isFree := fun j => (d.find j).all fun e => !e.valid && !e.tomb
  let upto := path.takeWhile fun j => !isFree j
  match upto.find? isTomb with
  | some j => some j
  | none => path.find? isFree

/-- The 8 coarse voxels of a brick. -/
def coarseOf (bx by_ bz : Nat) : List (Nat × Nat × Nat) :=
  [0, 1].flatMap fun dx => [0, 1].flatMap fun dy => [0, 1].map fun dz => (2 * bx + dx, 2 * by_ + dy, 2 * bz + dz)

def coarseKey (c : Nat × Nat × Nat) : Nat := c.1 + 256 * c.2.1 + 65536 * c.2.2

/-- A coarse voxel never seen is occupied; its distance is at the lower clamp. -/
def coarseGet (w : World) (c : Nat × Nat × Nat) : Coarse :=
  (w.coarse.find (coarseKey c)).getD ⟨false, true, false, false, -32767⟩

def coarsePut (w : World) (c : Nat × Nat × Nat) (v : Coarse) : World :=
  { w with coarse := w.coarse.put (coarseKey c) v }

def setOverflow (w : World) (bx by_ bz : Nat) (b : Bool) : World :=
  (coarseOf bx by_ bz).foldl (fun w c => coarsePut w c { coarseGet w c with overflow := b }) w

def blankVoxel : Voxel := ⟨0, 0, false, false, 0⟩

def voxGet (w : World) (j v : Nat) : Voxel := (w.voxels.find (512 * j + v)).getD blankVoxel

def voxPut (w : World) (j v : Nat) (x : Voxel) : World := { w with voxels := w.voxels.put (512 * j + v) x }

/-- A brick is found or allocated; a refused allocation of a brick that the run touches (`count`) is counted and, once an epoch,
logged. DESIGN CHOICE (log 93): the payload of directory entry j is the j-th of the payload region. -/
def brickFor (s : State) (count : Bool) (bx by_ bz : Nat) : State × Option Nat :=
  let w := s.world
  let k := brickKey bx by_ bz
  match dirLookup w.dir k with
  | some j => (s, some j)
  | none =>
    match dirSlot w.dir k with
    | some j =>
      let e : DirEntry := ⟨bx, by_, bz, true, false, false, false, w.places.payload / 2048 + j, 0xFFFF, 0, 0⟩
      let w1 := { w with
        dir := w.dir.put j e, voxels := w.voxels.filter fun v => v.1 / 512 != j
        refused := w.refused.filter (· != (bx, by_, bz)) }
      ({ s with world := setOverflow w1 bx by_ bz false }, some j)
    | none =>
      let s1 := { s with world := { setOverflow w bx by_ bz true with
        dirFull := if count then satInc w.dirFull else w.dirFull, fullLogged := w.fullLogged || count
        refused := (w.refused.filter (· != (bx, by_, bz))) ++ [(bx, by_, bz)] } }
      (if w.fullLogged || !count then s1 else raise s1 .brickDirFull [], none)

/-- Bricks that the directory holds, in ascending index. -/
def bricks (w : World) : List (Nat × DirEntry) := w.dir.filter fun e => e.2.valid

def modBrick (w : World) (j : Nat) (f : DirEntry → DirEntry) : World :=
  match w.dir.find j with
  | some e => { w with dir := w.dir.put j (f e) }
  | none => w

/-! ## Byte layouts (R113, R118, R125) -/

def voxelBytes (v : Voxel) : List Byte :=
  leBytes 4 (uns 8 v.tsdf + 256 * v.weight + 16384 * b2n v.inferred + 32768 * b2n v.occupied + 65536 * uns 12 v.dist)

def dirBytes (e : DirEntry) : List Byte :=
  leBytes 4 (brickKey e.bx e.by_ e.bz + 2 ^ 20 * b2n e.valid + 2 ^ 21 * b2n e.tomb + 2 ^ 22 * b2n e.hot + 2 ^ 23 * b2n e.hasInf)
    ++ leBytes 4 e.payload ++ leBytes 2 e.hotSlot ++ leBytes 2 e.free ++ leBytes 4 e.infEpoch.toNat

def coarseByte (c : Coarse) : Byte :=
  BitVec.ofNat 8 (b2n c.seen + 2 * b2n c.occupied + 4 * b2n c.bricked + 8 * b2n c.overflow)

/-- The directory and the brick payloads as memory holds them, with the hot copies (R106, R118, R122). -/
def storeBricks (s : State) (r : JobRef) : State :=
  let p := s.world.places
  s.world.dir.foldl (fun s e =>
    let s1 := planPut s r (.cistern (p.directory + 16 * e.1)) (dirBytes e.2)
    if !e.2.valid then s1
    else
      let bs := (List.range 512).flatMap fun v => voxelBytes (voxGet s1.world e.1 v)
      let s2 := placeWrite s1 (.dram (2048 * e.2.payload)) bs
      if e.2.hot then planPut s2 r (.cistern (p.hot + 2048 * e.2.hotSlot)) bs else s2) s

/-- The coarse state and distance fields. DESIGN CHOICE (log 94): voxel (x, y, z) is element x + 256 y + 65,536 z. -/
def storeCoarse (s : State) (r : JobRef) : State :=
  let p := s.world.places
  s.world.coarse.foldl (fun s e =>
    planPut (planPut s r (.cistern (p.coarseState + e.1)) [coarseByte e.2]) r (.cistern (p.coarseDist + 2 * e.1))
      (leBytes 2 (uns 16 e.2.dist))) s

/-- Bytes at addresses of a structure that begins at `base` in the cistern, as a running job writes them: each byte is
discarded where it meets a sleeping bank group, and the job fails once (R57). -/
def stageStore (r : JobRef) (s : State) (base : Nat) (bs : List (Nat × Byte)) : State :=
  let cold := fun (e : Nat × Byte) => (groupRetain s (base + e.1)).asleep
  let s1 := storeAt s base (bs.filter fun e => !cold e)
  if bs.any cold then retainedAccess s1 r else s1

/-! ## One voxel (R114 to R116) -/

/-- The pixel that updates a voxel whose depth is `centre`: smallest |d| within the truncation band, then lowest index;
its m. -/
def bestPixel (centre : Rat) (xs : List Pixel) : Option Int :=
  let cand := xs.filterMap fun x =>
    let d : Rat := x.depth - centre
    if absRat d ≤ 16 then some (absRat d, x.index, d) else none
  match cand with
  | [] => none
  | c :: t =>
    let b := t.foldl (fun (a : Rat × Nat × Rat) e => if e.1 < a.1 ∨ (e.1 = a.1 ∧ e.2.1 < a.2.1) then e else a) c
    some (clampInt (-127) 127 (rhe (b.2.2 * 8)))

def fuse (wMax : Nat) (v : Voxel) (m : Int) : Voxel :=
  if v.weight = 0 then { v with tsdf := m, weight := 1 }
  else { v with
    tsdf := rhe (((v.weight : Rat) * v.tsdf + m) / (v.weight + 1)), weight := min (v.weight + 1) wMax }

def inConveyor (r : Recipe) (p : Vec3) : Bool := r.conveyor.any fun b => inBox b p

/-- OCCUPIED at the end of fusion: not in the conveyor region; an unexpired inferred voxel keeps the bit of R126
(DEDUCED, log 18). -/
def occupancy (r : Recipe) (v : Voxel) (centre : Vec3) : Bool :=
  if inConveyor r centre then false
  else if r.wOcc ≤ v.weight then v.tsdf ≤ 0
  else if v.inferred then v.occupied else true

def brickVoxCentre (r : Recipe) (bx by_ bz v : Nat) : Vec3 :=
  fineCentre r (8 * bx + v % 8) (8 * by_ + v / 8 % 8) (8 * bz + v / 64)

def noteChange (w : World) (j : Nat) (old new : Bool) : World :=
  if old == new || w.changed.contains j then w else { w with changed := w.changed ++ [j] }

/-- Each voxel of a brick goes through `f`; a change of OCCUPIED is noted. -/
def mapBrick (w : World) (j : Nat) (f : Nat → Voxel → Voxel) : World :=
  (List.range 512).foldl (fun w v =>
    let x := voxGet w j v
    let y := f v x
    if x == y then w else voxPut (noteChange w j x.occupied y.occupied) j v y) w

/-! ## Pixels (R111, R112) -/

/-- Whether a pixel's point lies in a robot's or a carried part's inflated sphere at the frame's start-of-frame. -/
def selfSeen (s : State) (parts : SMap CarriedPart) (r : Recipe) (c : CamCfg) (ns : Nat) (x : Pixel) : Bool :=
  r.robots.any fun m =>
    (robotSpheres parts r m.1 m.2 (jointsAt s r m.1 m.2 ns)).any (inSphere r.selfFilter (backProject c x))

/-- Acceptance of a depth pixel (R111); `parts` are the carried parts that the job was dispatched with (R262). -/
def pixelOk (s : State) (parts : SMap CarriedPart) (r : Recipe) (c : CamCfg) (ns : Nat) (x : Pixel) : Bool :=
  x.depth != 0 && r.depthMin ≤ x.depth && x.depth ≤ r.depthMax && (c.conf.isNone || r.confMin ≤ x.conf)
    && !selfSeen s parts r c ns x

def fineInside (r : Recipe) (gx gy gz : Int) : Bool :=
  let v := volumeOf r
  0 ≤ gx && 0 ≤ gy && 0 ≤ gz && gx < 4 * v.2.1 && gy < 4 * v.2.2.1 && gz < 4 * v.2.2.2

def axisMax (v : Vec3) : Rat := max (absRat v.x) (max (absRat v.y) (absRat v.z))

def offsets (n : Nat) : List Int := (List.range (2 * n + 1)).map fun i => (i : Int) - n

/-- The fine voxels in a pixel's truncation band: those that its ray meets and whose centre's depth lies within 16 mm of
the measured depth (DEDUCED, log 95). -/
def bandVoxels (r : Recipe) (c : CamCfg) (x : Pixel) : List (Nat × Nat × Nat) :=
  let d := camRay c x.index
  let q := Vec3.sub (backProject c x) (volumeOf r).1
  let n := (axisMax d * 4).ceil.toNat + 1
  let at_ := fun (v : Rat) (o : Int) => (v / 4).floor + o
  (offsets n).flatMap fun dz => (offsets n).flatMap fun dy => (offsets n).filterMap fun dx =>
    let g := (at_ q.x dx, at_ q.y dy, at_ q.z dz)
    let p := fineCentre r g.1 g.2.1 g.2.2
    let z := axisDepth c p
    if fineInside r g.1 g.2.1 g.2.2 && absRat (x.depth - z) ≤ 16 && meetsBox (cube p 2) c.trans d 0 (x.depth + 32) then
      some (g.1.toNat, g.2.1.toNat, g.2.2.toNat) else none

/-- The coarse voxels through which an accepted ray passes or in which it ends (R125). -/
def seenVoxels (r : Recipe) (c : CamCfg) (x : Pixel) : List (Nat × Nat × Nat) :=
  let v := volumeOf r
  let a := Vec3.sub c.trans v.1
  let b := Vec3.sub (backProject c x) v.1
  let along := fun (p q : Rat) (n : Nat) => (gridRange 16 (min p q) (max p q)).filter fun (i : Int) => 0 ≤ i ∧ i < n
  ((along a.x b.x v.2.1).flatMap fun i => (along a.y b.y v.2.2.1).flatMap fun j => (along a.z b.z v.2.2.2).map fun k =>
    (i.toNat, j.toNat, k.toNat)).filter fun e =>
      meetsBox (cube (Vec3.add v.1 ⟨16 * e.1 + 8, 16 * e.2.1 + 8, 16 * e.2.2 + 8⟩) 8) c.trans (camRay c x.index) 0 x.depth

/-! ## A frame set (R114, R117, R120) -/

/-- A frame of the set with its camera and its accepted pixels. -/
structure SetView where
  cam    : CamCfg
  pixels : List Pixel
  deriving DecidableEq, Repr

/-- The frames of a set in ascending port number. -/
def viewsOf (s : State) (parts : SMap CarriedPart) (r : Recipe) (set : FrameSet) : List SetView :=
  (List.finRange 4).filterMap fun p =>
    match set.frames.find? fun f => f.port == p, r.cameras.find? fun c => c.port == p with
    | some f, some c => some ⟨c, f.pixels.filter (pixelOk s parts r c f.sofNs)⟩
    | _, _ => none

def brickOf (g : Nat × Nat × Nat) : Nat × Nat × Nat := (g.1 / 8, g.2.1 / 8, g.2.2 / 8)

def keyOf (b : Nat × Nat × Nat) : Nat := brickKey b.1 b.2.1 b.2.2

/-- Bricks by ascending key, each once. -/
def brickList (l : List (Nat × Nat × Nat)) : List (Nat × Nat × Nat) :=
  (l.dedup).insertionSort fun a b => keyOf a ≤ keyOf b

/-- The bricks that the set touches. -/
def touchedBricks (r : Recipe) (vs : List SetView) : List (Nat × Nat × Nat) :=
  brickList (vs.flatMap fun v => v.pixels.flatMap fun x => (bandVoxels r v.cam x).map brickOf)

/-- Absent bricks are allocated. DESIGN CHOICE (log 93): in ascending brick key. The directory indices of the bricks held,
ascending. -/
def allocate (s : State) (count : Bool) (bs : List (Nat × Nat × Nat)) : State × List Nat :=
  let x := bs.foldl (fun (a : State × List Nat) b =>
    let y := brickFor a.1 count b.1 b.2.1 b.2.2
    (y.1, a.2 ++ y.2.toList)) (s, [])
  (x.1, x.2.insertionSort (· ≤ ·))

/-- One camera's pixels update one brick. -/
def fuseBrick (r : Recipe) (v : SetView) (w : World) (j : Nat) : World :=
  match w.dir.find j with
  | none => w
  | some e =>
    let near := v.pixels.filterMap fun x =>
      let l := (bandVoxels r v.cam x).filter fun g => brickOf g == (e.bx, e.by_, e.bz)
      if l.isEmpty then none else some (x, l)
    mapBrick w j fun i y =>
      let g := (8 * e.bx + i % 8, 8 * e.by_ + i / 8 % 8, 8 * e.bz + i / 64)
      let xs := (near.filter fun n => n.2.contains g).map (·.1)
      match bestPixel (axisDepth v.cam (fineCentre r g.1 g.2.1 g.2.2)) xs with
      | some m => fuse r.wMax y m
      | none => y

def seeAll (r : Recipe) (vs : List SetView) (w : World) : World :=
  (vs.flatMap fun v => v.pixels.flatMap (seenVoxels r v.cam)).foldl
    (fun w c => if (coarseGet w c).seen then w else coarsePut w c { coarseGet w c with seen := true }) w

/-- A brick that the budget cuts off is solid for one epoch, but for its voxels in the conveyor region (R116, R117). -/
def cutOffBrick (r : Recipe) (w : World) (j : Nat) : World :=
  match w.dir.find j with
  | none => w
  | some e =>
    mapBrick { w with fuseCutoff := satInc w.fuseCutoff } j fun i y =>
      { y with occupied := y.occupied || !inConveyor r (brickVoxCentre r e.bx e.by_ e.bz i) }

/-! ## Inferred bricks (R126, R127) -/

/-- One entry of the inbox; `touched` are the bricks whose allocation the run has already tried. Inside the conveyor region no voxel
becomes OCCUPIED (R116, log 18), and none becomes INFERRED there (DESIGN CHOICE, log 150). -/
def mergeEntry (r : Recipe) (touched : List (Nat × Nat × Nat)) (a : State × List Nat) (x : BitVec 20 × BitVec 512) :
    State × List Nat :=
  let k := x.1.toNat
  let b := (k % 128, k / 128 % 128, k / 16384)
  match brickFor a.1 (!touched.contains b) b.1 b.2.1 b.2.2 with
  | (s1, none) => (s1, a.2)
  | (s1, some d) =>
    let w := mapBrick s1.world d fun i y =>
      if !x.2.getLsbD i || r.wOcc ≤ y.weight || inConveyor r (brickVoxCentre r b.1 b.2.1 b.2.2 i) then y
      else { y with occupied := true, inferred := true }
    ({ s1 with world := modBrick w d fun e => { e with hasInf := true, infEpoch := nextEpoch s1.world.epoch } },
      a.2 ++ [d])

/-- Every entry of the delivery that a run merges; the bricks that received one. -/
def mergeInbox (s : State) (r : Recipe) (touched : List (Nat × Nat × Nat)) (entries : List (BitVec 20 × BitVec 512)) :
    State × List Nat :=
  entries.foldl (mergeEntry r touched) (s, [])

/-- Bytes of a place as a running job's stage reads them: zeros where the memory is in retention or still waking (R57). -/
def stageGet (s : State) (pl : Place) (n : Nat) : List Byte := if rangeAsleep s pl n then zeros n else placeRead s pl n

/-- The entry at an address of the cistern (R265). -/
def inboxEntryAt (s : State) (a : Nat) : BitVec 20 × BitVec 512 :=
  (BitVec.ofNat 20 (leNat (stageGet s (.cistern a) 4)), BitVec.ofNat 512 (leNat (stageGet s (.cistern (a + 64)) 64)))

/-- The entries that an inbox holds. -/
def inboxEntries (s : State) (i : Fin 2) : List (BitVec 20 × BitVec 512) :=
  (List.range (s.world.inboxes.get i).count).map fun n => inboxEntryAt s (nth s.world.places.inboxes i.val 0 + 128 * n)

/-- OCCUPIED of one brick at the end of fusion; an observed voxel loses INFERRED. -/
def occupyBrick (r : Recipe) (w : World) (j : Nat) : World :=
  match w.dir.find j with
  | none => w
  | some e =>
    mapBrick w j fun i y =>
      let z := if r.wOcc ≤ y.weight then { y with inferred := false } else y
      { z with occupied := occupancy r z (brickVoxCentre r e.bx e.by_ e.bz i) }

/-- Inferred voxels whose time has passed. DESIGN CHOICE (log 122): the epoch of R127 is the one that the run produces, as it is
in R126. DESIGN CHOICE (log 149): the voxels that R127 clears stay free until OCCUPIED is next formed for the brick, where R115
makes them occupied. -/
def expireBrick (r : Recipe) (w : World) (b : Nat × DirEntry) : World :=
  if !b.2.hasInf || (nextEpoch w.epoch - b.2.infEpoch).toNat ≤ r.inferredTtl then w
  else modBrick (mapBrick w b.1 fun _ y => if y.weight < r.wOcc then { y with inferred := false, occupied := false } else y)
    b.1 fun e => { e with hasInf := false }

/-! ## Freed and hot bricks (R121, R122) -/

def whollyFree (r : Recipe) (w : World) (d : Nat) : Bool :=
  (List.range 512).all fun v =>
    let x := voxGet w d v
    x.tsdf == 127 && r.wOcc ≤ x.weight && !x.occupied && !x.inferred

def ageBrick (r : Recipe) (w : World) (b : Nat × DirEntry) : World :=
  let n := if whollyFree r w b.1 then b.2.free + 1 else 0
  if 64 ≤ n then
    { w with
      dir := w.dir.put b.1 { b.2 with valid := false, tomb := true, hot := false, hotSlot := 0xFFFF, free := 0 }
      voxels := w.voxels.filter fun v => v.1 / 512 != b.1 }
  else { w with dir := w.dir.put b.1 { b.2 with free := n } }

/-- Extent of a window: 960 × 960 × 800 mm. -/
def windowBox (o : Vec3) : Box := ⟨o, Vec3.add o ⟨960, 960, 800⟩⟩

def brickBox (r : Recipe) (bx by_ bz : Nat) : Box :=
  let lo := Vec3.add (volumeOf r).1 ⟨32 * bx, 32 * by_, 32 * bz⟩
  ⟨lo, Vec3.add lo ⟨32, 32, 32⟩⟩

def meets (a b : Box) : Bool :=
  a.lo.x < b.hi.x && b.lo.x < a.hi.x && a.lo.y < b.hi.y && b.lo.y < a.hi.y && a.lo.z < b.hi.z && b.lo.z < a.hi.z

/-- The hot slots in ascending directory index; a brick that finds none is not hot. -/
def assignHot (s : State) (r : Recipe) : State :=
  let wants := fun (e : DirEntry) => r.windows.any fun o => meets (windowBox o) (brickBox r e.bx e.by_ e.bz)
  let x := (bricks s.world).foldl (fun (a : World × Nat × Bool) b =>
    if !wants b.2 then (modBrick a.1 b.1 fun e => { e with hot := false, hotSlot := 0xFFFF }, a.2)
    else if a.2.1 < r.hotSlots then
      (modBrick a.1 b.1 fun e => { e with hot := true, hotSlot := a.2.1 }, a.2.1 + 1, a.2.2)
    else (modBrick a.1 b.1 fun e => { e with hot := false, hotSlot := 0xFFFF }, a.2.1, true)) (s.world, 0, false)
  let s1 := { s with world := x.1 }
  if x.2.2 && !x.1.hotLogged then raise { s1 with world := { x.1 with hotLogged := true } } .hotFull [] else s1

/-! ## Signed distance (R123 to R125, R128) -/

/-- The brick and the voxel at a fine voxel of the volume. -/
def dirAt (w : World) (gx gy gz : Int) : Option (Nat × Voxel) :=
  let x := gx.toNat
  let y := gy.toNat
  let z := gz.toNat
  (dirLookup w.dir (brickKey (x / 8) (y / 8) (z / 8))).map fun d => (d, voxGet w d (voxIdx (x % 8) (y % 8) (z % 8)))

/-- Dilation of the inferred voxels, for the distance computation only. -/
def nearInferred (r : Recipe) (w : World) (gx gy gz : Int) : Bool :=
  let n := (r.inflate + 3) / 4
  (offsets n).any fun dx => (offsets n).any fun dy => (offsets n).any fun dz =>
    dx * dx + dy * dy + dz * dz ≤ (n : Int) * n && fineInside r (gx + dx) (gy + dy) (gz + dz)
      && (dirAt w (gx + dx) (gy + dy) (gz + dz)).any fun e => e.2.inferred

/-- Occupancy of a fine voxel for the distance computation. -/
def fineOccupied (r : Recipe) (w : World) (gx gy gz : Int) : Bool :=
  if !fineInside r gx gy gz then true
  else nearInferred r w gx gy gz || (match dirAt w gx gy gz with
    | some e => e.2.occupied
    | none => (coarseGet w (gx.toNat / 4, gy.toNat / 4, gz.toNat / 4)).occupied)

/-- Least squared offset within `n` voxels at which `p` holds. -/
def nearestSq (n : Nat) (p : Int → Int → Int → Bool) : Option Nat :=
  let ds := (offsets n).flatMap fun dx => (offsets n).flatMap fun dy => (offsets n).filterMap fun dz =>
    if p dx dy dz then some (dx * dx + dy * dy + dz * dz).toNat else none
  ds.foldl (fun a d => match a with | none => some d | some b => some (min b d)) none

/-- A signed distance in steps of 1/64 of the voxel's edge, rounded toward minus infinity and clamped. -/
def signedDist (occ : Bool) (sq : Option Nat) (lim : Int) : Int :=
  match sq with
  | none => if occ then -lim else lim
  | some n =>
    if occ then max (-lim) (-(sqrtCeil (4096 * n) : Int)) else min lim (sqrtFloor (4096 * n) : Int)

/-- DIST of every voxel of every brick. -/
def fineDistances (r : Recipe) (w : World) : World :=
  (bricks w).foldl (fun a b => mapBrick a b.1 fun i y =>
    let gx : Int := 8 * b.2.bx + i % 8
    let gy : Int := 8 * b.2.by_ + i / 8 % 8
    let gz : Int := 8 * b.2.bz + i / 64
    let occ := fineOccupied r w gx gy gz
    { y with dist := signedDist occ (nearestSq 16 fun dx dy dz => fineOccupied r w (gx + dx) (gy + dy) (gz + dz) != occ) 1024 }) w

/-- Whether a coarse voxel is occupied by the rule of R125. -/
def coarseRule (w : World) (c : Nat × Nat × Nat) (st : Coarse) : Bool :=
  let any := match dirLookup w.dir (brickKey (c.1 / 2) (c.2.1 / 2) (c.2.2 / 2)) with
    | none => false
    | some d => (List.range 64).any fun i =>
        (voxGet w d (voxIdx (4 * (c.1 % 2) + i % 4) (4 * (c.2.1 % 2) + i / 4 % 4) (4 * (c.2.2 % 2) + i / 16))).occupied
  !st.seen || st.overflow || any

def coarseInside (r : Recipe) (x y z : Int) : Bool :=
  let v := volumeOf r
  0 ≤ x && 0 ≤ y && 0 ≤ z && x < v.2.1 && y < v.2.2.1 && z < v.2.2.2

/-- Outside the volume everything is occupied (R105). -/
def coarseOccAt (r : Recipe) (w : World) (x y z : Int) : Bool :=
  !coarseInside r x y z || (coarseGet w (x.toNat, y.toNat, z.toNat)).occupied

/-- The coarse distance about any coarse cell, in 0.25 mm: no cell is further than 256 cells from the volume's edge. DESIGN CHOICE (log
151): the dilation of R128, which speaks of fine voxels, does not change it. -/
def coarseDistAt (r : Recipe) (w : World) (x y z : Int) : Int :=
  let occ := coarseOccAt r w x y z
  signedDist occ (nearestSq 256 fun dx dy dz => coarseOccAt r w (x + dx) (y + dy) (z + dz) != occ) 32767

/-- The coarse distance about any coarse cell, as the field holds it inside the volume. -/
def coarseDistOf (r : Recipe) (w : World) (x y z : Int) : Int :=
  if coarseInside r x y z then (coarseGet w (x.toNat, y.toNat, z.toNat)).dist else coarseDistAt r w x y z

/-- The coarse voxels of the volume. -/
def coarseCells (r : Recipe) : List (Nat × Nat × Nat) :=
  let v := volumeOf r
  (List.range v.2.2.2).flatMap fun z => (List.range v.2.2.1).flatMap fun y => (List.range v.2.1).map fun x => (x, y, z)

def coarseStates (r : Recipe) (w : World) : World :=
  (coarseCells r).foldl (fun a c =>
    let st := coarseGet w c
    coarsePut a c { st with
      occupied := coarseRule w c st
      bricked := (dirLookup w.dir (brickKey (c.1 / 2) (c.2.1 / 2) (c.2.2 / 2))).isSome }) w

def coarseDistances (r : Recipe) (w : World) : World :=
  (coarseCells r).foldl (fun a c => coarsePut a c { coarseGet w c with dist := coarseDistAt r w c.1 c.2.1 c.2.2 }) w

/-! ## Windows (R129 to R132) -/

/-- Trilinear interpolation of 8 corner values with fractional coordinates. -/
def trilinear (v : Nat → Nat → Nat → Rat) (fx fy fz : Rat) : Rat :=
  let l := fun (a b t : Rat) => a + (b - a) * t
  l (l (l (v 0 0 0) (v 1 0 0) fx) (l (v 0 1 0) (v 1 1 0) fx) fy)
    (l (l (v 0 0 1) (v 1 0 1) fx) (l (v 0 1 1) (v 1 1 1) fx) fy) fz

def tileAddr (nx nxy x y z : Nat) : Nat :=
  64 * (x / 4 + nx * (y / 4) + nxy * (z / 4)) + 8 * (x % 2 + 2 * (y % 2) + 4 * (z % 2))
    + (x / 2 % 2 + 2 * (y / 2 % 2) + 4 * (z / 2 % 2))

def winAddr (x y z : Nat) : Nat := tileAddr 48 2304 x y z

def sliceAddr (sl x y z : Nat) : Nat := 0x5A_0000 + sl * 0x1_6800 + tileAddr 12 144 x y z

/-- Grid cell around a point: lower index and fraction per axis, for centres at (i + ½)·step. -/
def cellOf (step p : Rat) : Int × Rat :=
  let q := p / step - 1 / 2
  (q.floor, q - q.floor)

/-- The fine voxel lies in a hot brick: brick coordinates end at 127, 127 and 63 (R118). -/
def inHot (w : World) (gx gy gz : Int) : Bool :=
  0 ≤ gx && gx < 1024 && 0 ≤ gy && gy < 1024 && 0 ≤ gz && gz < 512 && (dirAt w gx gy gz).any fun e => (w.dir.find e.1).any (·.hot)

/-- v at a point, in mm, before the margin: cases 2 and 3 of R130. -/
def fieldAt (r : Recipe) (w : World) (p : Vec3) : Rat :=
  let q := Vec3.sub p (volumeOf r).1
  let fx := cellOf 4 q.x
  let fy := cellOf 4 q.y
  let fz := cellOf 4 q.z
  let hot := [0, 1].all fun a => [0, 1].all fun b => [0, 1].all fun c => inHot w (fx.1 + a) (fy.1 + b) (fz.1 + c)
  if hot then
    trilinear (fun a b c => ((((dirAt w (fx.1 + a) (fy.1 + b) (fz.1 + c)).map fun e => e.2.dist).getD 0 : Int) : Rat) / 16)
      fx.2 fy.2 fz.2
  else
    let cx := cellOf 16 q.x
    let cy := cellOf 16 q.y
    let cz := cellOf 16 q.z
    trilinear (fun a b c => ((coarseDistOf r w (cx.1 + a) (cy.1 + b) (cz.1 + c) : Int) : Rat) / 4) cx.2 cy.2 cz.2

/-- The stored code of a window voxel at a point. -/
def windowCode (r : Recipe) (w : World) (p : Vec3) : Int :=
  if !inVolume r p then -127
  else clampInt (-127) 127 ((fieldAt r w p - r.margin16 / 16) * 2).floor

def code8 (c : Int) : Byte := BitVec.ofInt 8 c

/-- Coordinates of an nx × ny × nz grid. -/
def gridOf (nx ny nz : Nat) : List (Nat × Nat × Nat) :=
  (List.range nz).flatMap fun z => (List.range ny).flatMap fun y => (List.range nx).map fun x => (x, y, z)

def windowBytes (r : Recipe) (w : World) (o : Vec3) : List (Nat × Byte) :=
  (gridOf 192 192 160).map fun v => (winAddr v.1 v.2.1 v.2.2,
    code8 (windowCode r w (Vec3.add o ⟨5 * (v.1 + 1 / 2), 5 * (v.2.1 + 1 / 2), 5 * (v.2.2 + 1 / 2)⟩)))

/-! ## The dynamic layer (R133 to R136, R231) -/

/-- The most whole 2 mm steps, to 127, in the distance of a point at squared distance `q` to the surface of a solid of
radius `rad`; 0 inside it (DEDUCED, log 19). -/
def stepsTo (rad q : Rat) : Nat :=
  (((List.range 128).filter fun (n : Nat) => decide ((2 * (n : Rat) + rad) * (2 * (n : Rat) + rad) ≤ q)).getLast?).getD 0

/-- A box in motion from T_e: velocity in mm/s, growth in mm/s from T_e on. -/
structure MovingBox where
  box  : Box
  vel  : Vec3
  grow : Rat
  deriving DecidableEq, Repr

/-- Squared distance of a point to the box at time `t` (s after T_e). DESIGN CHOICE (log 123): a box grown by a length has every
face moved out by that length. -/
def boxDistSq (m : MovingBox) (p : Vec3) (t : Rat) : Rat :=
  let g := m.grow * (if t < 0 then 0 else t)
  let ax := fun (lo hi v x : Rat) =>
    let l := lo + v * t - g
    let h := hi + v * t + g
    let d := if x < l then l - x else if h < x then x - h else 0
    d * d
  ax m.box.lo.x m.box.hi.x m.vel.x p.x + ax m.box.lo.y m.box.hi.y m.vel.y p.y + ax m.box.lo.z m.box.hi.z m.vel.z p.z

/-- Instants at which an axis's distance changes form. -/
def axisBreaks (m : MovingBox) (lo hi v x : Rat) : List Rat :=
  let root := fun (a b : Rat) => if b = 0 then [] else [a / b]
  root (x - lo) (v - m.grow) ++ root (x - hi) (v + m.grow) ++ root (x - lo) v ++ root (x - hi) v

/-- The vertex of the parabola through three samples of a quadratic piece, if it bends upward. -/
def vertexOf (f : Rat → Rat) (a b : Rat) : List Rat :=
  let c := (a + b) / 2
  let h := (b - a) / 2
  let curv := f a - 2 * f c + f b
  if h ≤ 0 ∨ curv = 0 then [] else [c - h * (f b - f a) / (2 * curv)]

/-- Exact least squared distance over the interval: at its ends, at the breaks and at the vertex of each piece. -/
def leastDistSq (m : MovingBox) (p : Vec3) (a b : Rat) : Rat :=
  let f := boxDistSq m p
  let br := 0 :: axisBreaks m m.box.lo.x m.box.hi.x m.vel.x p.x ++ axisBreaks m m.box.lo.y m.box.hi.y m.vel.y p.y
    ++ axisBreaks m m.box.lo.z m.box.hi.z m.vel.z p.z
  let ts := (a :: b :: br.filter fun t => a < t && t < b).insertionSort (· ≤ ·)
  let vs := (ts.zip (ts.drop 1)).flatMap fun e => (vertexOf f e.1 e.2).filter fun t => e.1 ≤ t && t ≤ e.2
  (ts ++ vs).foldl (fun x t => min x (f t)) (f a)

def shiftBox (b : Box) (d : Vec3) : Box := ⟨Vec3.add b.lo d, Vec3.add b.hi d⟩

/-- The primitives of tracks and overflow boxes as they stand at the instant `base` (ns), T_e or T_pred: a track's
centre has moved at constant velocity since its capture. A belt track without a fresh encoder value counts as new (R405). -/
def movingBoxes (s : State) (r : Recipe) (base : Nat) : List MovingBox :=
  let grow : Rat := (r.trackGrowth : Rat) * 125
  let moved := fun (t : Track) (v : Vec3) =>
    (⟨shiftBox t.box (Vec3.scale (((base : Rat) - t.teNs) / 1000000000) v), v, grow⟩ : MovingBox)
  let ofTrack := fun (t : Track) =>
    if t.isNew then ⟨t.box, ⟨0, 0, 0⟩, r.vMaxObject⟩
    else if t.belt && !encoderFresh s r base then ⟨t.box, ⟨0, 0, 0⟩, r.vMaxObject⟩
    else if t.belt then moved t (Vec3.scale (unit16 (encoderAt s r base).2) r.beltDir)
    else moved t t.vel
  s.world.tracks.map ofTrack ++ s.world.overflowBox.map fun t => (⟨t.box, ⟨0, 0, 0⟩, r.vMaxObject⟩ : MovingBox)

/-- T_pred (R231): T_e and one frame period more, of 8 ms to 34 ms. -/
def predictedNs (te prev : Nat) : Nat := te + (clampInt 8000000 34000000 ((te : Int) - prev)).toNat

/-- The arms whose links are obstacles. DESIGN CHOICE (log 19): every robot model but that of the lowest number. -/
def otherArms (r : Recipe) : List (Nat × RobotModel) :=
  (r.robots.insertionSort fun a b => a.1 ≤ b.1).drop 1

/-- The trajectories that this device or a group member drives a robot by, newest first. -/
def knownTrajs (s : State) (robot : Nat) : List Traj :=
  ((s.motion.trajs.find robot).getD []) ++ s.klink.partners.filter fun t => t.robot == robot

/-- L_j: the largest distance from joint j's axis to any sphere that it moves. -/
def armLength (m : RobotModel) (j : Nat) : Rat :=
  maxRat (m.groups.flatMap fun g => g.spheres.map fun x => nth x.reach j 0)

/-- Joint values of an arm at an instant from its newest joint-state frames at or before `base`, and by how much it is
inflated; `none` where a joint has no frame within 10 ms before `base`. -/
def armByStates (s : State) (r : Recipe) (base : Nat) (m : Nat × RobotModel) (ns : Rat) : Option (List Rat × Rat) :=
  let js := List.range m.2.joints.length
  let xs := js.map fun j => jointAt s r m.1 j base
  if xs.all fun x => x.any fun e => base ≤ e.2.2 + 10000000 then
    let dt := fun (e : Rat × Rat × Nat) => (ns - e.2.2) / 1000000000
    some (xs.map fun x => (x.map fun e => e.1 + e.2.1 * dt e).getD 0,
      sumRat (js.map fun j => ((nth xs j none).map fun e =>
        armLength m.2 j * (unit16 (nth m.2.joints j default).aMax / 2) * (dt e * dt e)).getD 0))
  else none

/-- Joint values of another arm at an instant, and by how much its spheres are inflated: by its trajectory where that is
known, else by its joint states. -/
def armAt (s : State) (r : Recipe) (base : Nat) (m : Nat × RobotModel) (ns : Rat) : Option (List Rat × Rat) :=
  match knownTrajs s m.1 with
  | t :: ts => some ((List.range m.2.joints.length).map fun j => (streamAxis (t :: ts) j ns.floor.toNat).1, 0)
  | [] => armByStates s r base m ns

/-- Steps of 2 mm to one other arm over the interval from `a` to `b` ms after `base`: its spheres at every 1 ms, swept
between samples, or its envelope box; `parts` are the carried parts that the job was dispatched with (R262). -/
def armSteps (s : State) (parts : SMap CarriedPart) (r : Recipe) (base : Nat) (m : Nat × RobotModel) (a b : Int) (p : Vec3) : Nat :=
  let samples := (List.range ((b - a).toNat + 1)).map fun k => armAt s r base m ((base : Rat) + 1000000 * (a + k))
  let balls := samples.map fun x => x.map fun e => (robotSpheres parts r m.1 m.2 e.1).map fun c => (c.1, c.2 + e.2)
  if balls.any (·.isNone) then
    stepsTo 0 (boxDistSq ⟨m.2.envelope, ⟨0, 0, 0⟩, 0⟩ p 0)
  else
    let bs := balls.filterMap id
    ((bs.zip (bs.drop 1)).flatMap fun e => e.1.zip e.2).foldl (fun n e =>
      min n (stepsTo (max e.1.2 e.2.2) (segDistSq p e.1.1 e.2.1))) 127

/-- The code of a slice voxel at a point. -/
def dynCode (s : State) (parts : SMap CarriedPart) (r : Recipe) (base : Nat) (sl : Nat) (p : Vec3) : Int :=
  let a : Int := 8 * sl - 4
  if !inVolume r p then -127
  else
    let boxes := (movingBoxes s r base).map fun m => stepsTo 0 (leastDistSq m p (a / 1000 : Rat) ((a + 8 : Int) / 1000 : Rat))
    ((boxes ++ (otherArms r).map fun m => armSteps s parts r base m a (a + 8) p).foldl min 127 : Nat)

def layerBytes (s : State) (parts : SMap CarriedPart) (r : Recipe) (base : Nat) (o : Vec3) : List (Nat × Byte) :=
  (List.range 16).flatMap fun sl => (gridOf 48 48 40).map fun v => (sliceAddr sl v.1 v.2.1 v.2.2,
    code8 (dynCode s parts r base sl (Vec3.add o ⟨20 * (v.1 + 1 / 2), 20 * (v.2.1 + 1 / 2), 20 * (v.2.2 + 1 / 2)⟩)))

/-! ## Clusters (R137) -/

/-- A cluster of bricks. -/
structure Cluster where
  box      : Box
  centroid : Vec3
  count    : Nat
  brick    : Nat
  belt     : Bool
  deriving DecidableEq, Repr, Inhabited

/-- A voxel that R115 makes OCCUPIED but for R116. -/
def eligible (r : Recipe) (v : Voxel) : Bool := r.wOcc ≤ v.weight && v.tsdf ≤ 0

/-- Centres of a brick's eligible voxels. -/
def eligibleCentres (r : Recipe) (w : World) (b : Nat × DirEntry) : List Vec3 :=
  (List.range 512).filterMap fun v =>
    if eligible r (voxGet w b.1 v) then some (brickVoxCentre r b.2.bx b.2.by_ b.2.bz v) else none

def brickInConveyor (r : Recipe) (e : DirEntry) : Bool :=
  r.conveyor.any fun b => meets b (brickBox r e.bx e.by_ e.bz)

/-- The bricks that clusters are made of. -/
def clusterBricks (r : Recipe) (w : World) : List (Nat × DirEntry) :=
  (bricks w).filter fun b => w.changed.contains b.1 || w.changedPrev.contains b.1
    || (brickInConveyor r b.2 && !(eligibleCentres r w b).isEmpty)

/-- Two bricks share a face. -/
def faceNeighbours (a b : DirEntry) : Bool :=
  let d := fun (x y : Nat) => (x - y) + (y - x)
  d a.bx b.bx + d a.by_ b.by_ + d a.bz b.bz == 1

/-- Grows a component by the neighbours left in the pool. -/
def growComponent : Nat → List (Nat × DirEntry) → List (Nat × DirEntry) → List (Nat × DirEntry) × List (Nat × DirEntry)
  | 0, got, pool => (got, pool)
  | n + 1, got, pool =>
    let near := pool.filter fun b => got.any fun a => faceNeighbours a.2 b.2
    if near.isEmpty then (got, pool)
    else growComponent n (got ++ near) (pool.filter fun b => !near.any fun a => a.1 == b.1)

/-- The 6-connected components of a list of bricks. -/
def components : Nat → List (Nat × DirEntry) → List (List (Nat × DirEntry))
  | 0, _ => []
  | _ + 1, [] => []
  | n + 1, b :: t =>
    let x := growComponent t.length [b] t
    x.1 :: components n x.2

def pointBox (c : Vec3) : Box := cube c 2

def joinBox (a b : Box) : Box :=
  ⟨⟨min a.lo.x b.lo.x, min a.lo.y b.lo.y, min a.lo.z b.lo.z⟩, ⟨max a.hi.x b.hi.x, max a.hi.y b.hi.y, max a.hi.z b.hi.z⟩⟩

/-- A component's cluster: box and centroid of its eligible voxels; a component without one gives none (DEDUCED,
log 96). -/
def clusterOf (r : Recipe) (w : World) (bs : List (Nat × DirEntry)) : Option Cluster :=
  match bs.flatMap (eligibleCentres r w) with
  | [] => none
  | c :: t =>
    let n := t.length + 1
    let mid := Vec3.scale (1 / (n : Rat)) (t.foldl Vec3.add c)
    some ⟨t.foldl (fun b x => joinBox b (pointBox x)) (pointBox c), mid, n, (bs.map (·.1)).foldl min ((bs.map (·.1)).headD 0),
      inConveyor r mid⟩

def clustersOf (r : Recipe) (w : World) : List Cluster :=
  let bs := clusterBricks r w
  (components bs.length bs).filterMap (clusterOf r w)

/-! ## Tracks (R137, R138) -/

/-- Clusters by size, larger first, equal counts by lower brick index. -/
def bySize (cs : List Cluster) : List Cluster :=
  cs.insertionSort fun a b => b.count < a.count ∨ (a.count = b.count ∧ a.brick ≤ b.brick)

/-- Pairs within the gate in ascending distance, equal distances by lower track number; each used once. -/
def takePairs : List (Rat × Nat × Nat) → List Nat → List Nat → List (Nat × Nat)
  | [], _, _ => []
  | (_, c, t) :: rest, cs, ts =>
    if cs.contains c || ts.contains t then takePairs rest cs ts else (c, t) :: takePairs rest (c :: cs) (t :: ts)

/-- The numbers that new tracks take. DESIGN CHOICE (log 124): the lowest that are free. -/
def freeNums (used : List Nat) (n : Nat) : List Nat := ((List.range 128).filter fun i => !used.contains i).take n

def newTrack (num teNs : Nat) (c : Cluster) : Track :=
  ⟨num, c.box, c.centroid, ⟨0, 0, 0⟩, teNs, 0, true, c.belt⟩

/-- The tracks after a frame set's clusters: matched, started, and unmatched for fewer than 3 epochs. DESIGN CHOICE (log 124): a
predicted centroid moves at the track's own measured velocity, on the belt too, and where matched, new and unmatched
tracks would exceed 64, the unmatched ones of higher number end. -/
def nextTracks (old : List Track) (cs : List Cluster) (gate : Rat) (teNs : Nat) : List Track :=
  let secs := fun (t : Track) => ((teNs : Rat) - t.teNs) / 1000000000
  let idx := List.range cs.length
  let pairs := idx.flatMap fun i => old.filterMap fun t =>
    let c := nth cs i default
    let d := Vec3.normSq (Vec3.sub c.centroid (Vec3.add t.centroid (Vec3.scale (secs t) t.vel)))
    if d ≤ gate * gate then some (d, i, t.num) else none
  let sorted := pairs.insertionSort fun a b => a.1 < b.1 ∨ (a.1 = b.1 ∧ a.2.2 ≤ b.2.2)
  let taken := takePairs sorted [] []
  let matched := taken.filterMap fun (i, n) => (old.find? fun t => t.num == n).map fun t =>
    let c := nth cs i default
    let dt := secs t
    let vel := if dt = 0 then ⟨0, 0, 0⟩ else Vec3.scale (1 / dt) (Vec3.sub c.centroid t.centroid)
    (⟨n, c.box, c.centroid, vel, teNs, 0, false, c.belt⟩ : Track)
  let kept := old.filterMap fun t =>
    if taken.any fun p => p.2 == t.num then none
    else if 3 ≤ t.missed + 1 then none else some { t with missed := t.missed + 1, isNew := false }
  let fresh := idx.filter fun i => !taken.any fun p => p.1 == i
  let room := (matched ++ kept.take (64 - (matched.length + fresh.length)))
  let nums := freeNums (room.map (·.num)) fresh.length
  (room ++ (fresh.zip nums).map fun e => newTrack e.2 teNs (nth cs e.1 default)).insertionSort fun a b => a.num ≤ b.num

/-- Tracks and overflow boxes after a set's clusters. -/
def takeClusters (s : State) (r : Recipe) (te : Nat) (clusters : List Cluster) : State :=
  let cs := bySize clusters
  let boxes := (cs.drop 64).take 64
  let rest := cs.drop 128
  let extra := boxes.map (newTrack 0 te) ++ (match rest with
    | [] => []
    | c :: t => [{ newTrack 0 te c with box := t.foldl (fun b x => joinBox b x.box) c.box }])
  let s1 := { s with world := { s.world with
    tracks := nextTracks s.world.tracks (cs.take 64) r.trackGate te, overflowBox := extra } }
  if cs.length ≤ 64 || s.world.trackLogged then s1
  else raise { s1 with world := { s1.world with trackLogged := true } } .trackOverflow []

/-! ## Probe regions (R141, R299) -/

/-- Depth of patch pixel (u, v) for frame counter c. -/
def patchDepth (c u v : Nat) : Nat :=
  1000 + 2 * u + 8 * (c % 4) - (if 24 ≤ u ∧ u ≤ 39 ∧ 24 ≤ v ∧ v ≤ 39 then 40 else 0)

/-- The pixels of a frame's patch as the unpacker delivered them. -/
def patchPixels (c : Nat) (errs : List (Nat × Nat)) : List Pixel :=
  (List.range 4096).map fun i =>
    ⟨i, ((errs.find? fun e => e.1 == i).map (·.2)).getD (patchDepth c (i % 64) (i / 64)), 255⟩

/-- A probe region as a volume of its own: 4 × 4 × 2 bricks with the corner at the origin. -/
def probeRecipe (r : Recipe) : Recipe :=
  { r with volume := some (⟨0, 0, 0⟩, 8, 8, 4), conveyor := none, inflate := 0 }

/-- The region's bricks: directory entries 0 to 31 in x, y, z order. -/
def probeWorld : World :=
  { World.reset with
    dir := (List.range 32).map fun j => (j, ⟨j % 4, j / 4 % 4, j / 16, true, false, true, false, j, j, 0, 0⟩) }

/-- DIST of the region's voxels by R123, over the region alone. DESIGN CHOICE (log 125): what lies outside the region counts as
occupied, as what lies outside the world volume does (R105). -/
def probeDistances (w : World) : World :=
  let at_ := fun (x y z : Int) => voxGet w (x / 8 + 4 * (y / 8) + 16 * (z / 8)).toNat (voxIdx (x % 8).toNat (y % 8).toNat (z % 8).toNat)
  let occ := fun (x y z : Int) =>
    if 0 ≤ x ∧ x < 32 ∧ 0 ≤ y ∧ y < 32 ∧ 0 ≤ z ∧ z < 16 then (at_ x y z).occupied else true
  (bricks w).foldl (fun a b => mapBrick a b.1 fun i y =>
    let gx : Int := 8 * b.2.bx + i % 8
    let gy : Int := 8 * b.2.by_ + i / 8 % 8
    let gz : Int := 8 * b.2.bz + i / 64
    let o := occ gx gy gz
    { y with dist := signedDist o (nearestSq 16 fun dx dy dz => occ (gx + dx) (gy + dy) (gz + dz) != o) 1024 }) w

/-- The contents of a probe region, cleared to WEIGHT 0, after one patch: R114, R115 and R123. -/
def probeRegion (r : Recipe) (counter : W32) (errs : List (Nat × Nat)) : SMap Voxel :=
  let q := probeRecipe r
  let v : SetView := ⟨Config.probeCam, patchPixels counter.toNat errs⟩
  let w := (List.range 32).foldl (fun w j => occupyBrick q (fuseBrick q v w j) j) probeWorld
  (probeDistances w).voxels

/-- DIST and OCCUPIED of the check voxels. -/
def checkValues (m : SMap Voxel) : List (Int × Bool) :=
  Config.checkVoxels.map fun v => let x := (m.find v).getD blankVoxel; (x.dist, x.occupied)

/-- The comparison of R299: with the table for the counter's phase, which the patch as injected gives. -/
def probeMatches (r : Recipe) (counter : W32) (errs : List (Nat × Nat)) : Bool :=
  checkValues (probeRegion r counter errs) == checkValues (probeRegion r counter [])

end Sys2Proof.Machine
end

