-- ==== Sys2Proof/Machine/Beacon.lean ====
section
/-! DEFINITION. The beacon (R212 to R229, R267): weights, streaming insertion into a list, duplicates, masses, merging and
the result block. -/

namespace Sys2Proof.Machine

open Sys2Proof

/-! ## Weights (R219) -/

/-- E[f]: round-half-to-even of 16,384 × 2^(−f/256). It is the integer n nearest to the value v = 2^((3584 − f)/256);
n + 1/2 ≤ v iff (2n + 1)^256 ≤ 2^(3840 − f), and v is an integer or a half only for f = 0. -/
def beaconE (f : Nat) : Nat :=
  let t := 2 ^ (3840 - f)
  let rec go : Nat → Nat → Nat
    | 0, n => n
    | k + 1, n => if (2 * (n + 2 ^ k) - 1) ^ 256 ≤ t then go k (n + 2 ^ k) else go k n
  go 15 0

/-- Round half to even of a natural quotient by 2^s (R36). -/
def rheNat (a s : Nat) : Nat := (rheShift a s).1.toNat

def weight (l d : Nat) : Nat :=
  let a := d / 2 ^ l
  let r := d % 2 ^ l
  let f := if 8 ≤ l then r / 2 ^ (l - 8) else r * 2 ^ (8 - l)
  if a = 0 then beaconE f else if 15 ≤ a then 0 else rheNat (beaconE f) a

def rescale (l m d : Nat) : Nat := rheNat (m * weight l d) 14

/-! ## Entries (R212, R213) -/

def rowBefore (a b : BRow) : Bool := a.score < b.score || (a.score == b.score && a.id.toNat < b.id.toNat)

def badId : W32 := 0xFFFF_FFFF

def invalidScore : Nat := 0x7FFF_FFFF

end Sys2Proof.Machine

namespace Sys2Proof

def BList.empty : BList := ⟨[], 0, 0, 0, 0, 0, 0, false, false, 0, 0⟩

end Sys2Proof

namespace Sys2Proof.Machine

open Sys2Proof

def insertRow (r : BRow) : List BRow → List BRow
  | [] => [r]
  | x :: t => if rowBefore r x then r :: x :: t else x :: insertRow r t

def lastScore (rows : List BRow) : Option Nat := rows.getLast?.map (·.score)

/-- TIE_COUNT after an entry of score `out` is left out (R223): ties count against the last row as it now is. -/
def tieAfterDrop (b : BList) (rows : List BRow) (out : Nat) : Nat :=
  (if lastScore rows = lastScore b.rows then b.tie else 0) + b2n (lastScore rows == some out)

/-- Rows with a new one among at most `k`: rows and TIE_COUNT. -/
def placeRow (k : Nat) (b : BList) (r : BRow) : List BRow × Nat :=
  let rows := insertRow r b.rows
  if rows.length ≤ k then (rows, b.tie)
  else
    let kept := rows.take k
    match rows[k]? with
    | some out => (kept, tieAfterDrop b kept out.score)
    | none => (kept, b.tie)

/-- M with one more weight of a distinct entry (R220). -/
def addMass (l : Nat) (b : BList) (score : Nat) : BList :=
  if b.rows.isEmpty then { b with mass := 16384, sFirst := score }
  else if score < b.sFirst then { b with mass := rescale l b.mass (b.sFirst - score) + 16384, sFirst := score }
  else { b with mass := b.mass + weight l (score - b.sFirst) }

/-- M when an offered copy of lower score replaces its row (R217). -/
def replaceMass (l : Nat) (b : BList) (old new : Nat) : BList :=
  let w := weight l (old - b.sFirst)
  let c := b.clamped || b.mass < w
  if b.sFirst ≤ new then { b with mass := b.mass - w + weight l (new - b.sFirst), clamped := c }
  else { b with mass := rescale l (b.mass - w) (b.sFirst - new) + 16384, sFirst := new, clamped := c }

/-- What an offer reports. -/
inductive OfferNote where
  | quiet | badId | dup | mismatch (old new : Nat)
  deriving DecidableEq, Repr

/-- One offered entry applied to a list (R213, R216, R217, R220, R221, R223). -/
def offerEntry (c : BeaconCfg) (b : BList) (r : BRow) : BList × OfferNote :=
  if r.id = badId then (b, .badId)
  else if invalidScore ≤ r.score then (b, .quiet)
  else match b.rows.find? fun x => x.id == r.id with
    | some old =>
      let b1 := { b with dup := b.dup + 1 }
      if old.score = r.score then (b1, .dup)
      else if old.score < r.score then ({ b1 with mismatch := true }, .mismatch old.score r.score)
      else
        let b2 := replaceMass c.lambda b1 old.score r.score
        let rows := insertRow r (b.rows.filter fun x => x.id != r.id)
        let tie := if lastScore rows = lastScore b.rows then b.tie else 0
        ({ b2 with rows, tie, mismatch := true }, .mismatch old.score r.score)
    | none =>
      let b1 := addMass c.lambda b r.score
      let p := placeRow c.k b r
      ({ b1 with rows := p.1, tie := p.2 }, .quiet)

/-- The end of the stage: S, L and MASS_CLAMPED (R220). -/
def closeList (c : BeaconCfg) (b : BList) : BList :=
  let s := sumNat (b.rows.map fun r => weight c.lambda (r.score - b.sFirst))
  if b.rows.isEmpty then { b with selected := 0, leftover := 0 }
  else { b with selected := s, leftover := b.mass - s, clamped := b.clamped || b.mass < s }

/-! ## Merging (R221, R225, R226) -/

/-- Input rows tagged with their source number. -/
abbrev SrcRow := Nat × BRow

/-- The copy that remains where two meet. -/
def copyBefore (a b : SrcRow) : Bool := a.2.score < b.2.score || (a.2.score == b.2.score && a.1 ≤ b.1)

/-- The rows in rank order with the copies that collapsed, and each mismatch's two scores. -/
def collapse (rows : List SrcRow) : List SrcRow × List SrcRow × List (Nat × Nat) :=
  rows.foldl (fun (acc : List SrcRow × List SrcRow × List (Nat × Nat)) r =>
    match acc.1.find? fun x => x.2.id == r.2.id with
    | none => (acc.1 ++ [r], acc.2.1, acc.2.2)
    | some x =>
      let keep := if copyBefore x r then x else r
      let gone := if copyBefore x r then r else x
      let notes := if x.2.score = r.2.score then acc.2.2 else acc.2.2 ++ [(x.2.score, r.2.score)]
      (acc.1.map fun y => if y.2.id == r.2.id then keep else y, acc.2.1 ++ [gone], notes)) ([], [], [])

structure Merged where
  list  : BList
  bad   : Nat
  notes : List (Nat × Nat)
  dups  : Nat
  deriving DecidableEq, Repr

/-- A merge of closed inputs with their source numbers, read in ascending source number. -/
def mergeLists (c : BeaconCfg) (inputs : List (Nat × BList)) : Merged :=
  let all := inputs.flatMap fun i => i.2.rows.map fun r => (i.1, r)
  let good := all.filter fun r => r.2.id != badId && r.2.score < invalidScore
  let m := collapse good
  let ranked := (m.1.map (·.2)).insertionSort fun a b => rowBefore a b = true
  let rows := ranked.take c.k
  let sMin := (rows.head?.map (·.score)).getD invalidScore
  let last := lastScore rows
  let tie :=
    if rows.length < c.k then 0
    else ((ranked.drop c.k).filter fun r => some r.score == last).length
      + sumNat (inputs.map fun i => if i.2.rows.length = c.k ∧ lastScore i.2.rows = last then i.2.tie else 0)
  let plus := sumNat (inputs.map fun i =>
    if i.2.rows.isEmpty then 0 else rescale c.lambda (i.2.selected + i.2.leftover) (i.2.sFirst - sMin))
  let minus := sumNat (m.2.1.map fun r => weight c.lambda (r.2.score - sMin))
  let sel := sumNat (rows.map fun r => weight c.lambda (r.score - sMin))
  let list : BList :=
    { rows, tie, mass := plus - minus, sFirst := sMin
      selected := sel, leftover := plus - minus - sel
      dup := sumNat (inputs.map (·.2.dup)) + m.2.1.length
      mismatch := inputs.any (·.2.mismatch) || !m.2.2.isEmpty
      clamped := inputs.any (·.2.clamped) || plus < minus + sel
      sources := inputs.length, lambda := c.lambda }
  ⟨list, (all.filter fun r => r.2.id == badId).length, m.2.2, m.2.1.length⟩

/-! ## The result block (R222, R224) -/

def resultBlock (c : BeaconCfg) (b : BList) : List Byte :=
  let pad := c.k - b.rows.length
  let keys := (b.rows.flatMap fun r => leBytes 4 r.id.toNat ++ leBytes 4 r.score)
    ++ (List.replicate pad (leBytes 4 0xFFFF_FFFF ++ leBytes 4 invalidScore)).flatten
  let keyLen := 64 * ((8 * c.k + 63) / 64)
  leBytes 1 c.k ++ leBytes 1 b.rows.length ++ leBytes 1 c.row ++ leBytes 1 (b2n b.mismatch + 2 * b2n b.clamped)
    ++ leBytes 4 (min b.tie 0xFFFF_FFFF) ++ leBytes 4 (min b.dup 0xFFFF_FFFF)
    ++ leBytes 4 ((b.rows.head?.map (·.score)).getD invalidScore)
    ++ leBytes 8 b.selected ++ leBytes 8 b.leftover ++ leBytes 1 c.lambda ++ [0, 0, 0] ++ leBytes 4 b.sources
    ++ List.replicate 24 0 ++ slice keys 0 keyLen
    ++ (b.rows.flatMap fun r => slice r.pay 0 (64 * c.row)) ++ List.replicate (64 * c.row * pad) 0

/-! ## Counting and logging (R213, R221, R229, R235) -/

def modCounts (s : State) (r : JobRef) (f : Counts → Counts) : State :=
  modJob s r fun j => { j with counts := f j.counts }

/-- `BEACON_BAD_ID`: counted each time, logged at the first of the job in the slot. -/
def noteBadIds (s : State) (j : Job) (n : Nat) : State :=
  if n = 0 then s
  else
    let s1 := modCounts s j.ref fun c => { c with badId := c.badId + n }
    if (findJob s j.ref).any (·.badLogged) then s1
    else raiseFor (modJob s1 j.ref fun x => { x with badLogged := true }) .beaconBadId [] j.ref

/-- `DUPLICATE_MISMATCH`, whose two score words are 0 in a speculative slot. -/
def noteMismatch (j : Job) (s : State) (e : Nat × Nat) : State :=
  let words := if j.spec then [0, 0] else [BitVec.ofNat 32 e.1, BitVec.ofNat 32 e.2]
  raiseFor (modCounts s j.ref fun c => { c with mismatch := c.mismatch + 1 }) .duplicateMismatch words j.ref

def addDups (s : State) (j : Job) (n : Nat) : State := modCounts s j.ref fun c => { c with dups := c.dups + n }

def listOf (j : Job) (l : Nat) : BList := (j.lists.find l).getD .empty

/-- A list's payload rows lie in its lantern's basin, in row order from the address that the context declares (R216), and
its own result as a block of no inputs (R222). -/
def storeRows (s : State) (p : Phys) (r : JobRef) (c : BeaconCfg) (b : BList) : State :=
  planPut (if placeAsleep s (.basin p 0) then s else placeWrite s (.basin p c.rowsAt) (b.rows.flatMap fun r => slice r.pay 0 (64 * c.row)))
    r (.basin p c.listAt) (resultBlock c (closeList c b))

/-- The list of logical lantern `l` applies an entry, under the beacon parameters of the lantern's context. -/
def offerTo (s : State) (p : Phys) (j : Job) (l : Nat) (r : BRow) : State :=
  let c := (activeCtx (lant s p)).beacon
  let o := offerEntry c (listOf j l) r
  let s1 := storeRows (modJob s j.ref fun x => { x with lists := x.lists.put l o.1 }) p j.ref c o.1
  match o.2 with
  | .quiet => s1
  | .badId => noteBadIds s1 j 1
  | .dup => addDups s1 j 1
  | .mismatch a b => noteMismatch j (addDups s1 j 1) (a, b)

/-- An entry is offered; the list applies it in this cycle or a later one (R215). -/
def pushOffer (s : State) (p : Phys) (r : BRow) : State :=
  modLant s p fun l => { l with fresh := l.fresh ++ [r] }

/-- The list of a lantern applies up to `n` waiting offers. -/
def drainOffers (p : Phys) : Nat → State → State
  | 0, s => s
  | n + 1, s =>
    match (lant s p).offers, jobOn s p, logicalOf s p with
    | r :: t, some j, some l => drainOffers p n (offerTo (modLant s p fun x => { x with offers := t }) p j l r)
    | _, _, _ => s

/-- The offers of the cycle go behind those that wait, in ascending ID (R215). -/
def queueOffers (s : State) (p : Phys) : State :=
  modLant s p fun l => { l with
    offers := l.offers ++ l.fresh.insertionSort fun a b => a.id.toNat ≤ b.id.toNat
    fresh := [] }

/-- In each cycle the list applies up to 4 of the offers that wait (R215). -/
def cycleOffers (s : State) (p : Phys) (cycles : Nat) : State := drainOffers p (4 * cycles) (queueOffers s p)

/-- The list of a lantern applies all it was offered. -/
def flushOffers (s : State) (p : Phys) : State :=
  let s1 := queueOffers s p
  drainOffers p (lant s1 p).offers.length s1

/-- The lantern builds a list in the job's slot: it carries the sampler, or runs a network with a top-k (R215, R267). -/
def buildsList (s : State) (j : Job) (p : Phys) (l : Nat) : Bool :=
  (j.img.stageSet j.slot l).getLsbD 3 || ((j.img.stageSet j.slot l).getLsbD 9 && !(activeCtx (lant s p)).topKs.isEmpty)

/-- A list that was offered nothing in the slot leaves its block with `VALID_COUNT` 0 (R222). -/
def closeEmpty (s : State) (p : Phys) (r : JobRef) : State :=
  match findJob s r, logicalOf s p with
  | some j, some l =>
    if buildsList s j p l && (j.lists.find l).isNone then storeRows s p r (activeCtx (lant s p)).beacon .empty else s
  | _, _ => s

/-- A row counts while the candidate it came from carries no mark (R41, R169): of the copies of one ID that were offered,
one is still unmarked (R218). -/
def rowLive (j : Job) (r : BRow) : Bool :=
  let copies := j.cands.filter fun c => c.id == r.id && c.scored
  copies.isEmpty || copies.any fun c => c.marks == 0

def liveRows (j : Job) (b : BList) : BList := { b with rows := b.rows.filter (rowLive j) }

/-- The basin of a source lantern is in retention or still waking (R57). -/
def sourceAsleep (s : State) (n : Nat) : Bool := (physOf s n).any fun q => n < 32 && placeAsleep s (.basin q 0)

/-- The input of a merge with a source number: the result that a lantern of the job merged, or the list that it built; or a
member's result, this one's own among them (R225, R384). A sleeping basin gives zeros, a list without rows (R57). -/
def mergeInput (s : State) (j : Job) (c : BeaconCfg) (src : Nat × Bool) : Option BList :=
  if src.1 < 32 then
    if !(maskLogical j.img.lanternSet).contains src.1 then none
    else if sourceAsleep s src.1 then some .empty
    else if src.2 then (j.results.find src.1).map (liveRows j)
    else some (closeList c (liveRows j (listOf j src.1)))
  else (j.lists.find src.1).map (liveRows j)

/-- The beacon lantern, logical number `l`, merges the named sources, once their lists have applied what they were offered;
the result's block lies in its basin at the address that its context declares (R222). -/
def opMergeLists (s : State) (p : Phys) (j : Job) (l : Nat) (sources : List (Nat × Bool)) : State :=
  let c := (activeCtx (lant s p)).beacon
  let s0 := sources.foldl (fun s n => match physOf s n.1 with
    | some q => flushOffers s q
    | none => s) s
  let k := (findJob s0 j.ref).getD j
  let inputs := (sources.insertionSort fun a b => a.1 ≤ b.1).filterMap fun n => (mergeInput s0 k c n).map fun b => (n.1, b)
  let m := mergeLists c inputs
  let s0 := if sources.any fun n => sourceAsleep s0 n.1 then retainedAccess s0 j.ref else s0
  let s1 := planPut (modJob s0 j.ref fun x => { x with result := some m.list, results := x.results.put l m.list })
    j.ref (.basin p c.blockAt) (resultBlock c m.list)
  m.notes.foldl (noteMismatch j) (addDups (noteBadIds s1 j m.bad) j m.dups)

/-! ## Inference top-k (R267) -/

def topKClamp (a : Int) : Int × Bool :=
  (clampInt (-(2 ^ 30) + 2) (2 ^ 30) a, a < -(2 ^ 30) + 2 || 2 ^ 30 < a)

/-- The int32 that stands for an element: unchanged for integer types, by the compile-time shift with round-half-to-even for
floating ones, an infinity as a value beyond the clamp; none for a NaN. -/
def topKInt (t : ElemType) (shift : Int) (code : Nat) : Option Int :=
  match elemFloat t, elemVal t code with
  | none, _ => some (sgn (elemBits t) code)
  | some _, .nan => none
  | some _, .inf n => some (if n then -(2 ^ 31) else 2 ^ 31)
  | some _, .fin n m => some (rhe ((if n then -m else m) * pow2 (-shift)))

/-- The key of a value; whether the clamp counts. -/
def topKKey (value : Int) (largest : Bool) : Nat × Bool :=
  let c := topKClamp value
  ((if largest then 2 ^ 30 - c.1 else c.1 + 2 ^ 30 - 2).toNat, c.2)

end Sys2Proof.Machine
end

