-- ==== Sys2Proof/Machine/Planning.lean ====
section
/-! DEFINITION. Candidate generation and the fixed check (R143 to R170): seeds, perturbation, the trajectory and its limits,
the sampler's queries, the score, and what counts and marks. -/

namespace Sys2Proof.Machine

open Sys2Proof

/-! ## The job's model and lanterns -/

def jobModel (j : Job) : Option RobotModel :=
  (j.recipe.bind fun r => r.robots.find? fun m => m.1 == j.img.robot.toNat).map (·.2)

/-- Logical lanterns whose stage set in the job's slot holds a stage, ascending. -/
def stageLanterns (j : Job) (bit : Nat) : List Nat :=
  (maskLogical j.img.lanternSet).filter fun n => (j.img.stageSet j.slot n).getLsbD bit

/-- The checking lanterns: those that carry the SDF sampler. -/
def checkers (j : Job) : List Nat := stageLanterns j 3

/-- Seeds by checking lantern: dealt out in turn in ascending logical order (DEDUCED, log 20). -/
def seedsOn (j : Job) (l : Nat) : List Nat :=
  let cs := checkers j
  (List.range j.seeds.length).filter fun m => nth cs (m % cs.length) 32 == l

/-- LANTERN and INDEX of an ID: in a group job 32 + l, and the member's group number in INDEX[17:15] (R382). -/
def idFields (j : Job) (l index : Nat) : Nat × Nat :=
  match j.member with
  | some g => (32 + l, 32768 * g + index)
  | none => (l, index)

def jobId (j : Job) (l index : Nat) : W32 := candId j.slot (idFields j l index).1 (idFields j l index).2

/-- The candidates that a context's plan gives each checking lantern in a slot: N_c (R166). -/
def candCount (c : CtxCfg) : Nat := (c.sampP * c.sampC / 1024).floor.toNat

/-- N_c: the candidates of a checking lantern in a slot, by the planned rate and the sampling cycles that its context
declares (R155, R166). -/
def indexLimit (j : Job) (c : CtxCfg) : Nat :=
  min (candCount c) (if j.member.isSome then 2 ^ 15 else 2 ^ 18)

/-- The context active on a logical lantern. -/
def ctxOn (s : State) (l : Nat) : CtxCfg := ((physOf s l).map fun p => activeCtx (lant s p)).getD blankCtx

def seedId (j : Job) (m : Nat) : W32 :=
  let cs := checkers j
  jobId j (nth cs (m % cs.length) 32) (m / cs.length)

/-- The checking lantern whose seeds lantern `l` checks a second time (R218). -/
def copiedFrom (j : Job) (l : Nat) : Nat :=
  let cs := checkers j
  nth cs ((cs.idxOf l + cs.length - 1) % cs.length) l

/-! ## Range counting (R39, R40) -/

def rangeMark : BitVec 7 := 4

/-- `n` elements are counted on a lantern in this cycle: its counter rises, and every candidate whose interval on the
lantern contains the cycle is marked. DESIGN CHOICE (log 99): the elements of an instruction count in its issue cycle. -/
def countRange (s : State) (p : Phys) (n : Nat) : State :=
  if n = 0 then s
  else
    let l := lant s p
    let s1 := setLant s p { l with
      rangeCtr := BitVec.ofNat 32 (min (l.rangeCtr.toNat + n) 0xFFFF_FFFF), counted := l.counted ++ [l.cycle] }
    match jobOn s p, logicalOf s p with
    | some j, some g =>
      let hit := fun (c : Cand) => c.spans.any fun e => e.1 == g && e.2.1 ≤ l.cycle && l.cycle ≤ e.2.2
      let mark := fun (c : Cand) => if hit c then { c with marks := c.marks ||| rangeMark } else c
      modJob s1 j.ref fun j => { j with cands := j.cands.map mark }
    | _, _ => s1

/-- A counted element lies in an interval of this lantern's slot. -/
def countedIn (l : Lantern) (lo hi : Nat) : Bool := l.counted.any fun c => lo ≤ c && c ≤ hi

/-! ## Seeds (R153, R176, R179) -/

/-- The straight joint-space line at the waypoint times t_k of R159 (DEDUCED, log 21). -/
def linePoints (a b : List Rat) : List (List Rat) :=
  (List.range 32).map fun k => (List.range a.length).map fun i =>
    nth a i 0 + (nth b i 0 - nth a i 0) * (2 * (k : Rat) + 1) / 64

def mkSeed (way : List (List Rat)) (goal : List Rat) (tUs : Nat) : JobSeed :=
  ⟨way, [], tUs, ([], 0), goal, false, 0, 0, true, false, false⟩

/-- The previous published trajectory sampled at 32 waypoints over its remaining duration from the splice point, which is taken as T_c
in whole µs, rounded down (DESIGN CHOICE, log 154). -/
def refitSeed (s : State) (j : Job) (joints : Nat) : List JobSeed :=
  match s.motion.trajs.find j.img.robot.toNat with
  | none | some [] => []
  | some (t :: _) =>
    let endNs : Rat := t.startNs + 1000 * (t.tUs : Rat)
    let left := endNs - j.spliceNs
    if left ≤ 0 then []
    else
      let at_ := fun (ns : Rat) => (List.range joints).map fun i => (axisAt t i ns).1
      [{ mkSeed ((List.range 32).map fun k => at_ (j.spliceNs + left * (2 * (k : Rat) + 1) / 64)) (at_ endNs)
          (left / 1000).floor.toNat with refit := true }]

def libSeeds (s : State) (j : Job) (joints : Nat) : List JobSeed :=
  match j.goal with
  | none => []
  | some g => ((s.sluice.libs.find g.cls).getD []).map fun x =>
      mkSeed (x.waypoints.map fun w => (w.take joints).map unit16) ((x.goal.take joints).map unit16) 0

/-- The posted grasp poses of the set that the job's SEEDS token names, in rank order. -/
def postedSeeds (s : State) (j : Job) : List PosedSeed :=
  let named := match j.desc.body with
    | .planRun _ _ _ _ _ t .. => t.getLsbD 2
    | _ => false
  if named then (((s.sluice.seedSets.find j.seedSet).map (·.solutions)).getD []).take 64 else []

/-- The seed sources in the order of R153; those beyond 4,096 are dropped and counted. The spec gives a library or
`IK` seed no initial duration: it is a free value within the limits, by the seed's waypoints (log 22). -/
def opDrawSeeds (s : State) (j : Job) (r : Recipe) (m : RobotModel) : State :=
  if !j.seeds.isEmpty || j.slot != 0 then s
  else
    let tMin := 1000 * r.tMinMs
    let timed := fun (x : JobSeed) => { x with tUs := tMin + Config.seedTime x.waypoints % (1000 * r.tMaxMs - tMin + 1) }
    let n := m.joints.length
    let q0 := (j.start.take n).map (·.1)
    let ik := (postedSeeds s j).map fun x => timed (mkSeed (linePoints q0 x.joints) x.joints 0)
    let all := refitSeed s j n ++ j.route.seed.toList ++ ik ++ (libSeeds s j n).map timed
    let used := all.take 4096
    modJob s j.ref fun j => { j with
      seeds := used.take j.img.optSeeds, pool := used.drop j.img.optSeeds
      counts := { j.counts with dropped := j.counts.dropped + (all.length - used.length) } }

/-! ## Generation (R146 to R151, R155 to R157) -/

def jExp (j : Job) (i : Nat) : Int := (nth j.img.jointExp i 0).toInt

/-- A candidate's points P_0 to P_11 for joint `i` at duration `T`, from its stored mantissas. -/
def candPts (j : Job) (T : Rat) (ctrl : List (List Int)) (i : Nat) : List Rat :=
  let st := nth j.start i (0, 0, 0)
  headPts st.1 st.2.1 st.2.2 T ++ ((nth ctrl i []).map (bfxVal (jExp j i)))

/-- Goal tolerance of a joint, in rad or mm. -/
def goalTol (r : Recipe) (jt : Joint) : Rat :=
  if jt.revolute then (r.goalTol16 : Rat) / 16000 else (r.goalTol16 : Rat) / 16

def markKin : BitVec 7 := 16
def markGoal : BitVec 7 := 32

/-- The rebuilt points P_3 to P_11 of a candidate by joint, from its intended ones (R148). -/
def rebuilt (j : Job) (m : RobotModel) (tUs : Nat) (want : List (List Rat)) : List (List Rat) :=
  let T := usSec tUs
  (List.range m.joints.length).map fun i =>
    let st := nth j.start i (0, 0, 0)
    (rebuild (nth m.joints i default) st.1 st.2.1 st.2.2 T (headPts st.1 st.2.1 st.2.2 T ++ nth want i [])).drop 3

/-- How many of a candidate's points clamp as they are stored (R38). -/
def storeClamps (j : Job) (pts : List (List Rat)) : Nat :=
  sumNat ((List.range pts.length).map fun i => ((nth pts i []).filter (bfxClamps (jExp j i))).length)

/-- A candidate from its intended points P_3* to P_11* by joint: rebuild, storage, the exact check and the tail. -/
def buildCand (j : Job) (r : Recipe) (m : RobotModel) (id : W32) (l index tUs : Nat) (want : List (List Rat))
    (goal : List Rat) (spans : List (Nat × Nat × Nat)) : Cand :=
  let T := usSec tUs
  let idx := List.range m.joints.length
  let new := rebuilt j m tUs want
  let ctrl := idx.map fun i => (nth new i []).map (bfxStore (jExp j i))
  let pts := idx.map (candPts j T ctrl)
  let kin := idx.all fun i => kinOk (nth m.joints i default) T (nth pts i [])
  let tail := tailTime m.joints (pts.map fun p => endState p T) ((r.tailT0Ms : Rat) / 1000)
  let near := idx.all fun i =>
    absRat (nth (nth pts i []) 11 0 - nth goal i 0) ≤ goalTol r (nth m.joints i default)
  { id, lantern := l, index, tUs, ctrl, goal, tail
    marks := (if kin && tail.isSome then 0 else markKin) ||| (if near then 0 else markGoal)
    queries := 0, torqued := false, coarse := [], fine := [], least := none, spans, scored := false }

/-- A seed that replaced another at the latest boundary: it is not checked, so not measured, in this slot (R178). -/
def uncheckedSeed (j : Job) (x : JobSeed) : Bool := x.fresh && j.slot != 0

/-- The centres of the slot: those of the previous slot's result, else the optimised seeds. -/
def slotCentres (j : Job) : List Centre :=
  if j.centres.isEmpty then
    (j.seeds.filter fun x => !x.base.1.isEmpty).map fun x => ⟨x.base.1, x.base.2, x.goal⟩
  else j.centres

/-- A perturbation about a centre: intended points and T. -/
def perturb (j : Job) (r : Recipe) (m : RobotModel) (l index : Nat) (c : Centre) : List (List Rat) × Nat :=
  let id := idFields j l index
  let n := fun w => pnoise (pword j.planSeed j.slot id.1 id.2 w)
  let want := (List.range m.joints.length).map fun i => (List.range 9).map fun k =>
    nth (nth c.ctrl i []) k 0 + nth j.sigma i 0 * n (9 * i + k)
  let t := rhe ((c.tUs : Rat) * (1 + j.sigmaT * n 108))
  (want, (clampInt (1000 * r.tMinMs) (1000 * r.tMaxMs) t).toNat)

/-- A counted element lies in one of a candidate's intervals (R40). -/
def counted (s : State) (c : Cand) : Bool :=
  c.spans.any fun e => (physOf s e.1).any fun p => countedIn (lant s p) e.2.1 e.2.2

/-- A new candidate of the job. Elements already counted in its intervals mark it. -/
def addCand (s : State) (j : Job) (c : Cand) : State :=
  if c.id = badId || j.cands.any fun x => x.lantern == c.lantern && x.index == c.index then s
  else
    let c1 := if counted s c then { c with marks := c.marks ||| rangeMark } else c
    modJob s j.ref fun j => { j with cands := j.cands ++ [c1] }

/-- The optimised seeds that a checking lantern's first indices stand for: its own, then the copies of R218. -/
def seedOrder (j : Job) (ctx : CtxCfg) (l : Nat) : List Nat :=
  seedsOn j l ++ if ctx.beacon.redundant = 1 then seedsOn j (copiedFrom j l) else []

/-- An index that gives no candidate in this slot: its seed has no points or is not checked, or there is no centre. -/
def noCand (j : Job) (ctx : CtxCfg) (l index : Nat) : Bool :=
  match (seedOrder j ctx l)[index]? with
  | some k => (nth j.seeds k default).base.1.isEmpty || uncheckedSeed j (nth j.seeds k default)
  | none => (slotCentres j).isEmpty || jobId j l index == badId

/-- Candidate `index` of checking lantern `l`, generated on lantern `p`: an optimised seed, a redundant copy (R218) or a
perturbation. The clamps of its stored points count on `p`. -/
def opGenerate (s : State) (p : Phys) (j : Job) (r : Recipe) (m : RobotModel) (l index : Nat) : State :=
  let ctx := ctxOn s l
  if !(checkers j).contains l || indexLimit j ctx ≤ index then s
  else
    let spans := (ctx.spans.filter fun e => e.index == index).map fun e => (e.lantern, e.first, e.last)
    let build := fun (id : W32) (tUs : Nat) (want : List (List Rat)) (goal : List Rat) =>
      countRange (addCand s j (buildCand j r m id l index tUs want goal spans)) p (storeClamps j (rebuilt j m tUs want))
    match (seedOrder j ctx l)[index]? with
    | some k =>
      let x := nth j.seeds k default
      if noCand j ctx l index then s else build (seedId j k) x.base.2 x.base.1 x.goal
    | none =>
      let cs := slotCentres j
      match cs[index % cs.length]? with
      | none => s
      | some c =>
        let x := perturb j r m l index c
        build (jobId j l index) x.2 x.1 c.goal

/-! ## Marks (R152, R169) -/

def modCand (s : State) (j : Job) (p : Cand → Bool) (f : Cand → Cand) : State :=
  modJob s j.ref fun j => { j with cands := j.cands.map fun c => if p c then f c else c }

def addMark (b : BitVec 7) (c : Cand) : Cand := { c with marks := c.marks ||| b }

/-! ## The sampler (R159 to R165) -/

/-- Which group of a delivered part stands in a link group's place: the model's carried-part groups take the part's in
order, and further ones of the part follow the model's groups. -/
def partGroupOf (m : RobotModel) (grp : Nat) : Option Nat :=
  let before := ((m.groups.take grp).filter (·.carried)).length
  if grp < m.groups.length then (if (nth m.groups grp default).carried then some before else none)
  else some (before + (grp - m.groups.length))

/-- The job's link groups; carried-part groups take the delivered part. -/
def jobGroups (j : Job) (m : RobotModel) : List LinkGroup :=
  match j.carried with
  | none => m.groups
  | some c =>
    let extra := c.groups.length - (m.groups.filter (·.carried)).length
    (List.range (m.groups.length + extra)).map fun i =>
      match partGroupOf m i with
      | none => nth m.groups i default
      | some k => let g := nth c.groups k default
                  { spheres := g.spheres, radius := g.rB, reach := g.reach, carried := true }

/-- A group fixed to the robot's base moves with no joint and is not checked (R144). -/
def baseGroup (g : LinkGroup) : Bool := g.spheres.all fun x => x.reach.all (· == 0)

/-- First sphere number of a group. -/
def sphereBase (gs : List LinkGroup) (g : Nat) : Nat := sumNat ((gs.take g).map fun x => x.spheres.length)

def winCode (w : Ram) (a : Nat) : Int := sgn 8 (w.read a).toNat

/-- Lower corner and fractional offset in 1/256 voxel, truncated (R165). -/
def sampleCell (p : Rat) : Nat × Rat :=
  let c := cellOf 5 p
  (c.1.toNat, ((c.2 * 256).floor : Rat) / 256)

/-- The trilinear range of a window: 2.5 mm inside each face (R164). -/
def inTrilinear (q : Vec3) : Bool :=
  let ok := fun (v : Rat) (n : Rat) => 5 / 2 ≤ v && v ≤ n - 5 / 2
  ok q.x 960 && ok q.y 960 && ok q.z 800

/-- A trilinear sample: distance in 1/16 mm and gradient in 1/1,024; `none` outside the trilinear range. -/
def sampleWindow (w : Ram) (o p : Vec3) : Option (Int × List Int) :=
  let q := Vec3.sub p o
  if !inTrilinear q then none
  else
    let x := sampleCell q.x
    let y := sampleCell q.y
    let z := sampleCell q.z
    let v := fun (a b c : Nat) =>
      (winCode w (winAddr (min (x.1 + a) 191) (min (y.1 + b) 191) (min (z.1 + c) 159)) : Rat)
    let d := trilinear v x.2 y.2 z.2 * 8
    let g := fun (f : Rat → Rat) => clampInt (-32768) 32767 (rhe ((f 1 - f 0) / 10 * 1024))
    some (d.floor - 1,
      [g fun t => trilinear v t y.2 z.2, g fun t => trilinear v x.2 t z.2, g fun t => trilinear v x.2 y.2 t])

/-- The code of the slice voxel nearest a point, in mm; `none` outside the slice extent. DESIGN CHOICE (log 152): on the face between
two voxels the higher index is taken. -/
def sampleSlice (w : Ram) (o p : Vec3) (sl : Nat) : Option Int :=
  let q := Vec3.sub p o
  let ok := fun (v : Rat) (n : Rat) => 0 ≤ v && v ≤ n
  if ok q.x 960 && ok q.y 960 && ok q.z 800 then
    let i := fun (v : Rat) (n : Nat) => min (v / 20).floor.toNat (n - 1)
    some (2 * winCode w (sliceAddr sl (i q.x 48) (i q.y 48) (i q.z 40)))
  else none

/-- The slices that bracket an absolute time (R135, R162). -/
def slicesAt (teNs : Nat) (tNs : Rat) : List Nat :=
  let d := (tNs - teNs) / 8000000
  if 15 < d then [15]
  else
    let n := (clampInt 0 14 d.floor).toNat
    [n, n + 1]

/-- Time of a waypoint after the trajectory's start, in s. -/
def wayTime (T tb : Rat) (k : Nat) : Rat :=
  if k < 32 then (2 * (k : Rat) + 1) / 64 * T else T + (2 * ((k : Rat) - 32) + 1) / 32 * tb

/-- Half-width of a waypoint's interval, in s. -/
def halfWidth (T tb : Rat) (k : Nat) : Rat := if k < 32 then T / 64 else tb / 32

structure CandGeom where
  T  : Rat
  tb : Rat
  ps : List (List Rat)

def candGeom (j : Job) (r : Recipe) (m : RobotModel) (c : Cand) : CandGeom :=
  let T := usSec c.tUs
  ⟨T, c.tail.getD ((r.tailT0Ms : Rat) / 1000), (List.range m.joints.length).map (candPts j T c.ctrl)⟩

/-- Positions, velocities and accelerations of the joints at a waypoint. -/
def wayStates (g : CandGeom) (k : Nat) : List (Rat × Rat × Rat) :=
  g.ps.map fun p =>
    if k < 32 then bodyAt p g.T (wayTime g.T g.tb k) else tailAt (endState p g.T) g.tb (wayTime g.T g.tb k - g.T)

def wayPos (g : CandGeom) (k : Nat) : List Rat := (wayStates g k).map (·.1)

/-- Bounding centre of a group at joint values `q`. -/
def groupCentre (j : Job) (r : Recipe) (m : RobotModel) (grp : Nat) (q : List Rat) : Vec3 :=
  match partGroupOf m grp, j.carried with
  | some k, some c => Config.partBound r.bodyDigest j.img.robot.toNat c k q
  | _, _ => Config.boundCentre r.bodyDigest j.img.robot.toNat grp q

/-- The group and the place in it of a sphere number. -/
def sphereAt (gs : List LinkGroup) (sph : Nat) : Option (Nat × Nat) :=
  (List.range gs.length).findSome? fun g =>
    let b := sphereBase gs g
    if b ≤ sph ∧ sph < b + (nth gs g default).spheres.length then some (g, sph - b) else none

/-- Centre of a sphere at joint values `q`. -/
def sphereCentreOf (j : Job) (r : Recipe) (m : RobotModel) (gs : List LinkGroup) (sph : Nat) (q : List Rat) : Vec3 :=
  match sphereAt gs sph with
  | none => ⟨0, 0, 0⟩
  | some (g, i) =>
    match partGroupOf m g, j.carried with
    | some k, some c => Config.partCentre r.bodyDigest j.img.robot.toNat c k i q
    | _, _ => Config.sphereCentre r.bodyDigest j.img.robot.toNat g i q

/-- Some torque exceeds its limit at one of the 32 body waypoints (R152). -/
def torqueOver (j : Job) (r : Recipe) (m : RobotModel) (g : CandGeom) : Bool :=
  (List.range 32).any fun k =>
    let x := wayStates g k
    (List.range m.joints.length).any fun i =>
      decide ((nth m.joints i default).tauMax < absRat (Config.jointTorque r.bodyDigest j.img.robot.toNat i r.payloadMax
        (x.map (·.1)) (x.map (·.2.1)) (x.map (·.2.2))))

/-- A candidate by its checking lantern and its index there. -/
def isCand (l index : Nat) (c : Cand) : Bool := c.lantern == l && c.index == index

/-- The inverse-dynamics stage tests one candidate. -/
def opTorque (s : State) (j : Job) (r : Recipe) (m : RobotModel) (l index : Nat) : State :=
  modCand s j (isCand l index) fun c =>
    let c1 := { c with torqued := true }
    if torqueOver j r m (candGeom j r m c) then addMark 2 c1 else c1

/-- A clearance in mm as stored: 1/16 mm steps toward minus infinity (DEDUCED, log 23). -/
def clear16 (mm : Rat) : Int := (mm * 16).floor

def lesser (a : Option (Int × Nat × Nat)) (b : Int × Nat × Nat) : Option (Int × Nat × Nat) :=
  match a with
  | some x => if b.1 < x.1 then some b else some x
  | none => some b

/-- Sphere-waypoints of a coarse list in rank order, and those that the fine step selects (R163). -/
def fineSelection (c : Cand) (body : Bool) : List (Nat × Nat) :=
  let mine := c.coarse.filter fun e => (e.2.1 < 32) == body
  let ranked := mine.insertionSort fun a b =>
    a.2.2 < b.2.2 ∨ (a.2.2 = b.2.2 ∧ (a.1 < b.1 ∨ (a.1 = b.1 ∧ a.2.1 ≤ b.2.1)))
  (ranked.take (if body then 256 else 48)).map fun e => (e.1, e.2.1)

def outside (c : Cand) : Cand := addMark 65 c

/-- The coarse static query of a group at a waypoint (R161). DESIGN CHOICE (log 153): outside the trilinear range there is no d_B, so the
group's spheres take no bound at that waypoint and the fine step does not select them. -/
def queryCoarse (w : Ram) (g : CandGeom) (gs : List LinkGroup) (o : Vec3) (grp k : Nat) (p : Vec3) (c : Cand) : Cand :=
  match gs[grp]? with
  | none => c
  | some lg =>
    match sampleWindow w o p with
    | none => outside c
    | some (d, _) =>
      let base := sphereBase gs grp
      let new := (List.range lg.spheres.length).map fun i =>
        let sp := nth lg.spheres i default
        (base + i, k, clear16 ((d : Rat) / 16 - sp.offset - sp.radius - sweep g.ps g.T g.tb sp.reach k))
      { c with coarse := c.coarse ++ new }

/-- The dynamic query of a group at a waypoint (R162). -/
def queryDyn (w : Ram) (j : Job) (r : Recipe) (g : CandGeom) (gs : List LinkGroup) (o : Vec3) (grp k : Nat) (p : Vec3)
    (c : Cand) : Cand :=
  match gs[grp]? with
  | none => c
  | some lg =>
    let t : Rat := j.spliceNs + 1000000000 * wayTime g.T g.tb k
    let vals := (slicesAt j.winTe t).filterMap (sampleSlice w o p)
    match vals with
    | [] => outside c
    | v :: vs =>
      let d : Rat := (vs.foldl min v : Int)
      let excess := 1000 * halfWidth g.T g.tb k - 4
      let x := clear16 (d - 1732 / 100 - lg.radius - sweep g.ps g.T g.tb lg.reach k
        - (r.vDynMax : Rat) / 1000 * (if excess < 0 then 0 else excess))
      let c1 := { c with least := lesser c.least (x, 0xF0 + grp, k) }
      if x < r.clearMin16 then addMark 1 c1 else c1

/-- The fine query of a selected sphere-waypoint at its own centre (R163). -/
def queryFine (w : Ram) (g : CandGeom) (gs : List LinkGroup) (o : Vec3) (sph k : Nat) (p : Vec3) (c : Cand) : Cand :=
  match (gs.flatMap (·.spheres))[sph]?, sampleWindow w o p with
  | some sp, some (d, grad) =>
    let x := clear16 ((d : Rat) / 16 - sp.radius - sweep g.ps g.T g.tb sp.reach k)
    { c with fine := c.fine ++ [⟨sph, k, x, grad⟩] }
  | some _, none => outside c
  | none, _ => c

/-- A query of R160: a group at a waypoint, or a place in the fine selection of the body or the tail. -/
inductive Query where
  | coarse (grp k : Nat)
  | dynamic (grp k : Nat)
  | fine (body : Bool) (i : Nat)
  deriving DecidableEq, Repr

/-- The queries of every candidate. -/
def queryCount : Nat := 1456

/-- The n-th query, in the order of R160's rows. DESIGN CHOICE (log 100): within a row, group by group. -/
def queryAt (n : Nat) : Query :=
  if n < 384 then .coarse (n / 32) (n % 32)
  else if n < 768 then .dynamic ((n - 384) / 32) ((n - 384) % 32)
  else if n < 1024 then .fine true (n - 768)
  else if n < 1216 then .coarse ((n - 1024) / 16) (32 + (n - 1024) % 16)
  else if n < 1408 then .dynamic ((n - 1216) / 16) (32 + (n - 1216) % 16)
  else .fine false (n - 1408)

/-- One query of a candidate, at the point that forward kinematics gives; an unused group or sphere and a group fixed to
the base are queried without effect. -/
def runQuery (w : Ram) (j : Job) (r : Recipe) (m : RobotModel) (o : Vec3) (c : Cand) : Cand :=
  let gs := jobGroups j m
  let g := candGeom j r m c
  let idle := fun (grp : Nat) => baseGroup (nth gs grp ⟨[], 0, [], false⟩)
  let c1 := { c with queries := c.queries + 1 }
  match queryAt c.queries with
  | .coarse grp k => if idle grp then c1 else queryCoarse w g gs o grp k (groupCentre j r m grp (wayPos g k)) c1
  | .dynamic grp k => if idle grp then c1 else queryDyn w j r g gs o grp k (groupCentre j r m grp (wayPos g k)) c1
  | .fine body i =>
    match (fineSelection c body)[i]? with
    | some (sph, k) => queryFine w g gs o sph k (sphereCentreOf j r m gs sph (wayPos g k)) c1
    | none => c1

/-- A candidate that the sampler is done with. -/
def sampled (c : Cand) : Bool := c.queries == queryCount || c.marks &&& 8 != 0

/-- Every earlier index of the lantern that gives a candidate has one, and it satisfies `p` (R166, R215). -/
def earlier (s : State) (j : Job) (l index : Nat) (p : Cand → Bool) : Bool :=
  (List.range index).all fun i =>
    match j.cands.find? (isCand l i) with
    | some c => p c
    | none => noCand j (ctxOn s l) l i

/-- The next query of a candidate on its checking lantern, in the window and dynamic layer of the lantern's basin. -/
def opQuery (s : State) (p : Phys) (j : Job) (r : Recipe) (m : RobotModel) (l index : Nat) : State :=
  match r.windows[j.window]? with
  | none => s
  | some o =>
    if earlier s j l index sampled then
      modCand s j (fun c => isCand l index c && !sampled c) (runQuery (lant s p).basin j r m o)
    else s

/-! ## Score (R168, R169) -/

/-- Every judged sphere-waypoint: by its fine sample where it has one, else by its coarse bound. -/
def judged (c : Cand) : List (Int × Nat × Nat) :=
  c.coarse.map fun e =>
    match c.fine.find? fun f => f.sphere == e.1 && f.waypoint == e.2.1 with
    | some f => (f.clear, e.1, e.2.1)
    | none => (e.2.2, e.1, e.2.1)

def costOf (r : Recipe) (lp tUs pen : Nat) : Nat := min (r.wPath * lp + r.wTime * tUs + r.wClear * pen) 0x7FFF_FFFE

/-- Control-polygon length in 1/1,024 rad or mm. -/
def polyLen (ps : List (List Rat)) : Nat := (rhe (1024 * sumRat (ps.flatMap fun p => (deltas p).map absRat))).toNat

/-- The payload row of R158. -/
def payloadRow (j : Job) (m : RobotModel) (c : Cand) : List Byte :=
  leBytes 4 c.id.toNat ++ leBytes 4 c.tUs ++ [BitVec.ofNat 8 j.img.robot.toNat] ++ leBytes 1 m.joints.length
    ++ List.replicate 6 0
    ++ slice (c.ctrl.flatMap fun q => q.flatMap fun v => leBytes 2 (uns 16 v)) 0 216 ++ List.replicate 24 0

/-- Judges a wholly checked candidate. -/
def judgeCand (r : Recipe) (c : Cand) : Cand :=
  let js := judged c
  let c1 := { c with least := js.foldl lesser c.least, scored := true }
  if js.any (fun e => e.1 < r.clearMin16) then addMark 1 c1 else c1

/-- A wholly checked candidate: its queries are done and, where the slot has the inverse-dynamics stage, its torques
tested. -/
def checked (j : Job) (c : Cand) : Bool :=
  c.queries == queryCount && (c.torqued || (stageLanterns j 11).isEmpty)

/-- The score of a wholly checked candidate is formed, in index order; unmarked, it is offered to its lantern's list. -/
def opScore (s : State) (p : Phys) (j : Job) (r : Recipe) (m : RobotModel) (l index : Nat) : State :=
  match j.cands.find? (isCand l index) with
  | none => s
  | some c =>
    if !checked j c || c.scored || !earlier s j l index (fun x => x.scored || x.marks &&& 8 != 0) then s
    else
      let c1 := judgeCand r c
      let s1 := modCand s j (isCand l index) fun _ => c1
      if c1.marks != 0 then s1
      else
        let g := candGeom j r m c
        let pen := sumInt ((judged c).map fun e => max 0 ((r.penalty16 : Int) - e.1))
        pushOffer s1 p ⟨c.id, costOf r (polyLen g.ps) c.tUs pen.toNat,
          slice (payloadRow j m c) 0 (64 * (ctxOn s l).beacon.row), c.goal⟩

/-! ## Measurement blocks (R177)

DESIGN CHOICE (log 131): the spec gives the blocks' size and no address or layout. An entry holds the sphere at 0, the waypoint at 2,
a byte of flags at 3, the clearance at 4 and the gradient at 8, each little-endian; flag 0 says that the entry is in use and flag 7 of
the last entry is COMPLETE. Blocks follow one another from a pool address of the context, in seed order. -/

def sampleBytes (f : FineSample) : List Byte :=
  leBytes 2 f.sphere ++ leBytes 1 f.waypoint ++ [1] ++ leBytes 4 (uns 32 f.clear)
    ++ ((List.range 3).flatMap fun i => leBytes 2 (uns 16 (nth f.grad i 0))) ++ zeros 2

/-- A block of 256 entries of 16 B, complete. -/
def measBytes (fine : List FineSample) : List Byte :=
  let bs := slice ((fine.filter fun f => f.waypoint < 32).flatMap sampleBytes) 0 4096
  bs.set 4083 (nth bs 4083 0 ||| 0x80)

def sampleOf (bs : List Byte) : FineSample :=
  { sphere := field bs 0 2, waypoint := field bs 2 1, clear := sgn 32 (field bs 4 4)
    grad := (List.range 3).map fun i => sgn 16 (field bs (8 + 2 * i) 2) }

/-- The entries in use of a block. -/
def samplesOf (bs : List Byte) : List FineSample :=
  ((List.range 256).filter fun i => (nth bs (16 * i + 3) 0).getLsbD 0).map fun i => sampleOf (slice bs (16 * i) 16)

/-- The checking lantern writes the block of its seed once the seed's body fine step is complete. -/
def opMeasure (s : State) (p : Phys) (j : Job) (l k : Nat) : State :=
  match j.cands.find? fun c => c.id == seedId j k && c.lantern == l with
  | none => s
  | some c =>
    if c.queries < 1024 || !(seedsOn j l).contains k then s
    else
      modJob (poolPut s p ((activeCtx (lant s p)).cascade.measAt + 4096 * (seedsOn j l).idxOf k) (measBytes c.fine)) j.ref
        fun j => { j with seeds := j.seeds.set k { nth j.seeds k default with measured := true } }

/-- The block of seed `k` goes from its checking lantern's pool to the pools of the lanterns that carry the assembler. -/
def moveBlock (j : Job) (s : State) (k : Nat) : State :=
  let l := nth (checkers j) (k % (checkers j).length) 32
  match physOf s l with
  | none => s
  | some src =>
    let at_ := (ctxOn s l).cascade.measAt + 4096 * (seedsOn j l).idxOf k
    let cold := placeAsleep s (.basin src 0)
    let bs := if cold then zeros 4096 else poolGet s src at_ 4096
    let s1 := ((stageLanterns j 4).filterMap (physOf s)).foldl (fun s p =>
      if placeAsleep s (.basin p 0) then retainedAccess s j.ref
      else poolPut s p ((activeCtx (lant s p)).cascade.asmAt + 4096 * k) bs) s
    if cold then retainedAccess s1 j.ref else s1

/-! ## The budget guard (R167) -/

def cutOff (c : Cand) : Cand := { addMark 8 c with coarse := [], fine := [], least := none }

/-- `BUDGET_GUARD` (R167): at the sampler's planned end on a lantern. -/
def execBudgetGuard (job : JobRef) (l : Logical) (s : State) : Out :=
  serve s fun s =>
    match findJob s job with
    | none => s
    | some j =>
      if (checkers j).contains l.val then modCand s j (fun c => c.lantern == l.val && c.queries < queryCount) cutOff else s

/-- Flag NO_MEASURE of R194. -/
def noMeasure : Byte := 16

/-- `MEASUREMENT_TRANSFER` (R177): at `MEAS_CYCLE` − 64 the complete blocks go to the assembler; a seed whose block is
not complete is flagged. -/
def execMeasurementTransfer (job : JobRef) (s : State) : Out :=
  serve s fun s =>
    match findJob s job with
    | none => s
    | some j =>
      let moved := (List.range j.seeds.length).filter fun k => (nth j.seeds k default).measured
      modJob (moved.foldl (moveBlock j) s) job fun j =>
        let missing := (j.seeds.filter fun x => !x.measured && !uncheckedSeed j x).length
        let seeds := j.seeds.map fun x =>
          if x.measured then { x with moved := true, status := x.status &&& ~~~ noMeasure }
          else if uncheckedSeed j x then x else { x with status := x.status ||| noMeasure }
        { j with seeds, counts := { j.counts with noMeasure := j.counts.noMeasure + missing } }

end Sys2Proof.Machine
end

