-- ==== Sys2Proof/Machine/Cascade.lean ====
section
/-! DEFINITION. The cascade and the assembler (R171 to R195): lanes, the Gauss-Newton system, the scalar and the block
LDLᵀ with the pivot clamp, the iterations of the three kinds of solve with their residual tests, time scaling,
saturation, interruption, solve status and seed replacement. -/

namespace Sys2Proof.Machine

open Sys2Proof

/-! ## Solves -/

def flagPivot : Byte := 1
def flagCapped : Byte := 2
def flagRange : Byte := 4
def flagInterrupted : Byte := 8

/-- The same solve: of one seed and kind, in the seed phase or outside it (R176). -/
def Solve.same (x y : Solve) : Bool := x.seed == y.seed && x.kind == y.kind && x.phase == y.phase

/-- The solve of a seed and kind that was begun last: a slot's measured one, else that of its seed phase. -/
def findSolve (j : Job) (seed : Nat) (kind : SolveKind) : Option Solve :=
  let mine := j.solves.filter fun x => x.seed == seed && x.kind == kind
  (mine.find? fun x => !x.phase).or mine.head?

def delSolve (j : Job) (x : Solve) : Job := { j with solves := j.solves.filter fun y => !y.same x }

def putSolve (j : Job) (x : Solve) : Job := { j with solves := (delSolve j x).solves ++ [x] }

def setSeed (j : Job) (k : Nat) (f : JobSeed → JobSeed) : Job :=
  match j.seeds[k]? with
  | some x => { j with seeds := j.seeds.set k (f x) }
  | none => j

def jobCounts (f : Counts → Counts) (j : Job) : Job := { j with counts := f j.counts }

/-- Counts one solve run of a kind (R195). -/
def countSolve (kind : SolveKind) (c : Counts) : Counts :=
  match kind with
  | .gn => { c with gn := c.gn + 1 }
  | .ik => { c with ik := c.ik + 1 }
  | .ts => { c with ts := c.ts + 1 }

/-- The status byte is rewritten at each solve; bit 0 accumulates (R194). -/
def newStatus (old flags : Byte) : Byte := (old &&& flagPivot) ||| flags

/-- The parameters with another block in the place of the diagonal one: what the scalar factorisation reads (R181, R182). -/
def overBlock (c : CascadeCfg) (e : BlockExp) : CascadeCfg := { c with eDiag := e }

/-- Block scale S_b of a block exponent (before R175). -/
def blockScale (c : CascadeCfg) (e : Int) : Rat := pow2 (e + 15 - c.guard)

/-- Cascade lantern and lane of seed `m`: lantern m mod n_c, lane floor(m / n_c) mod 16 (R171). -/
def seedLane (j : Job) (m : Nat) : Nat × Nat :=
  let cs := stageLanterns j 5
  (nth cs (m % cs.length) 32, m / cs.length % 16)

/-- Iteration caps by kind (R175). -/
def capOf (c : CascadeCfg) : SolveKind → Nat
  | .gn => c.capGn
  | .ik => c.capIk
  | .ts => c.capTs

/-- The cycles for which a solve occupies its lane: its set-up's and `I_CAP` times an iteration's, whatever the number of iterations
that it runs (R174). -/
def laneCycles (c : CascadeCfg) (kind : SolveKind) (joints : Nat) : Nat :=
  ((c.cycles.find? fun e => e.kind == kind && e.joints == joints).map fun e => e.setup + capOf c kind * e.iter).getD 0

/-- Wick `w` of lantern `l` may go on with a solve in cycle `cycle`: its lane, of wicks 4·lane to 4·lane + 3, is the seed's (R171),
is past the planned end of every other solve that it ran (R174), and has run no higher seed's solve of this kind in this phase. An `IK`
solve stays on the lane that began it (DEDUCED, log 132). -/
def onLane (j : Job) (l w cycle : Nat) (x : Solve) : Bool :=
  let lane := (l, w / 4)
  (x.kind == .ik || seedLane j x.seed == lane) && (x.lane.isNone || x.lane == some lane)
    && j.solves.all fun y => y.same x || y.lane != some lane
      || (y.ended && y.until_ ≤ cycle && (x.kind == .ik || y.kind != x.kind || y.phase != x.phase || y.seed < x.seed))

/-- A solve on its lane: one that begins there occupies it up to its planned end. -/
def onto (c : CascadeCfg) (joints l w cycle : Nat) (x : Solve) : Solve :=
  if x.lane.isSome then x else { x with lane := some (l, w / 4), until_ := cycle + laneCycles c x.kind joints }

/-- The declared intervals of an iteration of a solve or, as number 0, of its seed's assembly on a lantern (R190). -/
def intervals (l : Lantern) (x : Solve) (iter : Nat) : List SolveSpan :=
  (activeCtx l).solves.filter fun e => e.seed == x.seed && e.kind == x.kind && e.phase == x.phase && e.iter == iter

/-- An element was counted on the lantern in one of these intervals. -/
def saturated (l : Lantern) (x : Solve) (iter : Nat) : Bool :=
  (intervals l x iter).any fun e => countedIn l e.first e.last

/-- An interval is still open: the lantern has not passed its last cycle. -/
def intervalOpen (l : Lantern) (x : Solve) (iter : Nat) : Bool :=
  (intervals l x iter).any fun e => l.cycle ≤ e.last

/-! ## Vectors and blocks -/

def dotRat (a b : List Rat) : Rat := sumRat (List.zipWith (· * ·) a b)

def addVec (a b : List Rat) : List Rat := List.zipWith (· + ·) a b

def subVec (a b : List Rat) : List Rat := List.zipWith (· - ·) a b

def mulMat (a : List (List Rat)) (x : List Rat) : List Rat := a.map fun row => dotRat row x

def transpose (a : List (List Rat)) (n : Nat) : List (List Rat) := (List.range n).map fun i => a.map fun row => nth row i 0

/-- A vector drained to a block exponent (R38), and how many of its elements clamp. -/
def drainVec (e : Int) (v : List Rat) : List Rat × Nat :=
  (v.map fun x => bfxVal e (bfxStore e x), (v.filter (bfxClamps e)).length)

def drainMat (e : Int) (a : List (List Rat)) : List (List Rat) × Nat :=
  (a.map fun row => (drainVec e row).1, sumNat (a.map fun row => (drainVec e row).2))

def maxAbs (v : List Rat) : Rat := maxRat (v.map absRat)

/-! ## The scalar LDLᵀ (R181 to R184) -/

/-- Threshold τ in the pivot's unit 2^(E_b − 16). -/
def tauUnits (c : CascadeCfg) : Nat := 2 ^ (31 - c.guard - c.tauShift)

/-- One pivot: the exact value as a 32-bit mantissa, and its replacement below τ. DESIGN CHOICE (log 155): a value outside the
mantissa's range is held as the nearest mantissa, and is no counted element. -/
def pivotOf (c : CascadeCfg) (d : Rat) : Int × Bool :=
  let v := clampInt int32Min int32Max (rhe (d / pow2 (c.eDiag.toInt - 16)))
  if v.natAbs < tauUnits c then ((if v < 0 then -(tauUnits c : Int) else tauUnits c), true) else (v, false)

/-- The reciprocal of a pivot's mantissa, within one unit in the last place of the correctly rounded one (R183). DESIGN
CHOICE (log 101): it is held with 31 significant bits. -/
def recip (p : Int) : Rat :=
  let ulp := pow2 (-((Nat.log2 p.natAbs : Int) + 31))
  (rhe (1 / ((p : Rat) * ulp)) + clampInt (-1) 1 (Config.recipErr p) : Int) * ulp

/-- A factorisation with whether a pivot was clamped and how many entries clamped as they were drained. -/
structure Factored where
  factor  : Factor
  clamped : Bool
  counted : Nat
  deriving DecidableEq, Repr

/-- inner_ldl of a symmetric block: factor entries are drained to the factor block's exponent, and a division by a pivot
is a multiplication by its reciprocal. -/
def innerLdl (c : CascadeCfg) (a : List (List Rat)) : Factored :=
  (List.range a.length).foldl (fun (f : Factored) i =>
    let row := nth a i []
    let dv := fun k => bfxVal (c.eDiag.toInt - 16) (nth f.factor.pivots k 0)
    let entries := (List.range i).foldl (fun (acc : List Int × Nat) k =>
      let lk := nth f.factor.lower k []
      let num := nth row k 0 - sumRat ((List.range k).map fun m =>
        bfxVal c.eFactor.toInt (nth acc.1 m 0) * bfxVal c.eFactor.toInt (nth lk m 0) * dv m)
      let raw := rhe (num * recip (nth f.factor.pivots k 0) / pow2 (c.eDiag.toInt - 16) / pow2 c.eFactor.toInt)
      let st := clampFlag int16Min int16Max raw
      (acc.1 ++ [st.1], acc.2 + b2n st.2)) ([], 0)
    let d := nth row i 0 - sumRat ((List.range i).map fun k =>
      bfxVal c.eFactor.toInt (nth entries.1 k 0) * bfxVal c.eFactor.toInt (nth entries.1 k 0) * dv k)
    let p := pivotOf c d
    ⟨⟨f.factor.pivots ++ [p.1], f.factor.lower ++ [entries.1]⟩, f.clamped || p.2, f.counted + entries.2⟩)
    ⟨⟨[], []⟩, false, 0⟩

def factorEntry (c : CascadeCfg) (f : Factor) (i k : Nat) : Rat := bfxVal c.eFactor.toInt (nth (nth f.lower i []) k 0)

/-- Forward, diagonal and backward pass with one factor. -/
def solveLdl (c : CascadeCfg) (f : Factor) (b : List Rat) : List Rat :=
  let n := f.pivots.length
  let y := (List.range n).foldl (fun (ys : List Rat) i =>
    ys ++ [nth b i 0 - sumRat ((List.range i).map fun k => factorEntry c f i k * nth ys k 0)]) []
  let z := (List.range n).map fun i => nth y i 0 * recip (nth f.pivots i 0) / pow2 (c.eDiag.toInt - 16)
  (List.range n).foldr (fun i (xs : List Rat) =>
    (nth z i 0 - sumRat ((List.range xs.length).map fun t => factorEntry c f (i + 1 + t) i * nth xs t 0)) :: xs) []

/-! ## The assembler (R180, R190) -/

def cross (a b : Vec3) : Vec3 := ⟨a.y * b.z - a.z * b.y, a.z * b.x - a.x * b.z, a.x * b.y - a.y * b.x⟩

/-- Columns of the Jacobian of a sphere's centre: z_j × (p_s − o_j) for a revolute joint, z_j for a prismatic one, zero for
a joint that does not move the sphere. -/
def sphereJacobian (j : Job) (r : Recipe) (m : RobotModel) (sph : Nat) (q : List Rat) : List Vec3 :=
  let gs := jobGroups j m
  let p := sphereCentreOf j r m gs sph q
  let reach := ((gs.flatMap (·.spheres))[sph]?.map (·.reach)).getD []
  (List.range m.joints.length).map fun i =>
    let ax := Config.jointAxis r.bodyDigest j.img.robot.toNat i q
    if (nth reach i (0 : Rat)) = 0 then ⟨0, 0, 0⟩
    else if (nth m.joints i default).revolute then cross ax.2 (Vec3.sub p ax.1) else ax.2

/-- a_s,k: the columns of the sphere's Jacobian against the sampled gradient. -/
def gradTerm (cols : List Vec3) (g : List Int) : List Rat :=
  let v : Vec3 := ⟨(nth g 0 0 : Rat) / 1024, (nth g 1 0 : Rat) / 1024, (nth g 2 0 : Rat) / 1024⟩
  cols.map fun c => Vec3.dot c v

/-- The fine samples that enter the cost, in ascending (s, k) order, with m_p − c in mm and a_s,k. -/
def costTerms (r : Recipe) (block : List FineSample) (jac : Nat → Nat → List Vec3) : List (Nat × Rat × List Rat) :=
  let f := (block.filter fun e => e.clear < (r.penalty16 : Int)).insertionSort fun a b =>
    a.sphere < b.sphere ∨ (a.sphere = b.sphere ∧ a.waypoint ≤ b.waypoint)
  f.map fun e =>
    (e.waypoint, ((r.penalty16 : Rat) - e.clear) / 16, gradTerm (jac e.sphere e.waypoint) e.grad)

/-- The normal equations of R180 for `n` joints. -/
def assembleGn (c : CascadeCfg) (n : Nat) (wCl : Nat) (terms : List (Nat × Rat × List Rat)) (way : List (List Rat))
    (qs qg : List Rat) : GnSystem :=
  let mu := blockScale c c.eDiag.toInt / 2 ^ c.muShift
  let w : Rat := c.wSm
  let q := fun (k i : Nat) => nth (nth way k []) i 0
  let at_ := fun k => terms.filter fun t => t.1 == k
  let diag := (List.range 32).map fun k => (List.range n).map fun i => (List.range n).map fun m =>
    let own : Rat := if k = 31 then w + c.wGo else 2 * w
    (if i = m then own + mu else 0) + wCl * sumRat ((at_ k).map fun t => nth t.2.2 i 0 * nth t.2.2 m 0)
  let rhs := (List.range 32).map fun k => (List.range n).map fun i =>
    let cl : Rat := wCl * sumRat ((at_ k).map fun t => t.2.1 * nth t.2.2 i 0)
    if k = 31 then w * (q 30 i - q 31 i) + c.wGo * (nth qg i 0 - q 31 i) + cl
    else
      let prev := if k = 0 then nth qs i 0 else q (k - 1) i
      w * (prev - 2 * q k i + q (k + 1) i) + cl
  ⟨diag, rhs, c.wSm⟩

/-- The system as stored: blocks drained to the exponents of the diagonal and right-hand-side blocks. -/
def storeGn (c : CascadeCfg) (g : GnSystem) : GnSystem × Nat :=
  let d := g.diag.map (drainMat c.eDiag.toInt)
  let b := drainMat c.eRhs.toInt g.rhs
  ({ g with diag := d.map (·.1), rhs := b.1 }, sumNat (d.map (·.2)) + b.2)

def startPos (j : Job) (n : Nat) : List Rat := (j.start.take n).map (·.1)

/-- The current waypoints of a seed: its control points at t_k where a `TS` solve has given it some (R180). -/
def seedWay (j : Job) (x : JobSeed) : List (List Rat) :=
  if x.ctrl.isEmpty then x.waypoints
  else
    let T := usSec x.tUs
    (List.range 32).map fun k => (List.range x.ctrl.length).map fun i =>
      let st := nth j.start i (0, 0, 0)
      (bodyAt (headPts st.1 st.2.1 st.2.2 T ++ nth x.ctrl i []) T (wayTime T 0 k)).1

/-- The seed phase of a seed that is new in its slot (R176, R178). -/
def inSeedPhase (j : Job) (l : Lantern) (x : JobSeed) : Bool := x.fresh && l.cycle ≤ j.img.seedEnd

/-- A seed is solved for in its seed phase, and later in a slot only with its measurement at the assembler (R177). -/
def maySolve (j : Job) (l : Lantern) (x : JobSeed) : Bool := inSeedPhase j l x || x.moved

/-- A solve at x_0. -/
def blankSolve (seed : Nat) (kind : SolveKind) (x0 : List (List Rat)) : Solve :=
  ⟨seed, kind, ⟨0, x0, [], [], 0, [], []⟩, none, false, false, none, 0, none, 0, []⟩

/-- The assembly of a seed on an assembler lantern, from the measurement block in its pool; without clearance terms in the seed
phase. It stands once its interval has passed (R190). -/
def opAssemble (s : State) (p : Phys) (j : Job) (r : Recipe) (m : RobotModel) (k : Nat) : State :=
  let l := lant s p
  match j.seeds[k]? with
  | none => s
  | some x =>
    if !maySolve j l x then s
    else
      let n := m.joints.length
      let cfg := (activeCtx l).cascade
      let way := seedWay j x
      let first := inSeedPhase j l x
      let block := if first then [] else samplesOf (poolGet s p (cfg.asmAt + 4096 * k) 4096)
      let terms := costTerms r block fun sph w => sphereJacobian j r m sph (nth way w [])
      let sys := storeGn cfg (assembleGn cfg n (if first then 0 else cfg.wCl) terms way (startPos j n) x.goal)
      let y := blankSolve k .gn (List.replicate 32 (List.replicate n (0 : Rat)))
      let s1 := modJob s j.ref fun j => putSolve (setSeed j k fun x => { x with waypoints := way })
        { y with sys := some sys.1, phase := first, trial := some (p, y.cur, 0) }
      countRange s1 p sys.2

/-! ## Gauss-Newton (R181, R185) -/

/-- b − H·δ with the exact H, by block. -/
def gnRest (g : GnSystem) (x : List (List Rat)) : List (List Rat) :=
  (List.range 32).map fun k =>
    let h := nth g.diag k []
    let side := fun (m : Nat) (i : Nat) => (g.wSm : Rat) * nth (nth x m []) i 0
    (List.range h.length).map fun i =>
      nth (nth g.rhs k []) i 0 - dotRat (nth h i []) (nth x k []) + (if k = 0 then 0 else side (k - 1) i)
        + (if k = 31 then 0 else side (k + 1) i)

/-- The block factorisation. -/
structure BlockFactored where
  factors : List Factor
  lb      : List (List (List Rat))
  clamped : Bool
  counted : Nat
  deriving DecidableEq, Repr

def factorGn (c : CascadeCfg) (g : GnSystem) : BlockFactored :=
  (List.range 32).foldl (fun (f : BlockFactored) k =>
    let h := nth g.diag k []
    let n := h.length
    let unit := fun (i : Nat) => (List.range n).map fun t => if t = i then -(g.wSm : Rat) else 0
    let lb := if k = 0 then ([], 0)
      else drainMat c.eFactor.toInt ((List.range n).map fun i => solveLdl c (nth f.factors (k - 1) default) (unit i))
    let d := if k = 0 then (h, 0)
      else drainMat c.eDiag.toInt ((List.range n).map fun i => addVec (nth h i []) ((nth lb.1 i []).map ((g.wSm : Rat) * ·)))
    let x := innerLdl c d.1
    ⟨f.factors ++ [x.factor], f.lb ++ [lb.1], f.clamped || x.clamped, f.counted + lb.2 + d.2 + x.counted⟩)
    ⟨[], [], false, 0⟩

/-- The solve with a block factor: the passes drain y to the right-hand side's exponent, z and x to the step's. -/
def solveGn (c : CascadeCfg) (fs : List Factor) (lb : List (List (List Rat))) (b : List (List Rat)) :
    List (List Rat) × Nat :=
  let y := (List.range 32).foldl (fun (a : List (List Rat) × Nat) k =>
    let v := if k = 0 then (nth b 0 [], 0)
      else drainVec c.eRhs.toInt (subVec (nth b k []) (mulMat (nth lb k []) (nth a.1 (k - 1) [])))
    (a.1 ++ [v.1], a.2 + v.2)) ([], 0)
  let z := (List.range 32).map fun k => drainVec c.eStep.toInt (solveLdl c (nth fs k default) (nth y.1 k []))
  let x := (List.range 32).foldr (fun k (a : List (List Rat) × Nat) =>
    let zk := (nth z k ([], 0)).1
    let v := if k = 31 then (zk, 0)
      else
        let l := nth lb (k + 1) []
        drainVec c.eStep.toInt (subVec zk (mulMat (transpose l l.length) (a.1.headD [])))
    (v.1 :: a.1, a.2 + v.2)) ([], 0)
  (x.1, y.2 + sumNat (z.map (·.2)) + x.2)

/-! ## Inverse kinematics (R186) -/

/-- The system of order n_j + m_t. -/
def ikSystem (lambda : Rat) (jt : List (List Rat)) (n : Nat) : List (List Rat) :=
  let mt := jt.length
  let tr := transpose jt n
  (List.range n).map (fun i => (List.range n).map (fun k => if i = k then lambda else 0) ++ nth tr i [])
    ++ (List.range mt).map fun i => nth jt i [] ++ (List.range mt).map fun k => if i = k then -lambda else 0

/-- λ of R175. -/
def ikLambda (c : CascadeCfg) : Rat := blockScale c c.eIk.toInt / 2 ^ c.lambdaSh

def clampJoints (m : RobotModel) (q : List Rat) : List Rat :=
  (List.range m.joints.length).map fun i =>
    let jt := nth m.joints i default
    clampRat (unit16 jt.qMin) (unit16 jt.qMax) (nth q i 0)

/-! ## Time scaling (R188, R189) -/

/-- The least number below 2^k from `n` on at which a monotone test passes. -/
def leastFrom (ok : Nat → Bool) : Nat → Nat → Nat
  | 0, n => n
  | k + 1, n => if ok (n + 2 ^ k - 1) then leastFrom ok k n else leastFrom ok k (n + 2 ^ k)

/-- Whether a duration in µs reaches T_c × ρ_T × (1 + TS_MARGIN/64): compared without roots, in the second and third
power. -/
def durationOk (c : CascadeCfg) (js : List Joint) (ps : List (List Rat)) (us : Nat) : Bool :=
  let T := usSec us / (1 + (c.tsMargin : Rat) / 64)
  (List.range js.length).all fun i =>
    let jt := nth js i default
    let p := nth ps i []
    within (unit16 jt.vMax * T) (velPts p) && within (unit16 jt.aMax * T ^ 2) (accPts p)
      && within (unit16 jt.jMax * T ^ 3) (jerkPts p)

def tsDuration (c : CascadeCfg) (r : Recipe) (js : List Joint) (ps : List (List Rat)) : Nat :=
  let t := leastFrom (durationOk c js ps) 23 0
  (clampInt (1000 * r.tMinMs) (1000 * r.tMaxMs) t).toNat

/-- Values of the basis functions of P_0 to P_11 at waypoint `k`. -/
def basisRow (k : Nat) : List Rat := (List.range 12).map fun i => basis 0 5 i ((2 * (k : Rat) + 1) / 64)

/-- Rows of B on P_3 to P_11. -/
def fitRows : List (List Rat) := (List.range 32).map fun k => (basisRow k).drop 3

/-- What the waypoints of joint `i` leave for P_3 to P_11 once the head is taken off. -/
def fitRest (head : List Rat) (way : List (List Rat)) (i : Nat) : List Rat :=
  (List.range 32).map fun k => nth (nth way k []) i 0 - dotRat ((basisRow k).take 3) head

/-- The rows P, V, A, J and P_11 as functions of P_0 to P_11. -/
def limitRows (p : List Rat) : List Rat := p.drop 3 ++ velPts p ++ accPts p ++ jerkPts p ++ [nth p 11 0]

/-- D: the columns are the images of the unit vectors of P_3 to P_11. -/
def limitMat : List (List Rat) :=
  transpose ((List.range 9).map fun i => limitRows ((List.range 12).map fun t => if t = i + 3 then 1 else 0)) 49

/-- The boxes of R148 on P, V, A and J at T, and that of the goal. -/
def limitBoxes (r : Recipe) (jt : Joint) (T goal : Rat) : List (Rat × Rat) :=
  let sym := fun (n : Nat) (x : Rat) => List.replicate n (-x, x)
  List.replicate 9 (unit16 jt.qMin, unit16 jt.qMax) ++ sym 11 (unit16 jt.vMax * T) ++ sym 10 (unit16 jt.aMax * T ^ 2)
    ++ sym 9 (unit16 jt.jMax * T ^ 3) ++ [(goal - goalTol r jt, goal + goalTol r jt)]

def clampBoxes (boxes : List (Rat × Rat)) (v : List Rat) : List Rat := List.zipWith (fun b x => clampRat b.1 b.2 x) boxes v

/-- ρ of R175. -/
def admmRho (c : CascadeCfg) : Rat := pow2 c.rhoExp

/-- aᵀ·b of two matrices of as many rows. -/
def gram (a b : List (List Rat)) (n : Nat) : List (List Rat) :=
  (transpose a n).map fun x => (transpose b n).map fun y => dotRat x y

def addMat (a b : List (List Rat)) : List (List Rat) := List.zipWith addVec a b

/-- K = BᵀB + ρ·DᵀD. -/
def tsMatrix (c : CascadeCfg) : List (List Rat) :=
  addMat (gram fitRows fitRows 9) ((gram limitMat limitMat 9).map fun row => row.map (admmRho c * ·))

def headOf (j : Job) (i : Nat) (T : Rat) : List Rat :=
  let st := nth j.start i (0, 0, 0)
  headPts st.1 st.2.1 st.2.2 T

/-- BᵀB factorised over its own block, and how many of its entries clamp as they are drained. -/
def fitFactor (c : CascadeCfg) : Factored × Nat :=
  let a := drainMat c.eFit.toInt (gram fitRows fitRows 9)
  (innerLdl (overBlock c c.eFit) a.1, a.2)

/-- K factorised over its own block. -/
def kFactor (c : CascadeCfg) : Factored × Nat :=
  let a := drainMat c.eK.toInt (tsMatrix c)
  (innerLdl (overBlock c c.eK) a.1, a.2)

/-- The unconstrained least-squares fit of joint `i` at T_c, by the scalar factorisation of BᵀB. -/
def fitJoint (c : CascadeCfg) (j : Job) (way : List (List Rat)) (Tc : Rat) (i : Nat) : List Rat :=
  solveLdl (overBlock c c.eFit) (fitFactor c).1.factor (mulMat (transpose fitRows 9) (fitRest (headOf j i Tc) way i))

/-- Set-up of a `TS` solve: fit at T_c, duration, head points at the new T, factorisation of K. Both factorisations are made for
each joint, so their counted elements count as often. -/
def opTsSetup (s : State) (p : Phys) (j : Job) (r : Recipe) (m : RobotModel) (w l k : Nat) : State :=
  let lt := lant s p
  match j.seeds[k]? with
  | none => s
  | some x =>
    let cfg := (activeCtx lt).cascade
    let y := onto cfg m.joints.length l w lt.cycle { blankSolve k .ts [] with phase := inSeedPhase j lt x }
    if !maySolve j lt x || !onLane j l w lt.cycle y then s
    else
      let idx := List.range m.joints.length
      let Tc := usSec x.tUs
      let fit := idx.map (fitJoint cfg j x.waypoints Tc)
      let t := tsDuration cfg r m.joints (idx.map fun i => headOf j i Tc ++ nth fit i [])
      let T := usSec t
      let z := idx.map fun i => clampBoxes (limitBoxes r (nth m.joints i default) T (nth x.goal i 0))
        (limitRows (headOf j i T ++ nth fit i []))
      let f := kFactor cfg
      let g := fitFactor cfg
      let clamped := f.1.clamped || g.1.clamped
      let y1 : Solve := { y with
        tUs := t
        cur := { y.cur with
          value := fit, split := z, dual := z.map fun v => v.map fun _ => 0, factors := idx.map fun _ => f.1.factor
          flags := if clamped then flagPivot else 0 } }
      let s1 := modJob s j.ref fun j => jobCounts (fun c => countSolve .ts { c with pivot := c.pivot + b2n clamped }) (putSolve j y1)
      countRange s1 p ((f.1.counted + f.2 + g.1.counted + g.2) * m.joints.length)

/-- One ADMM iteration of one joint: P, z, w, the larger of its residuals, and clamped elements. -/
def admmStep (c : CascadeCfg) (j : Job) (r : Recipe) (m : RobotModel) (tUs : Nat) (x : Iterate) (sd : JobSeed) (i : Nat) :
    List Rat × List Rat × List Rat × Rat × Nat :=
  let T := usSec tUs
  let head := headOf j i T
  let off := limitRows (head ++ List.replicate 9 0)
  let rho := admmRho c
  let z := nth x.split i []
  let w := nth x.dual i []
  let rhs := addVec (mulMat (transpose fitRows 9) (fitRest head sd.waypoints i))
    ((mulMat (transpose limitMat 9) (subVec (subVec z w) off)).map (rho * ·))
  let P := drainVec c.eCtrl.toInt (solveLdl (overBlock c c.eK) (nth x.factors i default) rhs)
  let dp := limitRows (head ++ P.1)
  let z1 := clampBoxes (limitBoxes r (nth m.joints i default) T (nth sd.goal i 0)) (addVec dp w)
  let w1 := subVec (addVec w dp) z1
  (P.1, z1, w1, max (maxAbs (subVec dp z1)) (rho * maxAbs (mulMat (transpose limitMat 9) (subVec z1 z))), P.2)

/-! ## Iterations (R173, R190) -/

def epsOf (c : CascadeCfg) : SolveKind → Rat
  | .gn => blockScale c c.eRhs.toInt / 2 ^ c.epsGn
  | .ik => (c.epsIk : Rat) / 16
  | .ts => blockScale c c.eCtrl.toInt / 2 ^ c.epsTs

/-- A solve's next iterate: the iterate, the residual's norm, and the clamped elements. -/
abbrev Trial := Iterate × Rat × Nat

def withPivot (clamped : Bool) (flags : Byte) : Byte := if clamped then flags ||| flagPivot else flags

def gnStep (c : CascadeCfg) (x : Iterate) (g : GnSystem) : Trial :=
  let f : BlockFactored := if x.iter = 0 then factorGn c g else ⟨x.factors, x.lb, false, 0⟩
  let d := solveGn c f.factors f.lb (gnRest g x.value)
  let v := drainMat c.eStep.toInt (List.zipWith addVec x.value d.1)
  ({ x with iter := x.iter + 1, value := v.1, factors := f.factors, lb := f.lb, flags := withPivot f.clamped x.flags },
    maxRat ((gnRest g v.1).map maxAbs), f.counted + d.2 + v.2)

/-- e(q): the position rows in mm and the orientation rows in mrad of the tool pose, then the rows that the recipe declares
(R186). -/
def taskError (j : Job) (r : Recipe) (m : RobotModel) (target q : List Rat) : List Rat :=
  let p := Config.toolPose r.bodyDigest j.img.robot.toNat q
  let o := Config.turn p.2 (target.drop 3)
  [nth target 0 0 - p.1.x, nth target 1 0 - p.1.y, nth target 2 0 - p.1.z, o.x, o.y, o.z]
    ++ (List.range m.taskRows.val).map fun i => Config.taskRow r.bodyDigest j.img.robot.toNat i q

/-- J_t at q by row: a joint moves the tool's position by z × (p − o) or z, and turns it about z if it is revolute. -/
def taskJacobian (j : Job) (r : Recipe) (m : RobotModel) (q : List Rat) : List (List Rat) :=
  let robot := j.img.robot.toNat
  let p := (Config.toolPose r.bodyDigest robot q).1
  let idx := List.range m.joints.length
  let cols := idx.map fun i =>
    let ax := Config.jointAxis r.bodyDigest robot i q
    if (nth m.joints i default).revolute then (cross ax.2 (Vec3.sub p ax.1), Vec3.scale 1000 ax.2) else (ax.2, ⟨0, 0, 0⟩)
  [cols.map (·.1.x), cols.map (·.1.y), cols.map (·.1.z), cols.map (·.2.x), cols.map (·.2.y), cols.map (·.2.z)]
    ++ (List.range m.taskRows.val).map fun row => idx.map fun i => Config.taskGrad r.bodyDigest robot row i q

def ikStep (c : CascadeCfg) (j : Job) (r : Recipe) (m : RobotModel) (target : List Rat) (x : Iterate) : Trial :=
  let n := m.joints.length
  let q := nth x.value 0 []
  let a := drainMat c.eIk.toInt (ikSystem (ikLambda c) (taskJacobian j r m q) n)
  let f := innerLdl (overBlock c c.eIk) a.1
  let st := drainVec c.eStep.toInt
    (solveLdl (overBlock c c.eIk) f.factor (List.replicate n 0 ++ taskError j r m target q))
  let q1 := clampJoints m (addVec q (st.1.take n))
  ({ x with iter := x.iter + 1, value := [q1], factors := [f.factor], flags := withPivot f.clamped x.flags },
    maxAbs (taskError j r m target q1), a.2 + f.counted + st.2)

def tsStep (c : CascadeCfg) (j : Job) (r : Recipe) (m : RobotModel) (seed tUs : Nat) (x : Iterate) : Trial :=
  let ys := (List.range m.joints.length).map (admmStep c j r m tUs x (nth j.seeds seed default))
  ({ x with iter := x.iter + 1, value := ys.map (·.1), split := ys.map (·.2.1), dual := ys.map (·.2.2.1) },
    maxRat (ys.map (·.2.2.2.1)), sumNat (ys.map (·.2.2.2.2)))

def nextStep (c : CascadeCfg) (j : Job) (r : Recipe) (m : RobotModel) (x : Solve) : Trial :=
  match x.kind, x.sys with
  | .gn, some g => gnStep c x.cur g
  | .gn, none => (x.cur, 0, 0)
  | .ik, _ => ikStep c j r m x.target x.cur
  | .ts, _ => tsStep c j r m x.seed x.tUs x.cur

/-- A solve that has ended delivers its result (R185, R187, R189, R190): a `TS` solve that ends with x_0 leaves the seed
its control points and T, and gives x_0 to a seed that has none (DEDUCED from R179, log 102). A result of the seed phase
is also what the slot checks. -/
def applySolve (m : RobotModel) (x : Solve) (j : Job) : Job :=
  let y := x.cur
  match x.kind with
  | .gn => setSeed j x.seed fun sd =>
      { sd with
        waypoints := (List.range 32).map fun k => clampJoints m (addVec (nth sd.waypoints k []) (nth y.value k []))
        status := newStatus sd.status y.flags }
  | .ts => setSeed j x.seed fun sd =>
      let st := newStatus sd.status y.flags
      if y.iter = 0 && !(sd.ctrl.isEmpty && sd.refit) then { sd with status := st }
      else { sd with ctrl := y.value, tUs := x.tUs, status := st, base := if x.phase then (y.value, x.tUs) else sd.base }
  | .ik =>
    if y.flags &&& (flagCapped ||| flagRange) == 0 then j
    else jobCounts (fun c => { c with withheld := c.withheld + 1 }) j

/-- Whether a solve's result may be used as an `IK` solution (R187). -/
def ikUsable (x : Solve) : Bool := x.kind == .ik && x.ended && x.cur.flags &&& (flagCapped ||| flagRange) == 0

/-- A solve ends with an iterate, further flags and a count. -/
def endSolve (m : RobotModel) (x : Solve) (y : Iterate) (flags : Byte) (f : Counts → Counts) (j : Job) : Job :=
  let z := { x with cur := { y with flags := y.flags ||| flags }, trial := none, ended := true }
  jobCounts f (applySolve m z (putSolve j z))

/-- What an interval of lantern `l` that has passed leaves of a solve's trial (R173, R190): a discarded assembly gives the seed no
solve, a discarded iteration ends the solve with the previous iterate, any other is tested. A pivot clamped in a discarded iteration
flags the solve all the same (R182). -/
def judgeTrial (l : Lantern) (m : RobotModel) (x : Solve) (y : Iterate) (r : Rat) (j : Job) : Job :=
  let cfg := (activeCtx l).cascade
  let bad := saturated l x y.iter
  let pivot := b2n (y.flags &&& flagPivot != x.cur.flags &&& flagPivot)
  let drop := fun (c : Counts) => { c with discarded := c.discarded + 1 }
  let note := fun (c : Counts) => { c with pivot := c.pivot + pivot }
  if y.iter = 0 then
    if bad then
      jobCounts drop (setSeed (delSolve j x) x.seed fun sd => { sd with status := newStatus sd.status flagRange })
    else putSolve j { x with trial := none }
  else if bad then endSolve m x x.cur (flagRange ||| (y.flags &&& flagPivot)) (fun c => note (drop c)) j
  else if r ≤ epsOf cfg x.kind then endSolve m x y 0 note j
  else if capOf cfg x.kind ≤ y.iter then endSolve m x y flagCapped (fun c => note { c with capped := c.capped + 1 }) j
  else jobCounts note (putSolve j { x with cur := y, trial := none })

/-- The trials of a job whose intervals have passed are judged; at the end of the slot all have. -/
def settleSolves (s : State) (r : JobRef) (all : Bool) : State :=
  match findJob s r with
  | none => s
  | some j =>
    match jobModel j with
    | none => s
    | some m =>
      modJob s r fun j => j.solves.foldl (fun j x =>
        match x.trial with
        | some (p, y, res) =>
          if !all && intervalOpen (lant s p) x y.iter then j else judgeTrial (lant s p) m x y res j
        | none => j) j

/-- One iteration; its residual test stands once its interval has passed. The solve is counted at its first. -/
def opIterate (s : State) (p : Phys) (j : Job) (r : Recipe) (m : RobotModel) (w l k : Nat) (kind : SolveKind) : State :=
  match findSolve j k kind with
  | none => s
  | some x =>
    let cfg := (activeCtx (lant s p)).cascade
    let x := onto cfg m.joints.length l w (lant s p).cycle x
    if x.ended || x.trial.isSome || !onLane j l w (lant s p).cycle x then s
    else
      let y := nextStep cfg j r m x
      let count := fun (j : Job) => if kind == .gn && x.cur.iter == 0 then jobCounts (countSolve .gn) j else j
      let s1 := modJob s j.ref fun j =>
        count (putSolve j { x with trial := some (p, y.1, y.2.1) })
      countRange s1 p y.2.2

/-- A new `IK` solve with its task and start guess. -/
def startIk (s : State) (j : Job) (n : Nat) (target x0 : List Rat) : State :=
  if (findSolve j n .ik).isSome then s
  else modJob s j.ref fun j =>
    jobCounts (countSolve .ik) (putSolve j { blankSolve n .ik [x0] with target })

/-! ## Interruption (R192, R193) -/

/-- At an interruption every solve in progress ends with its last tested iterate, flagged. -/
def interruptSolves (j : Job) : Job :=
  match jobModel j with
  | none => j
  | some m =>
    (j.solves.filter fun x => !x.ended).foldl (fun j x =>
      endSolve m x x.cur flagInterrupted id j) j

/-! ## The end of a slot (R178) -/

/-- Whether the seed's checked candidate of the slot carries a mark. -/
def seedMarked (j : Job) (k : Nat) : Bool := j.cands.any fun c => c.id == seedId j k && c.marks != 0

/-- The context that the image names for the job's slot (R86). -/
def slotCtx (j : Job) : CtxCfg := j.img.ctxAt (j.img.slotOf j.slot).context

/-- Stall counts, replacement of stalled seeds by the next unused ones, and the blocks of the next slot. -/
def nextSeeds (j : Job) : Job :=
  (List.range j.seeds.length).foldl (fun (j' : Job) k =>
    let x := nth j.seeds k default
    let n := if seedMarked j k then x.stalls + 1 else 0
    let clean : JobSeed := { x with
      stalls := n, fresh := false, base := (x.ctrl, x.tUs), measured := false, moved := false }
    match j'.pool with
    | y :: t =>
      if (slotCtx j).cascade.stall ≤ n then
        { j' with seeds := j'.seeds.set k { y with fresh := true }, pool := t, spent := j'.spent ++ [x]
                  counts := { j'.counts with replaced := j'.counts.replaced + 1 } }
      else { j' with seeds := j'.seeds.set k clean }
    | [] => { j' with seeds := j'.seeds.set k clean }) j

/-! ## Counts of the slot's candidates (R157, R170, R245) -/

def tally (c : Counts) (x : Cand) : Counts :=
  { c with generated := c.generated + 1, valid := c.valid + b2n (x.marks == 0)
           marks := Vector.ofFn fun i => c.marks.get i + b2n (x.marks.getLsbD i.val) }

/-- The better of two infeasible candidates: the larger smallest clearance, then the lower ID. -/
def moreClear (a b : Option BestInf) : Option BestInf :=
  match a, b with
  | some o, some n => if o.clearance < n.clearance ∨ (o.clearance = n.clearance ∧ n.id.toNat < o.id.toNat) then b else a
  | none, _ => b
  | _, none => a

/-- The best infeasible candidate with one more candidate, which counts if its only mark is `COLLISION`. -/
def betterInf (epoch : W32) (b : Option BestInf) (c : Cand) : Option BestInf :=
  if c.marks != 1 then b
  else moreClear b (c.least.map fun x => ⟨c.id, x.1, x.2.1, x.2.2, c.marks, epoch⟩)

/-- What the report of R245 takes from the slot's candidates, if the slot is not speculative or is confirmed; what a
speculative slot gives waits for the confirmation (R243). -/
def trackSlot (j : Job) : Job :=
  let best := fun (b : Option BestInf) => j.cands.foldl (betterInf j.epoch) b
  let seen := fun (m : BitVec 7) => j.cands.foldl (fun m c => m ||| c.marks) m
  if j.spec then { j with specBest := best j.specBest, specMarks := seen j.specMarks }
  else { j with best := best j.best, marksSeen := seen j.marksSeen }

/-- A confirmation makes the run's earlier slots count for the report (R243, R245). -/
def trackConfirmed (j : Job) : Job :=
  { j with best := moreClear j.best j.specBest, marksSeen := j.marksSeen ||| j.specMarks, specBest := none, specMarks := 0 }

/-- σ_j and σ_T after the slot's masses (R157). -/
def nextSigma (r : Recipe) (img : PlanImage) (b : BList) (sigma : List Rat) (sigmaT : Rat) : List Rat × Rat :=
  let f : Rat := if b.leftover ≤ b.selected then 8 / 10 else 125 / 100
  let js := ((r.robots.find? fun m => m.1 == img.robot.toNat).map (·.2.joints)).getD []
  ((List.range sigma.length).map fun i =>
      clampRat (nth js i default).sigmaMin (nth js i default).sigmaMax (nth sigma i 0 * f),
    clampRat (1 / 1000) (1 / 10) (sigmaT * f))

/-- The centre that a result row stands for. -/
def centreOf (j : Job) (r : BRow) : Centre :=
  let pt := fun (i k : Nat) => bfxVal (jExp j i) (sgn 16 (field r.pay (16 + 18 * i + 2 * k) 2))
  ⟨(List.range (field r.pay 9 1)).map fun i => (List.range 9).map (pt i), field r.pay 4 4, r.goal⟩

/-- What the end of a planning slot leaves for the next: counts, trackers, centres, σ and seeds. -/
def endSlot (j : Job) : Job :=
  let counts := j.cands.foldl tally j.counts
  let b := j.result.getD .empty
  let rows := (b.rows.take j.img.centresM).filter (rowLive j)
  let centres := if rows.isEmpty then slotCentres j else rows.map (centreOf j)
  let sg := match j.recipe, j.result with
    | some r, some b => nextSigma r j.img b j.sigma j.sigmaT
    | _, _ => (j.sigma, j.sigmaT)
  { nextSeeds { trackSlot j with counts } with
    centres, sigma := sg.1, sigmaT := sg.2, cands := [], lists := [], solves := [], lastResult := j.result.or j.lastResult
    badLogged := false }

end Sys2Proof.Machine
end

