-- ==== Sys2Proof/Machine/Routes.lean ====
section
/-! DEFINITION. The wavefront route search (R196 to R211): the clearance master, blocking, the passes, extraction and the
route seed. -/

namespace Sys2Proof.Machine

open Sys2Proof

abbrev Cell := Nat × Nat × Nat

/-! ## The grid (R197, R198) -/

def gridCells (r : Recipe) : Nat := r.routeN.1 * r.routeN.2.1 * r.routeN.2.2

def cellIdx (r : Recipe) (c : Cell) : Nat := c.1 + r.routeN.1 * (c.2.1 + r.routeN.2.1 * c.2.2)

def cellAt (r : Recipe) (n : Nat) : Cell :=
  (n % r.routeN.1, n / r.routeN.1 % r.routeN.2.1, n / (r.routeN.1 * r.routeN.2.1))

def routeCorner (r : Recipe) : Vec3 :=
  Vec3.add (volumeOf r).1 ⟨32 * r.routeOrigin.1, 32 * r.routeOrigin.2.1, 32 * r.routeOrigin.2.2⟩

def cellCentre (r : Recipe) (c : Cell) : Vec3 :=
  Vec3.add (routeCorner r) ⟨32 * c.1 + 16, 32 * c.2.1 + 16, 32 * c.2.2 + 16⟩

/-- The cell that holds a point, if it lies in the grid. -/
def cellOfPoint (r : Recipe) (p : Vec3) : Option Cell :=
  let q := Vec3.sub p (routeCorner r)
  let i := fun (v : Rat) => (v / 32).floor
  if 0 ≤ i q.x ∧ i q.x < r.routeN.1 ∧ 0 ≤ i q.y ∧ i q.y < r.routeN.2.1 ∧ 0 ≤ i q.z ∧ i q.z < r.routeN.2.2 then
    some ((i q.x).toNat, (i q.y).toNat, (i q.z).toNat)
  else none

/-- The neighbourhood box3 in the order dz, dy, dx, each from −1 to +1 (R205). -/
def box3 (r : Recipe) (c : Cell) : List Cell :=
  (offsets 1).flatMap fun dz => (offsets 1).flatMap fun dy => (offsets 1).filterMap fun dx =>
    let x := (c.1 : Int) + dx
    let y := (c.2.1 : Int) + dy
    let z := (c.2.2 : Int) + dz
    if 0 ≤ x ∧ x < r.routeN.1 ∧ 0 ≤ y ∧ y < r.routeN.2.1 ∧ 0 ≤ z ∧ z < r.routeN.2.2 then
      some (x.toNat, y.toNat, z.toNat)
    else none

/-! ## The clearance master (R200) -/

/-- The code of one cell. -/
def routeCode (r : Recipe) (w : World) (c : Cell) : Int :=
  let bx := r.routeOrigin.1 + c.1
  let by_ := r.routeOrigin.2.1 + c.2.1
  let bz := r.routeOrigin.2.2 + c.2.2
  let v := volumeOf r
  let ds := (coarseOf bx by_ bz).map fun x => coarseDistOf r w x.1 x.2.1 x.2.2
  if 2 * bx < v.2.1 ∧ 2 * by_ < v.2.2.1 ∧ 2 * bz < v.2.2.2 then
    clampInt (-127) 127 (((ds.foldl min (ds.headD 0) : Int) : Rat) / 4 - 1386 / 100).floor
  else -127

/-- The master: one byte per cell. -/
def routeBytes (r : Recipe) (w : World) : List (Nat × Byte) :=
  (List.range (gridCells r)).map fun n => (n, code8 (routeCode r w (cellAt r n)))

/-! ## Blocking (R199, R201) -/

/-- r_R of the moving body. DESIGN CHOICE (log 156): of a part of several groups the largest e_T + r_B counts. -/
def routeBody (j : Job) (r : Recipe) : Rat :=
  match j.carried with
  | some c => c.groups.foldl (fun m g => max m (g.eT + g.rB)) (r.routeRadius : Rat)
  | none => r.routeRadius

/-- Static and dynamic clearance of a cell at a layer, in mm: the route clearance master and the layer lie in the route
lantern's basin `b`. -/
def cellClear (b : Ram) (j : Job) (r : Recipe) (c : Cell) (s : Nat) : Rat × Option Rat :=
  let st : Rat := winCode b (j.img.body.routeAt + cellIdx r c)
  let dy := (r.windows[j.window]?).bind fun o => sampleSlice b o (cellCentre r c) s
  (st, dy.map fun v => (v : Rat) - 4504 / 100)

def exempt (j : Job) (c : Cell) : Bool := j.route.start == some c || j.route.goal == some c

def blocked (b : Ram) (j : Job) (r : Recipe) (c : Cell) (s : Nat) : Bool :=
  let lim := routeBody j r + (r.clearMin16 : Rat) / 16
  let x := cellClear b j r c s
  !exempt j c && (x.1 < lim || x.2.any fun d => d < lim)

def nearCell (b : Ram) (j : Job) (r : Recipe) (c : Cell) (s : Nat) : Bool :=
  let x := cellClear b j r c s
  let least := match x.2 with
    | some d => min x.1 d
    | none => x.1
  !blocked b j r c s && least < routeBody j r + (r.routeNear16 : Rat) / 16

/-! ## Passes (R203) -/

def nextLayer (r : Recipe) (s : Nat) : Nat := min 15 (s + r.routeTick / 8)

def routeV (j : Job) (r : Recipe) (c : Cell) (s : Nat) : Nat := (j.route.v.find (16 * cellIdx r c + s)).getD 255

/-- Cost of moving to a neighbour and going on from it. -/
def moveCost (b : Ram) (j : Job) (r : Recipe) (s : Nat) (c : Cell) : Nat :=
  let n := nextLayer r s
  (if nearCell b j r c n then 1 + r.routeCost else 1) + routeV j r c n

def passValue (b : Ram) (j : Job) (r : Recipe) (c : Cell) (s : Nat) : Nat :=
  if j.route.goal = some c then 0
  else if blocked b j r c s then 255
  else (box3 r c).foldl (fun a d => min a (moveCost b j r s d)) 255

def onePass (b : Ram) (j : Job) (r : Recipe) : SMap Nat :=
  (List.range (16 * gridCells r)).filterMap fun k =>
    let v := passValue b j r (cellAt r (k / 16)) (k % 16)
    if v < 255 then some (k, v) else none

/-- One pass over every cell and layer. A search without a goal counts none (R208). -/
def opRoutePass (s : State) (p : Phys) (j : Job) (r : Recipe) : State :=
  if j.img.routePasses ≤ j.route.passes || j.route.status == .noGoal || j.route.status == .notSearched then s
  else modJob s j.ref fun j => { j with route := { j.route with
    v := onePass (lant s p).basin j r, passes := j.route.passes + 1 } }

/-! ## Start, goal and extraction (R202, R205, R208) -/

/-- The pose of a tool-pose goal: position in mm, its record counting 2^-8 mm, and quaternion, counting 2^-30 (R318). -/
def goalPose (g : Goal) : List Rat :=
  ((List.range 3).map fun i => (nth g.values i 0 : Rat) / 256)
    ++ (List.range 4).map fun i => (nth g.values (3 + i) 0 : Rat) / 1073741824

/-- The tool pose at joint values `q`. -/
def toolAt (j : Job) (r : Recipe) (q : List Rat) : List Rat :=
  let p := Config.toolPose r.bodyDigest j.img.robot.toNat q
  [p.1.x, p.1.y, p.1.z] ++ p.2

def posOf (pose : List Rat) : Vec3 := ⟨nth pose 0 0, nth pose 1 0, nth pose 2 0⟩

/-- Whether the route goal rests on an `IK` solve of its own: no grasp pose is posted and the goal is a tool pose. -/
def goalSolve (s : State) (j : Job) : Option Goal := if (postedSeeds s j).isEmpty then j.goal.filter (·.tool) else none

/-- The solve of a tool-pose goal, number 0, from the job's start state. -/
def opIkGoal (s : State) (j : Job) (m : RobotModel) : State :=
  match goalSolve s j with
  | some g => startIk s j 0 (goalPose g) (startPos j m.joints.length)
  | none => s

/-- The route goal and its joint goal: the first posted grasp pose, else the token's goal, else none. -/
def routeGoal (s : State) (j : Job) (r : Recipe) (m : RobotModel) : Option (List Rat × List Rat) :=
  match postedSeeds s j, j.goal with
  | x :: _, _ => some (x.pose, x.joints)
  | [], some g =>
    if g.tool then ((findSolve j 0 .ik).filter ikUsable).map fun x => (goalPose g, nth x.cur.value 0 [])
    else
      let q := (g.values.take m.joints.length).map unit16
      some (toolAt j r q, q)
  | [], none => none

/-- The start and goal cells, once the goal's solve has ended. -/
def opRouteEnds (s : State) (j : Job) (r : Recipe) (m : RobotModel) : State :=
  if (goalSolve s j).isSome && !((findSolve j 0 .ik).any (·.ended)) then s
  else
    let rt := match routeGoal s j r m with
      | none => { j.route with status := .noGoal }
      | some (g, q) =>
        match cellOfPoint r (posOf (toolAt j r (startPos j m.joints.length))), cellOfPoint r (posOf g) with
        | some a, some b =>
          { j.route with status := .noRoute, start := some a, goal := some b, pose := g, joint := q
                         v := (List.range 16).map fun n => (16 * cellIdx r b + n, 0) }
        | _, _ => { j.route with status := .outsideGrid, pose := g, joint := q }
    modJob s j.ref fun j => { j with route := rt }

/-- The path from a cell and layer, at most `n` moves. -/
def extract (b : Ram) (j : Job) (r : Recipe) : Nat → Cell → Nat → List Cell
  | 0, _, _ => []
  | n + 1, c, s =>
    if j.route.goal = some c then []
    else match box3 r c with
      | [] => []
      | d :: t =>
        let best := t.foldl (fun a e => if moveCost b j r s e < moveCost b j r s a then e else a) d
        best :: extract b j r n best (nextLayer r s)

/-- After the last pass the route is found or not. -/
def opRouteExtract (s : State) (p : Phys) (j : Job) (r : Recipe) : State :=
  match j.route.start with
  | none => s
  | some a =>
    if j.route.passes < j.img.routePasses then s
    else
      let v := routeV j r a 0
      if 255 ≤ v then s
      else
        let path := extract (lant s p).basin j r 254 a 0
        modJob s j.ref fun j => { j with route := { j.route with
          status := .found, cost := v, moves := path.length, path } }

/-! ## The route seed (R206) -/

/-- The polyline from the start point through the centres of the path's cells between start and goal to the goal point. -/
def polyline (j : Job) (r : Recipe) (start : Vec3) : List Vec3 :=
  [start] ++ (j.route.path.dropLast.map (cellCentre r)) ++ [posOf j.route.pose]

/-- A root in steps of 2^-32 (DESIGN CHOICE, log 24). -/
def rootOf (d : Rat) : Rat := ((Nat.sqrt (d * 2 ^ 64).floor.toNat + b2n (Config.rootUp d) : Nat) : Rat) / 2 ^ 32

def lineLength (a b : Vec3) : Rat := rootOf (Vec3.normSq (Vec3.sub b a))

/-- The first `n` terms of t·F(1 − t, 1 + t; 3/2; x), which is sin(t·θ) / sin θ at x = (1 − cos θ) / 2: `a` is the term that stands
first, of number `k`. -/
def arcTerms (t x : Rat) : Nat → Nat → Rat → Rat
  | 0, _, _ => 0
  | n + 1, k, a =>
    a + arcTerms t x n (k + 1) (a * ((k + 1 - t) * (k + 1 + t)) * x / ((3 / 2 + (k : Rat)) * (k + 1)))

/-- sin(t·θ) / sin θ for an angle of cosine `c` ≥ 0, in steps of 2^-32 (DESIGN CHOICE, log 24): 48 terms, for x ≤ 1/2, leave less
than 2^-40. It is t where the two orientations are the same. -/
def arcWeight (c t : Rat) : Rat :=
  if 1 ≤ c then t
  else ((arcTerms t ((1 - c) / 2) 48 0 t * 2 ^ 32).floor + (b2n (Config.sineUp c t) : Int) : Int) / 2 ^ 32

/-- The quaternion at a fraction of the shortest arc between two (R206): the same orientation has two, and the arc goes to the nearer. -/
def slerp (a b : List Rat) (t : Rat) : List Rat :=
  let d := dotRat a b
  let e := if d < 0 then b.map fun x => -x else b
  addVec (a.map (arcWeight (absRat d) (1 - t) * ·)) (e.map (arcWeight (absRat d) t * ·))

/-- The point at an arc length from the head of a polyline. -/
def pointAlong : List Vec3 → Rat → Vec3
  | [], _ => ⟨0, 0, 0⟩
  | [a], _ => a
  | a :: b :: t, d =>
    let n := lineLength a b
    if d ≤ n ∧ n ≠ 0 then Vec3.add a (Vec3.scale (d / n) (Vec3.sub b a)) else pointAlong (b :: t) (d - n)

def arcLength (l : List Vec3) : Rat := sumRat ((l.zip (l.drop 1)).map fun e => lineLength e.1 e.2)

/-- The pose at point `k` of 32: equally spaced by arc length at the waypoint times, the orientation along the shortest arc in
proportion to k (DEDUCED, log 104). -/
def routePose (j : Job) (r : Recipe) (m : RobotModel) (k : Nat) : List Rat :=
  let a := toolAt j r (startPos j m.joints.length)
  let l := polyline j r (posOf a)
  let p := pointAlong l (arcLength l * (2 * (k : Rat) + 1) / 64)
  [p.x, p.y, p.z] ++ slerp (a.drop 3) (j.route.pose.drop 3) ((k : Rat) / 31)

/-- Number of the `IK` solve of route point `k`. -/
def routeSolve (k : Nat) : Nat := 65 + k

/-- The 32 solves start, each from its point of the joint-space line. -/
def opRouteTargets (s : State) (j : Job) (r : Recipe) (m : RobotModel) : State :=
  if j.route.status != .found then s
  else
    let line := linePoints (startPos j m.joints.length) j.route.joint
    (List.range 32).foldl (fun s k => startIk s j (routeSolve k) (routePose j r m k) (nth line k [])) s

/-- The solves have ended and give the waypoints; a point whose solve is not usable takes the joint-space line's point. -/
def opRouteSeed (s : State) (j : Job) (r : Recipe) (m : RobotModel) : State :=
  let solves := (List.range 32).map fun k => findSolve j (routeSolve k) .ik
  if j.route.status != .found || !solves.all fun x => x.any (·.ended) then s
  else
    let line := linePoints (startPos j m.joints.length) j.route.joint
    let way := (List.range 32).map fun k =>
      (((nth solves k none).filter ikUsable).map fun x => nth x.cur.value 0 []).getD (nth line k [])
    let t := (clampInt (1000 * r.tMinMs) (1000 * r.tMaxMs) (1000 * (j.route.moves * r.routeTick : Nat))).toNat
    modJob s j.ref fun j => { j with route := { j.route with seed := some (mkSeed way j.route.joint t) } }

end Sys2Proof.Machine
end

