-- ==== Sys2Proof/Machine/Rings.lean ====
section
/-! DEFINITION. The ring engine (chapter 14): polling and acceptance, admission to the weir, cancel, ordered release, enable
and disable, detach and return. -/

namespace Sys2Proof.Machine

open Sys2Proof

/-! ## Ring states -/

/-- STATE 0: the session binding and the loss mark end with it (R423, R326, R328). -/
def ringOff (s : State) (r : RingId) : State :=
  modRing (writeEntry (setRState s r .off) r) r fun g => { g with
    enable := false, session := none, served := false, lost := false }

def ringIdle (s : State) (r : RingId) : Bool :=
  (s.descs.all fun d => d.ref.ring != r) && (ringGet s r).readTo == (ringGet s r).accepted

/-- A draining ring, or a stopped one written `ENABLE` = 0, goes off once nothing accepted is left. -/
def settleRing (s : State) (r : RingId) : State :=
  let g := ringGet s r
  if !ringIdle s r then s
  else match g.state with
    | .draining => ringOff s r
    | .stopped => if g.enable then s else ringOff s r
    | .off | .running | .notOwner => s

/-- A ring stops on inconsistent indices (R326, R330). -/
def ringOverrun (s : State) (r : RingId) : State := raise (writeEntry (setRState s r .stopped) r) .ringOverrun []

/-! ## Acceptance (R317, R323, R324) -/

/-- On a sealed ring a descriptor must carry its SEAL; with no owned session every one fails (R323, R423). -/
def sealFails (s : State) (r : RingId) (index : W32) (bytes : List Byte) : Bool :=
  (ringGet s r).sealed && ((ringSecret s r).isNone || slice bytes 0x38 8 != descSeal s r index bytes)

/-- The epoch of the newest encrypted result that the device has written for a descriptor index in this session and under this owner
epoch: re-execution waits for a later one (R426). -/
def writtenEpoch (g : Ring) (index : W32) : Option W32 :=
  (g.encOut.find? fun e => e.session == g.session && e.generation == g.owner && e.index == index).map (·.epoch)

def newEntry (ref : JobRef) (d : Desc) (replayed : Bool) (notBefore : Option W32) : DescEntry :=
  { ref, desc := d, stage := .entered, matched := 0, begun := false, ever := false, replayed, cancelled := false, verified := false
    ctx := none, resume := none, notBefore }

/-- The entry of the descriptor that a ring reads next; one that fails its seal has no body. One that lies before ACCEPTED is read for
re-execution (R330). -/
def readEntry (s : State) (x : RawDesc) : DescEntry :=
  let g := ringGet s x.ring
  let d0 := decodeDesc x.bytes
  let d := if sealFails s x.ring g.readTo x.bytes then { d0 with body := .bad } else d0
  newEntry ⟨x.ring, g.readTo⟩ d (serialLt g.readTo g.accepted) (if d.encrypted then writtenEpoch g g.readTo else none)

/-- A descriptor is read and takes a weir entry. Its acceptance ends doze (R467). -/
def takeEntry (s0 : State) (x : RawDesc) : State :=
  let s := dozeLeave s0
  let e := readEntry s x
  traceDesc { modRing s x.ring fun g => { g with
    readTo := g.readTo + 1, accepted := if g.readTo = g.accepted then g.accepted + 1 else g.accepted } with descs := s.descs ++ [e] } 0 e 0 0

/-- One descriptor is accepted; one that fails its seal, or the checks of R317, completes at once. In HALT accepted descriptors stay
uncompleted (R308). -/
def acceptOne (s : State) (x : RawDesc) : State :=
  let e := readEntry s x
  let s1 := takeEntry s x
  if s.safety.state == .halt then s1
  else if sealFails s x.ring e.ref.index x.bytes then finish s1 e.ref .sealFail 0
  else if e.desc.body == .bad then finish s1 e.ref .planMismatch 0x0C
  else s1

/-- Free weir entries for a flow: the weir has 4,096, the flow its share (R335). -/
def weirFree (s : State) (r : RingId) : Nat := min (4096 - weirUsed s) (s.sluice.weirMax - weirOf s r)

def doorbellGen (w : W64) : W32 := BitVec.ofNat 32 (w.toNat / 2 ^ 32)

def doorbellProd (w : W64) : W32 := BitVec.ofNat 32 w.toNat

/-- A poll finds the ring under another owner (R324, R331). -/
def ownerDiffers (s : State) (r : RingId) : State :=
  let g := ringGet s r
  if g.state == .running && g.served then
    raise (modRing s r fun g => { g with state := .notOwner, lost := true }) .ringOwnerLost []
  else setRState s r .notOwner

/-- Steps 2 and 3 of R324, with the check of R326. -/
def serveRing (s : State) (r : RingId) (prod : W32) (descs : List RawDesc) : State :=
  let s1 := modRing s r fun g => { g with state := .running, served := true, lost := false }
  let g := ringGet s1 r
  if 2 ^ g.size < (prod - g.complete).toNat || serialLt prod g.accepted then ringOverrun s1 r
  else
    let n := min (min (prod - g.readTo).toNat 64) (weirFree s1 r)
    let mine := (descs.filter fun x => x.ring == r).take n
    if mine.isEmpty then (if (ringGet s r).state == .running then s1 else writeEntry s1 r)
    else writeEntry (busyNow (mine.foldl acceptOne s1)) r

/-- Descriptors that a draining or stopped ring has yet to read for re-execution (DESIGN CHOICE, log 65). -/
def replayRest (s : State) (r : RingId) (descs : List RawDesc) : State :=
  let n := min (min ((ringGet s r).accepted - (ringGet s r).readTo).toNat 64) (weirFree s r)
  ((descs.filter fun x => x.ring == r).take n).foldl acceptOne s

/-- A ring that accepts nothing more, found under another owner (R331): it reads nothing more, and the records of what still runs are
discarded. One that was never this device's has nothing to complete (DESIGN CHOICE, log 65). -/
def lostRest (s : State) (r : RingId) : State :=
  let s1 := modRing s r fun g => { g with readTo := g.accepted, lost := g.served }
  if (ringGet s r).served then settleRing s1 r
  else settleRing { s1 with descs := s1.descs.filter fun d => d.ref.ring != r } r

def pollRing (doorbell : List W64) (descs : List RawDesc) (s : State) (r : RingId) : State :=
  let g := ringGet s r
  let w := nth doorbell r.val 0
  let ours := doorbellGen w == g.owner
  match g.state with
  | .running | .notOwner => if ours then serveRing s r (doorbellProd w) descs else ownerDiffers s r
  | .draining | .stopped =>
    if ours then replayRest (modRing s r fun g => { g with served := true }) r descs else lostRest s r
  | .off => s

/-- The ring engine polls while the service is ready and host memory can be reached. -/
def canPoll (s : State) : Bool := s.pwr.ready && hostReach s

/-- `POLL` (R324): the doorbell words in ring order and, in index order, the descriptors that the poll reads. -/
def execPoll (doorbell : List W64) (descs : List RawDesc) (s : State) : Out :=
  live s fun s => if canPoll s then (List.finRange 64).foldl (pollRing doorbell descs) s else s

/-! ## Cancel (R347, R348) -/

/-- The target's entry is removed, or its job ends at the next boundary, its solves interrupted (R192); DETAIL 1 where
nothing is left to cancel, or the target was not accepted before the cancel. -/
def applyCancel (s : State) (own : JobRef) (target : JobRef) : State :=
  let s0 := modDesc s own fun e => { e with stage := .executing, begun := true, ever := true }
  match (s0.descs.takeWhile fun e => e.ref != own).find? fun e => e.ref == target with
  | none => finish s0 own .ok 1
  | some d =>
    if d.stage.inWeir then
      let s1 := traceDesc (modDesc s0 target fun e => { e with cancelled := true }) 4 d 0 0
      let s2 := match jobImage s0 d with
        | some img => sendAbort s1 img d.desc.tag
        | none => s1
      finish (finish s2 target .cancelled 0) own .ok 0
    else if d.stage == .running && (findJob s0 target).isSome then
      let s1 := traceDesc (modDesc s0 target fun e => { e with cancelled := true }) 4 d 0 0
      finish (modJob s1 target fun j => { interruptSolves j with endAs := .cancelled }) own .ok 0
    else finish s0 own .ok 1

/-- The ring a CANCEL or CONTEXT_SAVE names; no ring has a number above 63. -/
def targetRef (ring : Nat) (index : W32) : Option JobRef :=
  if h : ring < 64 then some ⟨⟨ring, h⟩, index⟩ else none

def admitCancel (s : State) (d : DescEntry) (ring : Nat) (index : W32) : State :=
  match targetRef ring index with
  | some t => applyCancel s d.ref t
  | none => finish s d.ref .ok 1

/-- What acceptance itself does to a descriptor that has been accepted: a run enters the matching store, a cancel
acts. -/
def admitOne (s : State) (d : DescEntry) : State :=
  if d.stage != .entered then s
  else match d.desc.body with
    | .planRun .. => admitRun s d
    | .cancel r i => admitCancel s d r i
    | _ => s

/-- Every accepted descriptor has been admitted before a slot boundary's dispatch (R348). -/
def admitAll (s : State) : State :=
  s.descs.foldl (fun s d => match findDesc s d.ref with
    | some e => admitOne s e
    | none => s) s

def admitAt (s : State) (ring : RingId) (index : W32) (isIt : DescBody → Bool) : State :=
  match findDesc s ⟨ring, index⟩ with
  | some d => if isIt d.desc.body then admitOne s d else s
  | none => s

/-- `PLAN_RUN` (R336): an accepted run enters the matching store. -/
def execPlanRun (ring : RingId) (index : W32) (s : State) : Out :=
  live s fun s => admitAt s ring index fun b => b.isJob

/-- `CANCEL` (R347): acts at its acceptance. -/
def execCancel (ring : RingId) (index : W32) (s : State) : Out :=
  live s fun s => if s.safety.state == .halt then s else admitAt s ring index DescBody.isCancel

/-! ## Release (R327, R331, R345) -/

/-- The descriptor whose record is due on a ring: complete, and the next in index order. -/
def dueRecord (s : State) (r : RingId) : Option (DescEntry × Result) :=
  match findDesc s ⟨r, (ringGet s r).complete⟩ with
  | some d =>
    match d.stage with
    | .done res => some (d, res)
    | _ => none
  | none => none

/-- The result buffer, the record and the shadow entry's COMPLETE, in that order, then the interrupt. -/
def writeRecord (s : State) (d : DescEntry) (res : Result) : State :=
  let g := ringGet s d.ref.ring
  let buf := resultBytes s d res
  let s1 := match resultBuf d.desc with
    | some (a, _) => if res.report.isSome then hostWrite s a buf else s
    | none => s
  let head := recordHead s1 d res
  let rec_ := head ++ recordSeal s1 d head buf
  let s2 := hostWrite s1 (g.cq.toNat + 32 * (d.ref.index.toNat % 2 ^ g.size)) rec_
  if d.desc.encrypted && res.epoch != 0 && res.report.isSome then
    modRing s2 d.ref.ring fun g => { g with encOut := ⟨g.session, g.owner, d.ref.index, res.epoch⟩ :: g.encOut }
  else s2

def afterRelease (s : State) (d : DescEntry) : State :=
  let g := ringGet s d.ref.ring
  let s1 := writeEntry s d.ref.ring
  if g.irqMode == 2 || (g.irqMode == 1 && d.desc.irq) then raiseIrq s1 g.vector.toNat else s1

/-- Takes the entry off the flow: COMPLETE advances and its place is free. -/
def retireEntry (s : State) (d : DescEntry) : State :=
  { modRing s d.ref.ring fun g => { g with complete := g.complete + 1 } with
    descs := s.descs.filter fun e => e.ref != d.ref }

def released (s : State) (d : DescEntry) (res : Result) : State :=
  traceDesc s 6 d res.status.code res.detail

/-- The device may write a record of a ring: a poll found the ring its own, host memory is in reach, and no relight or HALT holds the
release buffer (R308, R331, R333, R346). -/
def mayRelease (s : State) (r : RingId) : Bool :=
  (ringGet s r).served && hostReach s && s.safety.state != .relight && s.safety.state != .halt

/-- Releases the due record of a ring, if there is one and the device may write it. A ring whose owner was lost has its records
discarded (R331). -/
def releaseOne (s : State) (r : RingId) : State :=
  match dueRecord s r with
  | none => s
  | some (d, res) =>
    if (ringGet s r).lost then settleRing (retireEntry s d) r
    else if !mayRelease s r then s
    else
      let s1 := released (writeRecord s d res) d res
      settleRing (afterRelease (retireEntry s1 d) d) r

/-- `RECORD_RELEASE` (R327). -/
def execRecordRelease (ring : RingId) (s : State) : Out := live s fun s => releaseOne s ring

/-- `SHADOW_HEADER_REFRESH` (R314): at least once every 100 ms. -/
def execShadowHeaderRefresh (s : State) : Out :=
  live s fun s => if canWriteHeader s then writeHeader s else s

/-! ## Enable and disable (R322, R328, R330) -/

/-- The fields of `RING_CTRL` other than ENABLE are taken while STATE is 0. -/
def ctrlFields (g : Ring) (v : Nat) : Ring :=
  { g with sealed := bit v 1, startSrc := bit v 2, irqMode := BitVec.ofNat 2 (bits v 4 3)
           vector := BitVec.ofNat 6 (bits v 13 8) }

/-- ACCEPTED and COMPLETE at enable: from the start registers or from this device's shadow entry. -/
def startIndices (s : State) (r : RingId) : W32 × W32 :=
  let g := ringGet s r
  if g.startSrc then
    let at_ := fun (off : Nat) => BitVec.ofNat 32 (leNat (s.host.mem.readN (entryAddr s r + off) 4))
    (at_ 0, at_ 4)
  else (g.startAcc, g.startCmp)

def indicesOk (g : Ring) (acc cmp : W32) : Bool := serialLe cmp acc && (acc - cmp).toNat ≤ 2 ^ g.size

/-- A ring in STATE 0 is enabled: indices, the owned session in force (R422, R423), and the descriptors between the indices
for re-execution, as many as the weir takes (R335); polls read the rest. -/
def enableRing (s : State) (r : RingId) (replay : List RawDesc) : State :=
  let ix := startIndices s r
  let s1 := modRing s r fun g => { g with
    enable := true, served := false, lost := false
    session := if s.sec.session == .owned then some s.sec.sessId else none }
  if !indicesOk (ringGet s1 r) ix.1 ix.2 then ringOverrun s1 r
  else
    let s2 := modRing s1 r fun g => { g with state := .running, accepted := ix.1, readTo := ix.2, complete := ix.2 }
    ((replay.filter fun x => x.ring == r).take (min (ix.1 - ix.2).toNat (weirFree s2 r))).foldl acceptOne s2

/-- `RING_CTRL.ENABLE` = 0 (R326, R328). -/
def disableRing (s : State) (r : RingId) : State :=
  let g := ringGet s r
  match g.state with
  | .running | .notOwner =>
    settleRing (writeEntry (modRing s r fun g => { g with state := .draining, enable := false }) r) r
  | .stopped => settleRing (modRing s r fun g => { g with enable := false }) r
  | .draining | .off => s

/-- A write of `RING_CTRL`. -/
def ringCtrlWrite (s : State) (r : RingId) (v : Nat) (replay : List RawDesc) : State :=
  let off := (ringGet s r).state == .off
  let s1 := if off then modRing s r fun g => ctrlFields g v else s
  if bit v 0 then (if off then enableRing s1 r replay else s1) else disableRing s1 r

/-- `RING_ENABLE` (R330): `replay` holds the descriptors between COMPLETE and ACCEPTED as the device reads them. -/
def execRingEnable (ring : RingId) (value : W32) (replay : List RawDesc) (s : State) : Out :=
  busLive s fun s => ringCtrlWrite s ring (value ||| 1).toNat replay

/-- `RING_DISABLE` (R328). -/
def execRingDisable (ring : RingId) (value : W32) (s : State) : Out :=
  busLive s fun s => ringCtrlWrite s ring (value &&& ~~~ 1).toNat []

/-! ## Detach and return (R333, R359) -/

/-- The device is detached; the host driver and the host secure agent are reset with it. -/
def detach (s : State) : State :=
  if s.rings.detached then s
  else hostAgentReset (hostDriverReset { s with rings := { s.rings with detached := true } })

/-- Every due record of a ring, oldest first. -/
def releaseRing : Nat → State → RingId → State
  | 0, s, _ => s
  | n + 1, s, r => releaseRing n (releaseOne s r) r

/-- An accepted descriptor that was never dispatched runs nothing. -/
def holdRecord (s : State) (d : DescEntry) : State :=
  if d.stage.inWeir && !d.ever then finish s d.ref .deviceDetachedHold 0 else s

/-- On the return the device reads again whether a ring is its own, before it writes for it (R331). -/
def ownAgain (doorbell : List W64) (s : State) (r : RingId) : State :=
  let g := ringGet s r
  if g.state == .off || doorbellGen (nth doorbell r.val 0) == g.owner then s
  else match g.state with
    | .running | .notOwner => ownerDiffers s r
    | _ => lostRest s r

/-- What a ring has yet to read for re-execution was accepted and never dispatched. -/
def readRest (replay : List RawDesc) (s : State) (r : RingId) : State :=
  ((replay.filter fun x => x.ring == r).take ((ringGet s r).accepted - (ringGet s r).readTo).toNat).foldl takeEntry s

/-- Attached again: the link is up and Bus Master Enable is 1. In HALT what was accepted stays uncompleted (R308). -/
def reattach (doorbell : List W64) (replay : List RawDesc) (s : State) : State :=
  if !s.rings.detached then s
  else if s.safety.state == .halt then refreshHeader { s with rings := { s.rings with detached := false } }
  else
    let s0 := (List.finRange 64).foldl (ownAgain doorbell) { s with rings := { s.rings with detached := false } }
    let s1 := (List.finRange 64).foldl (readRest replay) s0
    let held := s1.descs.any fun d => d.stage.isDone || (d.stage.inWeir && !d.ever)
    let s2 := refreshHeader { s1 with rings := { s1.rings with held } }
    let s3 := s2.descs.foldl holdRecord s2
    let s4 := (List.finRange 64).foldl (releaseRing s3.descs.length) s3
    refreshHeader { s4 with rings := { s4.rings with held := false } }

/-- `DEVICE_DETACH` (R333). -/
def execDeviceDetach (_cause : DetachCause) (s : State) : Out := live s detach

/-- `DEVICE_REATTACH` (R331, R333): `doorbell` and `replay` are the doorbell words and the unread descriptors as the device reads them. -/
def execDeviceReattach (doorbell : List W64) (replay : List RawDesc) (s : State) : Out := live s (reattach doorbell replay)

end Sys2Proof.Machine
end

