-- ==== Sys2Proof/Machine/Descriptors.lean ====
section
/-! DEFINITION. Descriptors that the ring engine executes in a flow's order (R318, R336 to R340): goals, seed libraries,
queries and fences; and the context descriptors (R274 to R280). -/

namespace Sys2Proof.Machine

open Sys2Proof

/-- Executes the flow's head descriptor if its execution can begin now and its opcode is the command's: it takes a release place,
then acts. -/
def runHead (s : State) (ring : RingId) (isIt : DescBody → Bool) (f : State → DescEntry → State) : State :=
  match beginable s ring with
  | some d => if isIt d.desc.body then f (beginExec s d) d else s
  | none => s

/-- A DST buffer is written; that of a ring whose owner was lost is not (R331). -/
def dstWrite (s : State) (r : RingId) (a : Nat) (bs : List Byte) : State := if (ringGet s r).lost then s else hostWrite s a bs

/-! ## Goals and seeds (R154, R318, R337) -/

def recipeOf (s : State) : Option Recipe := s.sluice.recipe

/-- Joint values within a model's position limits; joints beyond the model's are not judged. -/
def jointsIn (m : RobotModel) (q : List Int) : Bool :=
  (List.range m.joints.length).all fun i =>
    let jt := nth m.joints i default
    jt.qMin ≤ nth q i 0 && nth q i 0 ≤ jt.qMax

/-- A goal against the recipe in force. -/
def goalInRange (s : State) (g : Goal) : Bool :=
  match recipeOf s with
  | none => false
  | some r =>
    match r.robots.find? fun m => m.1 == g.robot with
    | none => false
    | some m => if g.tool then inVolume r (posOf (goalPose g)) else jointsIn m.2 g.values

/-- A seed's joint values lie within those of some declared model (DEDUCED, log 26). -/
def seedInRange (s : State) (x : LibSeed) : Bool :=
  match recipeOf s with
  | none => false
  | some r => r.robots.any fun m => x.waypoints.all (jointsIn m.2) && jointsIn m.2 x.goal

def setGoal (s : State) (ref : JobRef) (n : Nat) (g : Goal) : State :=
  finish (matchGoal { s with sluice := { s.sluice with goals := s.sluice.goals.put n g } } n) ref .ok 0

def goalSet (s : State) (d : DescEntry) (n : Nat) (rec_ : List Byte) : State :=
  match decodeGoal rec_ with
  | none => finish s d.ref .planMismatch 0x0C
  | some g => if goalInRange s g then setGoal s d.ref n g else finish s d.ref .rangeExceeded 0

/-- `GOAL_SET` (R337): the record as the device reads it. -/
def execGoalSet (ring : RingId) (record : List Byte) (s : State) : Out :=
  live s fun s => runHead s ring DescBody.isGoalSet fun s d =>
    match d.desc.body with
    | .goalSet _ _ n => goalSet s d n (srcBytes s d record)
    | _ => s

/-- A class holds up to 1,024 seeds (R154). -/
def loadSeeds (s : State) (ref : JobRef) (cls mode : Nat) (new : List LibSeed) : State :=
  let old := if mode = 1 then [] else (s.sluice.libs.find cls).getD []
  if 1024 < old.length + new.length then finish s ref .planMismatch 0x01
  else finish { s with sluice := { s.sluice with libs := s.sluice.libs.put cls (old ++ new) } } ref .ok 0

def seedsLoad (s : State) (d : DescEntry) (len cls mode : Nat) (buf : List Byte) : State :=
  match decodeSeeds (len / 1600) buf with
  | none => finish s d.ref .planMismatch 0x0C
  | some xs => if xs.all (seedInRange s) then loadSeeds s d.ref cls mode xs else finish s d.ref .rangeExceeded 0

/-- `SEEDS_LOAD` (R154, R318). -/
def execSeedsLoad (ring : RingId) (buffer : List Byte) (s : State) : Out :=
  live s fun s => runHead s ring DescBody.isSeedsLoad fun s d =>
    match d.desc.body with
    | .seedsLoad _ len cls mode => seedsLoad s d len cls mode (srcBytes s d buffer)
    | _ => s

/-- `QUERY` (R318): the list of its kind goes to DST. -/
def execQuery (ring : RingId) (s : State) : Out :=
  live s fun s => runHead s ring DescBody.isQuery fun s d =>
    match d.desc.body with
    | .query dst _ kind => finish (dstWrite s d.ref.ring dst (queryBytes s kind)) d.ref .ok 0
    | _ => s

/-! ## Fence (R340) -/

/-- A descriptor that a fence waits for: accepted before it on its own ring or on an enabled ring that it names. -/
def fenceWaitsFor (s : State) (d : DescEntry) (mask : W64) (e : DescEntry) : Bool :=
  !e.stage.isDone && (e.ref.ring == d.ref.ring ||
    (mask.getLsbD e.ref.ring.val && (ringGet s e.ref.ring).state != .off))

def fenceOpen (s : State) (d : DescEntry) (mask : W64) : Bool :=
  (s.descs.takeWhile fun e => e.ref != d.ref).all fun e => !fenceWaitsFor s d mask e

/-- `FENCE` (R340). Jobs behind it on its ring may become ready. -/
def execFence (ring : RingId) (s : State) : Out :=
  live s fun s =>
    match beginable s ring with
    | some d =>
      match d.desc.body with
      | .fence mask =>
        if fenceOpen s d mask then settleAll (finish (beginExec s d) d.ref .ok 0) else s
      | _ => s
    | none => s

/-! ## Contexts (R274 to R280) -/

/-- `CONTEXT_SAVE` (R274): its execution begins; the save is taken at the next slot boundary. -/
def execContextSave (ring : RingId) (s : State) : Out :=
  live s fun s =>
    match beginable s ring with
    | some d =>
      match d.desc.body with
      | .contextSave .. => beginExec s d
      | _ => s
    | none => s

/-- The saved job of a `CONTEXT_SAVE` whose save slot has ended and whose buffer is being written. -/
def savingAt (s : State) (ring : RingId) : Option (DescEntry × Job) :=
  s.descs.findSome? fun d =>
    match d.stage, d.resume with
    | .executing, some j => if d.ref.ring == ring then some (d, j) else none
    | _, _ => none

/-! ### The bytes of a context (R276, R277)

DESIGN CHOICE (log 33): the spec gives the parts in their order with their sizes, and the cipher and the tag by name. Within a part the
fields follow one another in the order of R276's table, little-endian, real values in steps of 2^-16; the counter of SM4-CTR begins
at 0, the tag's first 16 B stand in the last 16 B of the header, and it covers the cipher text and, exactly, all that a restore takes
and for which R276's parts have no field or a coarser one. -/

def realBytes (n : Nat) (x : Rat) : List Byte := leBytes n (uns (8 * n) (rhe (x * 65536)))

/-- The header without its tag. -/
def ctxHead (c : SavedCtx) : List Byte :=
  slice (leBytes 4 c.planId.toNat ++ digestBytes c.bodyDigest ++ leBytes 1 c.savedActive ++ leBytes 1 c.reqActive
    ++ leBytes 1 c.nextSlot ++ leBytes 4 c.epoch.toNat ++ leBytes 8 c.planSeed.toNat
    ++ ((List.range 12).flatMap fun i =>
      let x := nth c.start i (0, 0, 0)
      realBytes 4 x.1 ++ realBytes 4 x.2.1 ++ realBytes 4 x.2.2)
    ++ leBytes 8 c.spliceNs ++ digestBytes c.recipeDigest) 0 240

/-- One entry of the seed list: payload row, goal state, status byte, stall count, used flag. -/
def ctxSeed (c : SavedCtx) (used : Bool) (x : JobSeed) : List Byte :=
  let row := leBytes 4 0xFFFF_FFFF ++ leBytes 4 x.tUs ++ [c.robot] ++ leBytes 1 x.goal.length ++ zeros 6
    ++ slice ((List.range x.ctrl.length).flatMap fun i =>
      (nth x.ctrl i []).flatMap fun v => leBytes 2 (uns 16 (bfxStore (nth c.exps i 0).toInt v))) 0 216 ++ zeros 24
  row ++ ((List.range 12).flatMap fun i => realBytes 4 (nth x.goal i 0)) ++ [x.status] ++ leBytes 1 x.stalls ++ leBytes 1 (b2n used)
    ++ zeros 13

/-- σ_j and σ_T, the tracker of R245, the route status and the counts. -/
def ctxState (c : SavedCtx) : List Byte :=
  slice (((List.range 12).flatMap fun i => realBytes 4 (nth c.sigma i 0)) ++ realBytes 4 c.sigmaT
    ++ (match c.best with
      | some b => leBytes 4 b.id.toNat ++ leBytes 2 (uns 16 b.clearance) ++ leBytes 1 b.sphere ++ leBytes 1 b.waypoint
          ++ leBytes 1 b.marks.toNat ++ leBytes 4 b.epoch.toNat
      | none => leBytes 4 0xFFFF_FFFF ++ zeros 9)
    ++ leBytes 1 c.marksSeen.toNat ++ leBytes 1 c.route.status.code ++ leBytes 1 c.route.cost ++ leBytes 1 c.route.moves
    ++ countBytes c.counts false) 0 1024

/-- The context in plain form without its tag, in the order of R276's table; the beacon result stands padded to K = 64 with rows
of 256 B. -/
def ctxPlain (c : SavedCtx) : List Byte :=
  ctxHead c ++ c.world ++ c.seeds.flatMap (ctxSeed c true) ++ c.spent.flatMap (ctxSeed c true)
    ++ c.pool.flatMap (ctxSeed c false) ++ resultBlock ⟨64, 4, (c.result.getD .empty).lambda, 0, 0, 0, 0⟩ (c.result.getD .empty)
    ++ ctxState c

/-- The context key: bytes 0 to 15 for SM4, bytes 16 to 47 for the tag (R409). -/
def ctxKey (s : State) : List Byte :=
  kdf Config.rootSecret "ZG-CTX" (digestBytes (Config.sm3 (keyBytes ((ownerKey s).getD 0)))) 48

def ctxCipher (s : State) (c : SavedCtx) : List Byte := Config.sm4Ctr (slice (ctxKey s) 0 16) [] (ctxPlain c)

/-- A number exactly, as far as 16 B hold its numerator and its denominator. -/
def ratBytes (x : Rat) : List Byte := leBytes 16 (uns 128 x.num) ++ leBytes 16 x.den

def ratsBytes (l : List Rat) : List Byte := leBytes 4 l.length ++ l.flatMap ratBytes

def gridBytes (l : List (List Rat)) : List Byte := leBytes 4 l.length ++ l.flatMap ratsBytes

def seedExact (x : JobSeed) : List Byte :=
  gridBytes x.waypoints ++ gridBytes x.ctrl ++ leBytes 4 x.tUs ++ gridBytes x.base.1 ++ leBytes 4 x.base.2 ++ ratsBytes x.goal
    ++ leBytes 4 x.stalls ++ [b2n x.refit, b2n x.fresh, b2n x.measured, b2n x.moved].flatMap (leBytes 1)

def partExact (p : CarriedPart) : List Byte :=
  leBytes 4 p.groups.length ++ p.groups.flatMap fun g =>
    leBytes 4 g.spheres.length ++ (g.spheres.flatMap fun x => ratBytes x.offset ++ ratBytes x.radius ++ ratsBytes x.reach)
      ++ ratsBytes g.reach ++ ratBytes g.eT ++ ratBytes g.rB

def cellExact (c : Nat × Nat × Nat) : List Byte := leBytes 1 c.1 ++ leBytes 1 c.2.1 ++ leBytes 1 c.2.2

def routeExact (x : Route) : List Byte :=
  leBytes 4 x.passes ++ (x.start.toList ++ x.goal.toList).flatMap cellExact ++ ratsBytes x.pose ++ ratsBytes x.joint
    ++ leBytes 4 x.path.length ++ x.path.flatMap cellExact ++ (x.v.flatMap fun e => leBytes 4 e.1 ++ leBytes 1 e.2)
    ++ x.seed.toList.flatMap seedExact

/-- What the tag covers beside the cipher text. -/
def ctxBeside (c : SavedCtx) : List Byte :=
  leBytes 1 c.window ++ leBytes 8 c.winTe
    ++ (c.start.flatMap fun x => ratBytes x.1 ++ ratBytes x.2.1 ++ ratBytes x.2.2)
    ++ (c.seeds ++ c.spent ++ c.pool).flatMap seedExact
    ++ (c.centres.flatMap fun x => gridBytes x.ctrl ++ leBytes 4 x.tUs ++ ratsBytes x.goal)
    ++ ((c.result.map (·.rows)).getD []).flatMap (fun r => ratsBytes r.goal)
    ++ ratsBytes c.sigma ++ ratBytes c.sigmaT ++ routeExact c.route ++ c.carried.toList.flatMap partExact
    ++ c.parts.flatMap fun e => leBytes 1 e.1 ++ partExact e.2

def ctxTag (s : State) (c : SavedCtx) : BitVec 128 :=
  BitVec.ofNat 128 (leNat (slice (digestBytes (Config.hmac (slice (ctxKey s) 16 32) (ctxCipher s c ++ ctxBeside c))) 0 16))

/-- The sealed context as it goes to the named buffer. -/
def ctxSealed (s : State) (c : SavedCtx) : List Byte :=
  let x := ctxCipher s c
  slice x 0 240 ++ leBytes 16 (ctxTag s c).toNat ++ x.drop 240

/-- The context of a job between two of its slots. -/
def savedCtx (s : State) (j : Job) : SavedCtx :=
  let c : SavedCtx := {
    planId := j.img.planId, bodyDigest := j.img.bodyDigest, savedActive := activeCount s, reqActive := j.img.reqActive
    nextSlot := j.slot, epoch := j.epoch, planSeed := j.planSeed, start := j.start, spliceNs := j.spliceNs
    recipeDigest := (j.recipe.map (·.bodyDigest)).getD 0, window := j.window, exps := j.img.jointExp, robot := j.img.robot
    world := j.win.readN 0 masterLen, winTe := j.winTe, seeds := j.seeds, pool := j.pool, spent := j.spent
    result := j.lastResult, centres := j.centres, sigma := j.sigma, sigmaT := j.sigmaT, best := j.best
    marksSeen := j.marksSeen, route := j.route, counts := j.counts, carried := j.carried, parts := j.parts
    tag := 0 }
  { c with tag := ctxTag s c }

/-- `CONTEXT_SAVE_COMPLETE` (R274): the sealed buffer is complete; first the target, then the save completes. -/
def execContextSaveComplete (ring : RingId) (s : State) : Out :=
  live s fun s =>
    if s.safety.state == .halt then s
    else match savingAt s ring with
    | none => s
    | some (d, j) =>
      let s1 := match d.desc.body with
        | .contextSave _ _ dst _ => dstWrite s d.ref.ring dst (ctxSealed s (savedCtx s j))
        | _ => s
      let s2 := modDesc s1 d.ref fun e => { e with resume := none }
      finish (complete s2 j.ref { plainResult .cancelled 1 with epoch := j.epoch, restored := j.restored }) d.ref .ok 0

/-! ## Dispatch checks on an image (R92, R514) -/

/-- The goal that a job's GOAL token names, where the token is selected. -/
def tokenGoal (s : State) (d : DescEntry) : Option Goal :=
  if (tokensOf d).getLsbD 1 then s.sluice.goals.find (goalOf d) else none

def robotOk (s : State) (img : PlanImage) (goal : Option Goal) : Bool :=
  img.robot == 0xFF ||
    ((recipeOf s).any (fun r => r.robots.any fun m => m.1 == img.robot.toNat)
      && goal.all fun g => g.robot == img.robot.toNat)

/-- The dispatch rows of R92 after the first, in their order: the reason code of the first that fails. -/
def imageRefusal (s : State) (img : PlanImage) (goal : Option Goal) : Option Nat :=
  if activeCount s < img.reqActive then some 0x04
  else if img.memDies.toNat != s.mem.present.toNat then some 0x05
  else if img.slotLen != s.grid.period then some 0x06
  else if !robotOk s img goal then some 0x0C
  else none

/-- The checks of R278 in their order, with R412 first: status and detail of the first that fails. -/
def restoreRefusal (s : State) (h : SavedCtx) : Option (Status × Nat) :=
  if (ownerKey s).isNone || h.tag != ctxTag s h then some (.sealFail, 0)
  else match imageOf s h.planId with
    | none => some (.planMismatch, 0x0A)
    | some img =>
      if img.bodyDigest != h.bodyDigest then some (.planMismatch, 0x0A)
      else if activeCount s != h.savedActive then some (.planMismatch, 0x04)
      else match imageRefusal s img none with
        | some r => some (.planMismatch, r)
        | none =>
          if (recipeOf s).any fun r => r.bodyDigest == h.recipeDigest then none else some (.planMismatch, 0x0B)

/-- `CONTEXT_RESTORE` (R278): the checks at acceptance, on the context that the buffer holds. -/
def execContextRestore (ring : RingId) (index : W32) (saved : SavedCtx) (s : State) : Out :=
  live s fun s =>
    match findDesc s ⟨ring, index⟩ with
    | none => s
    | some d =>
      if s.safety.state == .halt then s
      else match d.stage, d.desc.body with
      | .entered, .contextRestore .. =>
        match restoreRefusal s saved with
        | some (st, det) => finish s d.ref st det
        | none => modDesc s d.ref fun e => { e with stage := .waiting, ctx := some saved }
      | _, _ => s

/-- `RESTORE_VERIFIED` (R279): the whole context is in device DRAM and verified; the job becomes ready. -/
def execRestoreVerified (ring : RingId) (index : W32) (s : State) : Out :=
  live s fun s =>
    match findDesc s ⟨ring, index⟩ with
    | none => s
    | some d =>
      if d.stage == .waiting && d.ctx.isSome then
        settleAll (modDesc s d.ref fun e => { e with verified := true })
      else s

end Sys2Proof.Machine
end

