-- ==== Sys2Proof/Machine/FusionRun.lean ====
section
/-! DEFINITION. A fusion run (R105 to R141, R200, R230): its three phases over the whole frame set, the probe regions, and
the comparison of a probe region with its table (R299, R300). -/

namespace Sys2Proof.Machine

open Sys2Proof

/-! ## Phase 1: fusion, inferred bricks, occupancy, tracks -/

/-- The frames that the run fuses: a frame whose probe region does not match its table is left out (R299), and so is one of
a camera that has become suspect (R300). -/
def fusedFrames (s : State) (r : Recipe) (set : FrameSet) : FrameSet :=
  { set with frames := set.frames.filter fun f => probeMatches r f.counter f.patchErr && (camGet s f.port).state != 4 }

/-- The bricks in which OCCUPIED is formed anew at the end of fusion: those touched, merged, allocated after a refusal or
cut off before (DEDUCED, log 18), and every brick once W_OCC or the conveyor region has changed (R107, R115). -/
def formedAnew (w : World) (r : Recipe) (now : List Nat) : List Nat :=
  if w.formed == some (r.wOcc, r.conveyor) then now.dedup else (bricks w).map (·.1)

/-- The set updates the touched bricks in ascending directory index until the image's brick budget is spent, once the
allocations that were refused have been tried again (R120); the delivery is merged; OCCUPIED is formed anew; inferred bricks
expire; the bricks beyond the budget become solid (R117), and free ones age. -/
def fuseSet (s : State) (j : Job) (r : Recipe) (set : FrameSet) : State :=
  let vs := viewsOf s j.parts r (fusedFrames s r set)
  let touched := touchedBricks r vs
  let again := allocate s false (s.world.refused.filter fun b => !touched.contains b)
  let a := allocate again.1 true touched
  let now := a.2.take j.img.body.brickBudget
  let beyond := a.2.drop j.img.body.brickBudget
  let w := seeAll r vs (vs.foldl (fun w v => now.foldl (fuseBrick r v) w) a.1.world)
  let b := mergeInbox { a.1 with world := w } r touched j.bricks
  let anew := (formedAnew b.1.world r (now ++ again.2 ++ b.2 ++ s.world.cut)).filter fun k => !beyond.contains k
  let w1 := anew.foldl (occupyBrick r) b.1.world
  let w2 := (bricks w1).foldl (expireBrick r) w1
  let w3 := beyond.foldl (cutOffBrick r) w2
  let w4 := (bricks w3).foldl (ageBrick r) w3
  takeClusters { b.1 with world := { w4 with cut := beyond, formed := some (r.wOcc, r.conveyor) } } r set.teNs (clustersOf r w4)

/-! ## Phase 2: hot bricks and the distance fields -/

def formDistances (s : State) (ref : JobRef) (r : Recipe) : State :=
  let s1 := assignHot s r
  let w := coarseDistances r (fineDistances r (coarseStates r s1.world))
  storeCoarse (storeBricks { s1 with world := w } ref) ref

/-! ## Phase 3: masters (R132, R200, R230) -/

/-- The master of one window with its layer and, where the image writes them and the epoch has a predecessor, the
speculation master of the epoch that the run produces. DESIGN CHOICE (log 126): a window for which the image declares no
master has none. -/
def writeMaster (s : State) (j : Job) (r : Recipe) (te : Nat) (x : Nat × Vec3) : State :=
  let p := s.world.places
  let e := nextEpoch s.world.epoch
  let stat := windowBytes r s.world x.2
  match p.masters[x.1]? with
  | none => s
  | some base =>
    let s1 := stageStore j.ref s base (stat ++ layerBytes s j.parts r te x.2)
    if j.img.specMasters && s.world.era then
      let k := x.1 + 4 * (e.toNat % 2)
      noteSpec (stageStore j.ref s1 (nth p.spec k 0) (stat ++ layerBytes s j.parts r (predictedNs te s.world.teNs) x.2)) k e
    else s1

def writeMasters (s : State) (j : Job) (r : Recipe) (te : Nat) : State :=
  let s1 := ((List.range r.windows.length).zip r.windows).foldl (fun s x => writeMaster s j r te x) s
  stageStore j.ref s1 s1.world.places.route (routeBytes r s1.world)

/-! ## The run -/

/-- Where phase `k` finds the world's structures in the cistern: base and length. -/
def phaseReads (p : WorldPlaces) (r : Recipe) (k : Nat) : List (Nat × Nat) :=
  let dir := (p.directory, 0x40_0000)
  let hot := (p.hot, 2048 * r.hotSlots)
  if k = 1 then [dir, (p.coarseState, 0x80_0000)]
  else if k = 2 then [dir, hot, (p.coarseState, 0x80_0000), (p.coarseDist, 0x100_0000)]
  else [dir, hot, (p.coarseDist, 0x100_0000)]

/-- A structure that phase `k` reads lies in a bank group in retention or still waking. -/
def phaseAsleep (s : State) (r : Recipe) (k : Nat) : Bool :=
  (phaseReads s.world.places r k).any fun x => rangeAsleep s (.cistern x.1) x.2

/-- Phase `k` of a run takes place once, after the phases before it. DESIGN CHOICE (log 127): a run dispatched before a world
clear writes nothing after it (R107). A phase that meets the world's structures asleep performs nothing, and the job fails (R57;
DESIGN CHOICE, log 158). -/
def runPhase (s : State) (ref : JobRef) (k : Nat) : State :=
  match findJob s ref with
  | none => s
  | some j =>
    match j.fusing, j.recipe with
    | some set, some r =>
      if j.kind != .work || j.phase + 1 != k || j.worldGen != s.world.clears then s
      else
        let s1 := if phaseAsleep s r k then retainedAccess s ref else if k = 1 then fuseSet s j r set else if k = 2 then formDistances s ref r else writeMasters s j r set.teNs
        modJob s1 ref fun j => { j with phase := k }
    | _, _ => s

/-- What is left of a run. DESIGN CHOICE (log 97): a phase that no stage instruction has started takes place when its
result is needed, at the latest at the run's end. -/
def finishRun (s : State) (ref : JobRef) : State := [1, 2, 3].foldl (fun s k => runPhase s ref k) s

/-- A run's probe regions: cleared, then fused from the patches that it compares (R141, R300). -/
def fillProbes (s : State) (r : Recipe) (set : FrameSet) : State :=
  (List.finRange 4).foldl (fun s p =>
    let base := 16384 * p.val
    let w := s.world
    let region := match probedFrame s set p with
      | some f => probeRegion r f.1 f.2
      | none => []
    let probe := region.foldl (fun (m : SMap Voxel) e => m.put (base + e.1) e.2) (w.probe.filter fun e => e.1 / 16384 != p.val)
    placeWrite { s with world := { w with probe, probed := w.probed.set p (probedFrame s set p) } } (.cistern (w.places.probe + 65536 * p.val))
      ((List.range 16384).flatMap fun v => voxelBytes ((probe.find (base + v)).getD blankVoxel))) s

/-- What the check voxels of a port's region hold. -/
def probeNow (s : State) (p : Fin 4) : SMap Voxel :=
  (s.world.probe.filter fun e => e.1 / 16384 == p.val).map fun e => (e.1 - 16384 * p.val, e.2)

/-- The verdict of a probe comparison on a frame. -/
def judgeProbe (s : State) (j : Job) (set : FrameSet) (p : Fin 4) (ctr : W32) (ok : Bool) : State :=
  let s1 := camMod s p fun c => { c with probeFail := !ok, hist := probeVerdict c.hist ctr ok }
  if ok then judge s1 p
  else
    let s2 := modJob s1 j.ref fun j => { j with
      fusing := some { set with frames := set.frames.filter fun f => f.port != p } }
    judge (raise s2 .camProbeFail []) p

/-- `PROBE_COMPARE` (R299, R300): the check voxels of a port's region against the table for the phase of the counter with which
the run filled it, which the patch as injected gives. -/
def execProbeCompare (p : Fin 4) (s : State) : Out :=
  live s fun s =>
    match fusingJob s with
    | none => s
    | some j =>
      match j.fusing, j.recipe with
      | some set, some r =>
        match s.world.probed.get p with
        | none => s
        | some f => judgeProbe s j set p f.1 (checkValues (probeNow s p) == checkValues (probeRegion r f.1 []))
      | _, _ => s

end Sys2Proof.Machine
end

