-- ==== Sys2Proof/Machine/Infer.lean ====
section
/-! DEFINITION. The inference stage (R249 to R268): inputs, per-channel scale, activation tables, softmax and layer
normalisation on a wick's registers, grasp poses, the carried-part fit and the inference inbox. -/

namespace Sys2Proof.Machine

open Sys2Proof

/-! ## Wick registers -/

/-- A wick that nothing has written holds zeros and the predicates of the active context's set-up. -/
def wickGet (l : Lantern) (w : Nat) : Wick := (l.wicks.find w).getD { Wick.zero with preds := (activeCtx l).preds }

def regGet (k : Wick) (r : Nat) : W32 := (k.regs.find (r % 256)).getD 0

def regPut (k : Wick) (r : Nat) (v : W32) : Wick := { k with regs := k.regs.put (r % 256) v }

def modWick (s : State) (p : Phys) (w : Nat) (f : Wick → Wick) : State :=
  modLant s p fun l => { l with wicks := l.wicks.put w (f (wickGet l w)) }

/-! ## Inputs (R257) -/

/-- The input code of an accepted pixel and whether its clamp counts. -/
def inputCode (bf16 : Bool) (d : Nat) (o h : Int) : List Byte × Bool :=
  if bf16 then
    (leBytes 2 (drainFloat fmtBf16 false 0x7FC0 (ofRat (((d : Int) - o : Int) * pow2 (-h)))).1, false)
  else
    let q := rheShift ((d : Int) - o) h
    let x := clampFlag (-128) 127 q.1
    (leBytes 1 (uns 8 x.1), x.2 || q.2)

/-- The frame of a camera in the buffer of the job's epoch (R256), with the camera's binding. -/
def inputFrame (s : State) (j : Job) (r : Recipe) (port : Fin 4) : Option (CamCfg × SetFrame) :=
  ((s.world.buffers.toList.filterMap id).find? fun e => e.1 == j.epoch).bind fun e =>
    (e.2.frames.find? fun f => f.port == port).bind fun f => (r.cameras.find? fun c => c.port == port).map fun c => (c, f)

/-- A pixel of a frame; one that holds no depth reads 0. -/
def framePixel (f : SetFrame) (index : Nat) : Pixel := (f.pixels.find? fun x => x.index == index).getD ⟨index, 0, 0⟩

/-- A pixel becomes an input code in the lantern's basin: the fill code where R111 does not accept it. -/
def opInputPixel (s : State) (p : Phys) (j : Job) (r : Recipe) (port : Fin 4) (decl index dst : Nat) : State :=
  let d := nth (activeCtx (lant s p)).inputs decl default
  match inputFrame s j r port with
  | none => s
  | some (c, f) =>
    let x := framePixel f index
    let code := if pixelOk s j.parts r c f.sofNs x then inputCode d.bf16 x.depth d.offset d.shift
      else (leBytes (if d.bf16 then 2 else 1) d.fill.toNat, false)
    let s1 := if (lant s p).retain.asleep then retainedAccess s j.ref else placeWrite s (.basin p dst) code.1
    countRange s1 p (b2n code.2)

/-- Bytes of the image that the recipe assigns to a camera reach the lantern's basin (R256). -/
def opInputImage (s : State) (p : Phys) (j : Job) (r : Recipe) (port : Fin 4) (index dst n : Nat) : State :=
  match inputFrame s j r port with
  | none => s
  | some (_, f) =>
    if (lant s p).retain.asleep then retainedAccess s j.ref else placeWrite s (.basin p dst) (slice f.image index n)

/-! ## Scale, activation, softmax, layer normalisation (R251 to R254) -/

/-- 2^k changes only the exponent; the bias is added after it with one rounding. -/
def scaleAcc (k : Int) (bias : W32) (a : W48) : W48 :=
  let v := match fp32.decode (a.toNat % 2 ^ 32) with
    | .fin n m => .fin n (m * pow2 k)
    | x => x
  BitVec.ofNat 48 (toFp32 (FVal.add (fp32.decode (toFp32 v)) (fp32.decode bias.toNat)))

def opChannelScale (s : State) (p : Phys) (w : Nat) (acc : Fin 8) (k : Int) (bias : Nat) : State :=
  modWick s p w fun x => { x with acc := x.acc.set acc (scaleAcc k (regGet x bias) (x.acc.get acc)) }

/-- The elements of a register, the lowest first, each by its code. -/
def elemsOf (t : ElemType) (v : W32) : List Nat :=
  (List.range (32 / elemBits t)).map fun i => v.toNat / 2 ^ (elemBits t * i) % 2 ^ elemBits t

def regOf (t : ElemType) (codes : List Nat) : W32 :=
  BitVec.ofNat 32 (sumNat ((List.range codes.length).map fun i => nth codes i 0 % 2 ^ elemBits t * 2 ^ (elemBits t * i)))

/-- A code `n` steps of the last place up or down, among the finite values and the infinities. -/
def stepCode (f : FFmt) (code : Nat) (n : Int) : Nat :=
  let top : Int := 2 ^ (f.eb + f.fb)
  let v : Int := if (code : Int) < top then code else top - code
  let x := clampInt (-(f.infCode : Int)) f.infCode (v + n)
  if 0 ≤ x then x.toNat else (top - x).toNat

/-- The first 1,200 terms of the exponential series of |x|, inverted for a negative x. DESIGN CHOICE (log 163): they stand for the exact
value, which they meet far below a unit in the last place wherever the result is a finite value other than 0. -/
def expRat (x : Rat) : Rat :=
  let y := min (absRat x) 256
  let sum := ((List.range 1200).foldl (fun (a : Rat × Rat) i => (a.1 + a.2, a.2 * y / (i + 1 : Nat))) (0, 1)).1
  if x < 0 then 1 / sum else sum

def tanhRat (x : Rat) : Rat := (expRat (2 * x) - 1) / (expRat (2 * x) + 1)

def sigmoidRat (x : Rat) : Rat := 1 / (1 + expRat (-x))

/-- sqrt(2 / π) to 48 places. -/
def sqrtTwoOverPi : Rat := 797884560802865355879892119868763736951717262330 / 10 ^ 48

/-- The exact value of an activation function (R249): GELU in its tanh form. -/
def actValue (fn : ActFn) (x : Rat) : Rat :=
  match fn with
  | .identity => x
  | .relu => max x 0
  | .relu6 => min (max x 0) 6
  | .leaky k => if x < 0 then x / (2 ^ k : Nat) else x
  | .hardSigmoid => min (max (x + 3) 0) 6 / 6
  | .hardSwish => x * (min (max (x + 3) 0) 6 / 6)
  | .sigmoid => sigmoidRat x
  | .tanh => tanhRat x
  | .silu => x * sigmoidRat x
  | .gelu => x / 2 * (1 + tanhRat (sqrtTwoOverPi * (x + 44715 / 1000000 * x ^ 3)))
  | .exp => expRat x

/-- A unit in the last place of a format at a value. -/
def ulpAt (f : FFmt) (y : Rat) : Rat :=
  let emin : Int := 1 - (f.bias : Int)
  pow2 ((if y = 0 then emin else max (log2Rat (absRat y)) emin) - f.fb)

/-- A finite code that lies within `tol` of the exact value `y`; else the code to which `y` rounds. -/
def holdNear (f : FFmt) (tol y : Rat) (code : Nat) : Nat :=
  let near := match f.decode code with
    | .fin n m => decide (absRat ((if n then -m else m) - y) ≤ tol)
    | _ => false
  if near then code else (drainFloat f false 0 (ofRat y)).1

/-- How far a result may lie from the exact value: 2 units in the last place of bf16, or 4 of binary32 for exp and softmax (R253). -/
def actTol (fn : ActFn) (wide : Bool) (y : Rat) : Rat :=
  match fn, wide with
  | .exp, true => 4 * ulpAt fp32 y
  | _, _ => 2 * ulpAt fmtBf16 y

/-- An activation on a bf16 or a binary32 code (R253): the code to which the exact value rounds, or one some places beside it that the
bound allows; which is free (log 163). -/
def activateCode (fn : ActFn) (wide : Bool) (code : Nat) : Nat :=
  let f := if wide then fp32 else fmtBf16
  match f.decode code with
  | .fin n m =>
    let y := actValue fn (if n then -m else m)
    holdNear f (actTol fn wide y) y (stepCode f (drainFloat f false 0 (ofRat y)).1 (Config.actErr fn wide code))
  | _ => Config.actSpecial fn wide code % (if wide then 2 ^ 32 else 2 ^ 16)

/-- A bf16 register holds two elements, a binary32 register one. -/
def activateReg (fn : ActFn) (wide : Bool) (v : W32) : W32 :=
  let t : ElemType := if wide then .fp32 else .bf16
  regOf t ((elemsOf t v).map (activateCode fn wide))

/-- The table of R253, applied to each of a register's four codes. -/
def lookupReg (table : Vector Byte 256) (v : W32) : W32 :=
  BitVec.ofNat 32 (leNat ((leBytes 4 v.toNat).map fun c => table.get c.toFin))

def fAdd (a b : Nat) : Nat := toFp32 (FVal.add (fp32.decode a) (fp32.decode b))

def fMul (a b : Nat) : Nat := toFp32 (FVal.mul (fp32.decode a) (fp32.decode b))

def fNeg (a : Nat) : Nat := if a < 2 ^ 31 then a + 2 ^ 31 else a - 2 ^ 31

def fGreater (a b : Nat) : Bool := FVal.greater (fp32.decode a) (fp32.decode b)

/-- The reciprocal of a binary32 value: within one unit in the last place of the correctly rounded one (R183,
R254). DESIGN CHOICE (log 140): by how many is free. -/
def recip32 (code : Nat) : Nat :=
  match fp32.decode code with
  | .fin n m =>
    if m = 0 then fp32.signBit n + fp32.infCode
    else stepCode fp32 (toFp32 (.fin n (1 / m))) (clampInt (-1) 1 (Config.recipErr32 code))
  | .inf n => fp32.signBit n
  | .nan => 0x7FC0_0000

/-- One Newton-Raphson step towards the reciprocal square root of `x`: y (3 − x y²) / 2. -/
def rsqrtStep (code : Nat) (y : Nat) (k : Nat) : Nat :=
  match fp32.decode code, fp32.decode y with
  | .fin _ x, .fin n m =>
    stepCode fp32 (toFp32 (.fin n (m * absRat (3 - x * m * m) / 2))) (Config.rsqrtErr k code)
  | _, _ => 0x7FC0_0000

/-- The fixed sequence of 4 steps (R254); first value and rounding are free (DESIGN CHOICE, log 140). -/
def rsqrt32 (code : Nat) : Nat := (List.range 4).foldl (rsqrtStep code) (Config.rsqrtStart code % 2 ^ 32)

/-- Elements of a row from register `first` of wick `w` on; a row goes on in the registers of the next wick. -/
def rowCodes (l : Lantern) (w first n : Nat) : List Nat :=
  (List.range n).map fun i => (regGet (wickGet l ((w + (first + i) / 256) % 64)) (first + i)).toNat

def putRow (s : State) (p : Phys) (w first : Nat) (xs : List Nat) : State :=
  (List.range xs.length).foldl (fun s i =>
    modWick s p ((w + (first + i) / 256) % 64) fun k => regPut k (first + i) (BitVec.ofNat 32 (nth xs i 0))) s

/-- The value of a finite binary32 code. -/
def finValue (code : Nat) : Option Rat :=
  match fp32.decode code with
  | .fin n m => some (if n then -m else m)
  | _ => none

/-- Subtract the maximum, exp, sum in ascending order, multiply by the reciprocal of the sum (R254). -/
def softmaxSteps (xs : List Nat) : List Nat :=
  match xs with
  | [] => []
  | x :: t =>
    let top := t.foldl (fun a b => if fGreater b a then b else a) x
    let es := xs.map fun v => activateCode .exp true (fAdd v (fNeg top))
    let sum := (es.drop 1).foldl fAdd (nth es 0 0)
    es.map fun e => fMul e (recip32 sum)

/-- The softmax of a row: each result lies within 4 units in the last place of binary32 of the exact one (R253). -/
def softmaxRow (xs : List Nat) : List Nat :=
  match xs.mapM finValue with
  | none => softmaxSteps xs
  | some vs =>
    let top := vs.foldl max (nth vs 0 0)
    let es := vs.map fun v => expRat (v - top)
    List.zipWith (fun e code => holdNear fp32 (4 * ulpAt fp32 (e / es.sum)) (e / es.sum) code) es (softmaxSteps xs)

/-- The ε of a layer normalisation: the context's, and at least 2^-20 (DESIGN CHOICE, log 140). -/
def epsilonOf (eps : W32) : Nat := max (eps.toNat % 2 ^ 31) (toFp32 (.fin false (pow2 (-20))))

/-- Mean and variance in ascending order, ε added before the reciprocal square root. -/
def layerNormRow (eps : W32) (xs : List Nat) : List Nat :=
  let invN := toFp32 (.fin false (1 / (xs.length : Rat)))
  let mean := fMul (xs.foldl fAdd 0) invN
  let ds := xs.map fun v => fAdd v (fNeg mean)
  let var := fMul ((ds.map fun d => fMul d d).foldl fAdd 0) invN
  ds.map fun d => fMul d (rsqrt32 (fAdd var (epsilonOf eps)))

/-! ## Elementwise operators, pooling and resizing (R249) -/

def elemApply (op : ElemOp) (a b : FVal) : FVal :=
  match op with
  | .add => FVal.add a b
  | .sub => FVal.add a b.neg
  | .mul => FVal.mul a b
  | .max => FVal.max a b
  | .min => (FVal.max a.neg b.neg).neg

/-- The elements of a register from operands of equal type, and how many are counted. DESIGN CHOICE (log 120): a result comes
to its type as a drain brings it there (R35). -/
def elemReg (t : ElemType) (xs : List FVal) : W32 × Nat :=
  let cs := xs.map (elemCode t)
  (regOf t (cs.map (·.1)), (cs.filter (·.2)).length)

def elemRegVals (t : ElemType) (v : W32) : List FVal := (elemsOf t v).map (elemVal t)

def putElems (s : State) (p : Phys) (w rd : Nat) (t : ElemType) (xs : List FVal) : State :=
  countRange (modWick s p w fun k => regPut k rd (elemReg t xs).1) p (elemReg t xs).2

def opElementwise (s : State) (p : Phys) (w : Nat) (op : ElemOp) (t : ElemType) (rd ra rb : Nat) : State :=
  let k := wickGet (lant s p) w
  putElems s p w rd t (List.zipWith (elemApply op) (elemRegVals t (regGet k ra)) (elemRegVals t (regGet k rb)))

/-- The sum of values: exact for integers, in ascending order with a rounding to binary32 after each addition for floating
ones (R34). -/
def elemSum (t : ElemType) (xs : List FVal) : FVal :=
  match elemFloat t with
  | some _ => fp32.decode (xs.foldl fpStep 0)
  | none => xs.foldl FVal.add (ofRat 0)

/-- A window of `n` consecutive registers becomes one, lane by lane. -/
def opPool (s : State) (p : Phys) (w : Nat) (kind : PoolKind) (t : ElemType) (first n rd : Nat) : State :=
  let k := wickGet (lant s p) w
  let lanes := (List.range (32 / elemBits t)).map fun i =>
    (List.range n).map fun r => nth (elemRegVals t (regGet k (first + r))) i .nan
  putElems s p w rd t (lanes.map fun xs => match kind with
    | .max => (xs.drop 1).foldl FVal.max (nth xs 0 .nan)
    | .average => FVal.mul (elemSum t xs) (.fin false (1 / (n : Rat))))

/-- The four neighbours of an output element stand in consecutive registers, row by row; the element lies `x` and `y` of the
way between them, each a numerator over twice the factor (half-pixel centres). -/
def opBilinear (s : State) (p : Phys) (w : Nat) (t : ElemType) (first : Nat) (x y : Nat × Nat) (rd : Nat) : State :=
  let k := wickGet (lant s p) w
  let part := fun (f : Nat × Nat) => ((f.1 : Rat) / (2 * f.2), 1 - (f.1 : Rat) / (2 * f.2))
  let at_ := fun (r i : Nat) (q : Rat) => FVal.mul (nth (elemRegVals t (regGet k (first + r))) i .nan) (ofRat q)
  putElems s p w rd t ((List.range (32 / elemBits t)).map fun i =>
    [at_ 1 i ((part x).1 * (part y).2), at_ 2 i ((part x).2 * (part y).1), at_ 3 i ((part x).1 * (part y).1)].foldl FVal.add
      (at_ 0 i ((part x).2 * (part y).2)))

/-- Floating partial sums of other wicks and lanterns, which stand in registers from `first` on, are added in the order that
the context declares (R268). -/
def opSumParts (s : State) (p : Phys) (w : Nat) (order : List Nat) (first rd : Nat) : State :=
  modWick s p w fun k => match order.map fun i => (regGet k (first + i)).toNat with
    | [] => k
    | x :: t => regPut k rd (BitVec.ofNat 32 (t.foldl fAdd x))

/-! ## Outputs (R262 to R265) -/

/-- The place N, C, H and W of an element by its flat index (R267). -/
def unflatten (chans height width id : Nat) : List Nat :=
  [id / (chans * height * width), id / (height * width) % chans, id / width % height, id % width]

/-- A binary32 output of a head, from its row's payload. -/
def payReal (bs : List Byte) (i : Nat) : Rat :=
  match fp32.decode (field bs (4 * i) 4) with
  | .fin n m => if n then -m else m
  | _ => 0

/-- The pose of a row of the grasp head's result: the row's pixel, which its ID names, is back-projected at its depth plus
the head's depth offset, and the orientation comes of its approach and rotation outputs. Each pose starts an `IK` solve from
the job's start state. Rows are taken in order, 64 a job at most, and one whose camera has no frame gives no pose. DESIGN CHOICE (log 121):
the payload row holds the offset, the approach vector and the rotation as five binary32 values. -/
def opGraspPose (s : State) (j : Job) (r : Recipe) (m : RobotModel) (row : Nat) : State :=
  let g := j.img.body.grasp
  match ((j.result.map (·.rows)).getD [])[row]? with
  | none => s
  | some x =>
    let at_ := unflatten g.chans g.height g.width x.id.toNat
    match if row < 64 && j.solves.all (fun y => y.kind != .ik || y.seed < 1 + row) then inputFrame s j r (nth g.ports (nth at_ 0 0) 0) else none with
    | none => s
    | some (c, f) =>
      let pixel := nth at_ 2 0 * g.step * c.width + nth at_ 3 0 * g.step
      let p := Vec3.add c.trans (Vec3.scale ((framePixel f pixel).depth + payReal x.pay 0) (camRay c pixel))
      let orient := Config.graspOrient ⟨payReal x.pay 1, payReal x.pay 2, payReal x.pay 3⟩ (payReal x.pay 4)
      let s1 := modJob s j.ref fun j => { j with counts := { j.counts with posted := j.counts.posted + 1 } }
      startIk s1 j (1 + row) ([p.x, p.y, p.z] ++ orient) (startPos j m.joints.length)

/-- The solution of pose `k` enters the set to post, in row order, unless R187 withholds it. -/
def opPostSolution (s : State) (j : Job) (k : Nat) : State :=
  match (findSolve j (1 + k) .ik).filter ikUsable with
  | none => s
  | some x =>
    if j.solutions.any fun y => k ≤ y.row then s
    else modJob s j.ref fun j => { j with solutions := j.solutions ++ [⟨k, x.target, nth x.cur.value 0 []⟩] }

def partSpheres (c : CarriedPart) : Nat := sumNat (c.groups.map fun g => g.spheres.length)

/-- Reach bounds by joint: not negative, and 1 or 0 for a prismatic joint (R143). -/
def reachOk (js : List Joint) (reach : List Rat) : Bool :=
  (List.range js.length).all fun i =>
    let l : Rat := nth reach i 0
    decide (0 ≤ l) && ((nth js i default).revolute || l = 0 || l = 1)

/-- The limits of a fit: at most 32 spheres, in groups within R143 and R144, of which the model's other groups leave room for
`groups`. -/
def fitOk (groups : Nat) (js : List Joint) (c : CarriedPart) : Bool :=
  partSpheres c ≤ 32 && c.groups.length ≤ groups
    && c.groups.all fun g => g.rB ≤ 56 && reachOk js g.reach
      && g.spheres.all fun x => x.offset + x.radius ≤ g.rB && reachOk js x.reach

def inflatePart (k : Nat) (c : CarriedPart) : CarriedPart :=
  { c with groups := c.groups.map fun g => { g with spheres := g.spheres.map fun x => { x with radius := x.radius + k } } }

/-- Every point lies in a sphere of the part, the arm standing at `q`. -/
def partCovers (recipe : Digest) (robot : Nat) (c : CarriedPart) (q : List Rat) (points : List Vec3) : Bool :=
  points.all fun x => (List.range c.groups.length).any fun g =>
    let spheres := (nth c.groups g default).spheres
    (List.range spheres.length).any fun i =>
      decide (Vec3.normSq (Vec3.sub x (Config.partCentre recipe robot c g i q)) ≤ (nth spheres i default).radius ^ 2)

/-- The groups that a robot model leaves for a carried part. -/
def partRoom (m : RobotModel) : Nat := 12 - (m.groups.filter fun g => !g.carried).length

/-- The fit of the held part's mask, which the segmentation head left in the lantern's basin as a byte for each pixel,
inflated; the default envelope where no fit covers the mask's points within the limits. -/
def opCarriedFit (s : State) (p : Phys) (j : Job) (r : Recipe) (m : RobotModel) (port : Fin 4) (maskAt n : Nat) : State :=
  let asleep := (lant s p).retain.asleep
  let mask := if asleep then zeros n else placeRead s (.basin p maskAt) n
  let robot := j.img.robot.toNat
  let fit := (inputFrame s j r port).bind fun x =>
    let points := (((List.range n).filter fun i => nth mask i 0 != 0).map (framePixel x.2)).map (backProject x.1)
    ((Config.fitPart points).filter fun c => partCovers r.bodyDigest robot c (jointsAt s r robot m x.2.sofNs) points).map
      (inflatePart r.partInflate)
  let s1 := if asleep then retainedAccess s j.ref else s
  match fit.filter (fitOk (partRoom m) m.joints) with
  | some c => modJob s1 j.ref fun j => { j with fitted := some c }
  | none => modJob s1 j.ref fun j => { j with
      fitted := some r.envelopePart, counts := { j.counts with envelope := j.counts.envelope + 1 } }

/-- The inbox that does not hold the newest complete, unmerged delivery. -/
def inboxFor (s : State) : Fin 2 := if s.world.newestInbox = some 0 then 1 else 0

/-- An entry of an inbox, 128 B. -/
def inboxEntry (key : BitVec 20) (mask : BitVec 512) : List Byte := leBytes 4 key.toNat ++ zeros 60 ++ leBytes 64 mask.toNat

/-- A completed brick of a job, which delivers it at its end boundary: its key in the wick's register `first` and its mask in
the 16 after it. -/
def opInboxBrick (s : State) (p : Phys) (w : Nat) (j : Job) (first : Nat) : State :=
  let k := wickGet (lant s p) w
  let reg := fun (i : Nat) => leBytes 4 (regGet k (first + i)).toNat
  let key := BitVec.ofNat 20 (leNat (reg 0))
  let mask := BitVec.ofNat 512 (leNat ((List.range 16).flatMap fun i => reg (1 + i)))
  if j.bricks.length < 4096 then modJob s j.ref fun j => { j with bricks := j.bricks ++ [(key, mask)] }
  else
    let s2 := modJob s j.ref fun j => { j with
      inboxLog := true, counts := { j.counts with inboxOver := j.counts.inboxOver + 1 } }
    if j.inboxLog then s2 else raiseFor s2 .inferInboxFull [] j.ref

/-- A payload row of `lines` 64 B lines, in registers from `first` on. -/
def payRow (k : Wick) (lines first : Nat) : List Byte :=
  (List.range (16 * lines)).flatMap fun i => leBytes 4 (regGet k (first + i)).toNat

/-- Top-k of a tensor: the element in a register is offered with its flat index and its key, and with the payload row that stands after it
(log 121). A NaN is not offered, a clamp is counted (R267). -/
def opOffer (s : State) (p : Phys) (w : Nat) (d : TopKDecl) (pos : List Nat) (reg : Nat) : State :=
  let dim := fun (i : Nat) => nth d.dims i 1
  let id := ((nth pos 0 0 * dim 1 + nth pos 1 0) * dim 2 + nth pos 2 0) * dim 3 + nth pos 3 0
  let wick := wickGet (lant s p) w
  let code := (regGet wick reg).toNat % 2 ^ elemBits d.type
  match topKInt d.type d.shift code with
  | none => s
  | some v =>
    let k := topKKey v d.largest
    countRange (pushOffer s p ⟨BitVec.ofNat 32 id, k.1, payRow wick (activeCtx (lant s p)).beacon.row (reg + 1), []⟩) p (b2n k.2)

/-- An entry that the microcode formed: ID, score and payload row in consecutive registers. -/
def opOfferRaw (s : State) (p : Phys) (w first : Nat) : State :=
  let k := wickGet (lant s p) w
  pushOffer s p ⟨regGet k first, (regGet k (first + 1)).toNat, payRow k (activeCtx (lant s p)).beacon.row (first + 2), []⟩

end Sys2Proof.Machine
end

