-- ==== Sys2Proof/Machine/Loads.lean ====
section
/-! DEFINITION. Loading plan images, weight sets and recipes (R84 to R92, R106, R143 to R145, R175, R196, R197, R214, R237,
R240, R249, R258 to R260, R264, R293, R398, R412, R419, R420, R432, R433, R443). -/

namespace Sys2Proof.Machine

open Sys2Proof

/-! ## Plan images: the format row of R92 -/

def inRange (lo hi v : Nat) : Bool := lo ≤ v && v ≤ hi

def headerOk (img : PlanImage) : Bool :=
  img.magic == 0x4E41_4C50 && img.format == 1 && img.hdrSize == 0x100 && inRange 0x100 0x0400_0000 img.imageSize
    && img.planId != 0 && img.planId != 0xFFFF_FFFF && inRange 25 800 img.slotLen && inRange 1 256 img.slotCount
    && inRange 1 32 img.reqActive && img.memDies.toNat < 16 && img.partition != 0 && img.flags.toNat < 4
    && inRange 1 16 img.stageMaps.length && img.freeWins.length ≤ 32 && img.cisRegions ≤ 8
    && img.regions.length - img.cisRegions ≤ 8
    && img.offsets.all (fun o => o % 64 == 0) && (img.robot.toNat < 4 || img.robot == 0xFF) && img.reservedZero
    && img.slots.length == img.slotCount && img.workCycles == sumNat (img.slots.map (·.slotWork))

/-- R85. -/
def setOk (img : PlanImage) : Bool := img.lanternSet.toNat < 2 ^ img.reqActive

/-- Length of the body: BODY_OFF is the last of the seven table offsets (R84). -/
def bodyBytes (img : PlanImage) : Nat := img.imageSize - nth img.offsets 6 0

/-- R86, and R237 for an OUTPUT slot. The control stream lies within the body. -/
def slotOk (img : PlanImage) (e : SlotEntry) : Bool :=
  e.stageMap < img.stageMaps.length && e.context < 4 && e.reservedZero && e.slotWork ≤ img.slotLen * 10000
    && e.ctrlOff + e.ctrlLen ≤ bodyBytes img
    && (if e.output then
          img.publishes && e.confirmCycle < e.slotWork && e.confirmCycle + 16384 + 150000 ≤ img.slotLen * 10000
        else e.confirmCycle == 0)

/-- R88: cistern entries first. -/
def regionsOk (img : PlanImage) : Bool :=
  img.regions.all (fun r => r.kindOk && r.reservedZero) && (img.regions.take img.cisRegions).all (fun r => !r.isDram)
    && (img.regions.drop img.cisRegions).all (·.isDram)

/-- R89: a window lies in its slot after SLOT_WORK, on lanterns of the set, in a slot without SAFETY_RELEVANT. -/
def freeWinOk (img : PlanImage) (w : FreeWin) : Bool :=
  let e := img.slotOf w.slot
  w.reservedZero && w.slot < img.slotCount && !e.safetyRelevant && e.slotWork ≤ w.startUs * 1000
    && w.startUs + 20 * w.slices ≤ img.slotLen * 10 && w.mask &&& ~~~ img.lanternSet == 0

/-- R175. -/
def cascadeOk (c : CascadeCfg) : Bool :=
  inRange 1 64 c.capGn && inRange 1 64 c.capIk && inRange 1 64 c.capTs && inRange 8 24 c.tauShift
    && inRange 8 24 c.epsGn && inRange 8 24 c.epsTs && inRange 1 256 c.epsIk && inRange 1 65535 c.wSm
    && c.wCl ≤ 65535 && c.wGo ≤ 65535 && inRange 4 20 c.muShift && inRange 2 20 c.lambdaSh
    && -8 ≤ c.rhoExp && c.rhoExp ≤ 8 && c.tsMargin ≤ 16 && inRange 1 8 c.stall

/-- R166. DESIGN CHOICE (log 130): an image with a context whose planned rate lies outside the limits, whether or not it samples,
is refused with reason 0x01, of which R166 does not speak. -/
def samplerOk (c : CtxCfg) : Bool := 1 ≤ c.sampP && c.sampP ≤ 8

/-- The sizes of a context: 64 KiB of configuration and 256 instructions for each of 64 wicks (R21, R27). -/
def storeOk (c : CtxCfg) : Bool := c.store.length ≤ 65536 && c.code.all fun e => e.1 < 64 * 256

/-- A stretch of memory lies in one region that the image declares. -/
def inRegion (img : PlanImage) (isDram : Bool) (base len : Nat) : Bool :=
  img.regions.any fun r => r.isDram == isDram && r.base ≤ base && base + len ≤ r.base + 4096 * r.size4k

/-- A fusion image declares room for the world's structures (R106, R230): for each of its windows a master and, where it
writes them, two speculation masters. DESIGN CHOICE (log 107): an image that does not is refused with reason 0x01. -/
def placesOk (img : PlanImage) : Bool :=
  let p := img.body.places
  let win := fun (a : Nat) => inRegion img false a 7372800
  !img.fuses ||
    (inRegion img false p.coarseDist (2 ^ 24) && inRegion img false p.coarseState (2 ^ 23) && inRegion img false p.directory (2 ^ 22)
      && inRegion img false p.hot 0 && inRegion img false p.probe (2 ^ 18) && inRegion img true p.payload (2 ^ 29)
      && inRange 1 4 p.masters.length && p.masters.all win
      && (!img.specMasters || (List.range p.masters.length).all fun i => win (nth p.spec i 0) && win (nth p.spec (i + 4) 0)))

/-- R214. -/
def beaconOk (b : BeaconCfg) : Bool := inRange 1 64 b.k && b.row ≤ 4 && b.lambda ≤ 30 && b.redundant ≤ 1

/-- R196: at most one lantern of slot 0 of a publishing image carries the ripple bit. -/
def routeOk (img : PlanImage) : Bool :=
  inRange 1 254 img.routePasses && (!img.publishes ||
    (((maskLogical img.lanternSet).filter fun n => (img.stageSet 0 n).getLsbD 1).length ≤ 1))

/-- Every number that an operator gives by axis lies in a range. -/
def axesIn (lo hi : Nat) (xs : List Nat) : Bool := xs.all (inRange lo hi)

/-- The limits of R249 and R267 on one operator; `other` is no operator of the set. -/
def opOk (o : OpDecl) : Bool :=
  let tensor := o.dims.length ≤ 4 && nth o.dims 0 1 ≤ 4 && nth o.dims 1 1 ≤ 4096 && nth o.dims 2 1 ≤ 2048
    && nth o.dims 3 1 ≤ 2048
  let extent := fun (i : Nat) => nth o.dilation i 1 * (nth o.kernel i 1 - 1) + 1
  let padded := (List.range o.padding.length).all fun i => nth o.padding i 0 ≤ extent i - 1
  let conv := axesIn 1 4 o.stride && axesIn 1 8 o.dilation && padded
  tensor && match o.kind with
  | .conv2d => axesIn 1 11 o.kernel && conv
  | .conv1d => axesIn 1 31 o.kernel && conv
  | .fullyConnected => o.inputs ≤ 16384 && o.outputs ≤ 16384
  | .attention => o.tokens ≤ 1024 && inRange 1 16 o.heads && inRange 16 128 o.headSize && o.headSize % 16 == 0
  | .layerNorm => o.elements ≤ 4096
  | .pooling => axesIn 1 8 o.kernel && axesIn 1 8 o.stride
  | .elementwise => o.types.all fun t => some t == o.types.head?
  | .resize => axesIn 1 8 o.factor
  | .activation => o.slope == 0 || inRange 1 8 o.slope
  | .softmax => o.elements ≤ 4096
  | .topK => inRange 1 64 o.k && o.elements ≤ 0xFFFF_FFFF
  | .other => true

/-- A group image (R381): at most 32,768 candidates for each lantern in a slot, and a lag of 1 to 4 slots. -/
def groupOkIn (img : PlanImage) (g : GroupCfg) : Bool :=
  inRange 1 4 g.lag && img.body.contexts.all fun c => candCount c ≤ 32768

/-- The input of a top-k (R249, R267): at most four dimensions, whose flat indices are 32-bit IDs. -/
def topKOk (d : TopKDecl) : Bool := d.dims.length ≤ 4 && d.dims.foldl (· * ·) 1 ≤ 0xFFFF_FFFF

/-- The conditions that refuse an image with reason 0x01. -/
def formatOk (img : PlanImage) : Bool :=
  headerOk img && setOk img && img.slots.all (slotOk img) && regionsOk img && img.freeWins.all (freeWinOk img)
    && img.body.contexts.all (fun c => cascadeOk c.cascade && beaconOk c.beacon && samplerOk c && storeOk c) && placesOk img && routeOk img
    && img.ops.all opOk && img.group.all (groupOkIn img) && img.body.contexts.all fun c => c.topKs.all topKOk

/-- R43, R87: a stage the device does not have. -/
def stagesOk (img : PlanImage) : Bool :=
  !img.trains && img.stageMaps.all fun m => m.all fun w => w.toNat < 4096

def regionPlaced (s : State) (r : Region) : Bool := placed s r.isDram r.base (r.size4k * 4096)

/-- The period that `PLAN_LOAD` compares with: in force, or written and not yet in force. -/
def periodOk (s : State) (img : PlanImage) : Bool := img.slotLen == s.grid.period || img.slotLen == s.grid.regPeriod

/-- The `PLAN_LOAD` rows of R92 in their order, after R412: the first that fails. -/
def loadRefusal (s : State) (b : PlanBlob) (len : Nat) (pid : W32) : Option (Status × Nat) :=
  let img := b.img
  if (ownerKey s).isNone then some (.sealFail, 0)
  else if len < 0x100 || len != img.imageSize || pid != img.planId then some (.planMismatch, 0x0C)
  else if img.ownerKeyId != ownerKeyId s || !b.sigOk || !b.digestOk then some (.sealFail, 0)
  else if !formatOk img then some (.planMismatch, 0x01)
  else if !(img.body.stageVers.all fun v => Config.stageVersion v.1 v.2) || img.ops.any (fun o => o.kind == .other) then some (.planMismatch, 0x02)
  else if !stagesOk img then some (.planMismatch, 0x03)
  else if activeCount s < img.reqActive then some (.planMismatch, 0x04)
  else if img.memDies.toNat != s.mem.present.toNat then some (.planMismatch, 0x05)
  else if !periodOk s img then some (.planMismatch, 0x06)
  else if 64 ≤ s.sluice.images.length && (imageOf s img.planId).isNone then some (.planMismatch, 0x07)
  else if !img.regions.all (regionPlaced s) then some (.planMismatch, 0x08)
  else none

def fillPlace (f : Fill) : Place := if f.isDram then .dram f.base else .cistern f.base

/-- Places bytes in the cistern or in DRAM, waking what they reach (R58). -/
def placeFill (s : State) (f : Fill) : State :=
  placeWrite (wakeRange s (fillPlace f) f.bytes.length) (fillPlace f) f.bytes

/-- A load fills regions and keeps backing copies of them in place of its earlier ones (R72). -/
def fillRegions (s : State) (owner : FillOwner) (fs : List Fill) : State :=
  let s1 := fs.foldl placeFill s
  { s1 with mem := { s1.mem with
    backing := (s1.mem.backing.filter fun b => b.owner != owner) ++ fs.map fun f => ⟨owner, f⟩ } }

/-- A fill lies in a `LOADED` region of an image. -/
def inLoaded (img : PlanImage) (f : Fill) : Bool :=
  img.regions.any fun r =>
    r.loaded && r.isDram == f.isDram && r.base ≤ f.base && f.base + f.bytes.length ≤ r.base + 4096 * r.size4k

/-- What an image puts into its `LOADED` regions. -/
def imageFills (img : PlanImage) : List Fill := img.body.fills.filter (inLoaded img)

/-- What a recipe puts into the `LOADED` regions of the images that are loaded. -/
def recipeFills (s : State) (r : Recipe) : List Fill :=
  r.fills.filter fun f => s.sluice.images.any fun e => inLoaded e.2 f

/-- The tables of the newest recipe that lie in `LOADED` regions and are not there yet: an image that declares their region was loaded
after the recipe, or after a relight that discarded it (R104). -/
def stageRecipe (s : State) : State :=
  match s.sluice.nextRec.or s.sluice.recipe with
  | none => s
  | some r =>
    let missing := ((recipeFills s r).map fun f => (⟨.recipe, f⟩ : Backing)).filter fun b => !s.mem.backing.contains b
    let s1 := missing.foldl (fun s b => placeFill s b.fill) s
    { s1 with mem := { s1.mem with backing := s1.mem.backing ++ missing } }

/-- A loaded image replaces one of the same PLAN_ID for jobs dispatched from then on (R91); M5 is extended (R415). DESIGN CHOICE
(log 147): its `LOADED` regions change at once, under jobs that still run on the old image. -/
def installPlan (s : State) (img : PlanImage) : State :=
  let s1 := extend s 5 (Config.sm3 (leBytes 4 img.planId.toNat ++ digestBytes img.bodyDigest))
  stageRecipe (fillRegions { s1 with sluice := { s1.sluice with images := s1.sluice.images.put img.planId.toNat img } }
    (.plan img.planId) (imageFills img))

def planLoad (s : State) (d : DescEntry) (b : PlanBlob) (len : Nat) (pid : W32) : State :=
  match loadRefusal s b len pid with
  | some (st, det) => finish s d.ref st det
  | none => finish (installPlan s b.img) d.ref .ok 0

/-- `PLAN_LOAD` (R92). -/
def execPlanLoad (ring : RingId) (blob : PlanBlob) (s : State) : Out :=
  live s fun s => runHead s ring DescBody.isPlanLoad fun s d =>
    match d.desc.body with
    | .planLoad _ len pid => planLoad s d { blob with bytes := srcBytes s d blob.bytes } len pid
    | _ => s

/-! ## Blobs (R419, R420) -/

/-- Steps 1 and 2 of R420, after R412. -/
def blobRefusal (s : State) (b : Blob) (len : Nat) (idOk : Bool) : Option (Status × Nat) :=
  let h := decodeBlob b.bytes
  if (ownerKey s).isNone then some (.sealFail, 0)
  else if len < 0x100 || len != h.blobSize || !idOk then some (.planMismatch, 0x0C)
  else if h.ownerKeyId != ownerKeyId s || !b.sigOk || !b.digestOk then some (.sealFail, 0)
  else none

def weightHdrOk (h : BlobHdr) : Bool :=
  h.magic == 0x5448_4757 && h.format == 1 && h.hdrSize == 0x100 && inRange 0x100 (2 ^ 28 + 256) h.blobSize
    && h.weightId != 0 && h.weightId != 0xFFFF_FFFF && h.placeKind.toNat < 2 && h.placeBase % 4096 == 0
    && h.reservedZero

def recipeHdrOk (h : BlobHdr) : Bool :=
  h.magic == 0x4550_4352 && h.format == 1 && h.hdrSize == 0x100 && inRange 0x100 (2 ^ 22) h.blobSize
    && h.weightId == 0 && h.placeKind == 0xFF && h.placeBase == 0 && h.layoutDigest == 0 && h.reservedZero

/-! ## Weight sets (R258 to R260) -/

def bodyLen (h : BlobHdr) : Nat := h.blobSize - 256

def setsMeet (a b : BlobHdr) : Bool :=
  a.placeKind == b.placeKind && a.placeBase < b.placeBase + bodyLen b && b.placeBase < a.placeBase + bodyLen a

/-- R259. -/
def placeRefusal (s : State) (h : BlobHdr) : Option Nat :=
  if 32 ≤ s.sluice.weights.length && (s.sluice.weights.find h.weightId.toNat).isNone then some 0x07
  else if !placed s (h.placeKind == 1) h.placeBase (bodyLen h)
      || s.sluice.weights.any fun e => e.1 != h.weightId.toNat && setsMeet e.2.hdr h then some 0x08
  else none

/-- The replacements of a set that wait behind the load `own`: those whose loads still execute (R260). -/
def waitingSets (s : State) (own : JobRef) (id : W32) : List (List Byte × RingId × W32) :=
  ((s.sluice.weights.find id.toNat).map fun w => w.next.filter fun x =>
    (⟨x.2.1, x.2.2⟩ : JobRef) != own && (findDesc s ⟨x.2.1, x.2.2⟩).any fun d => d.stage == .executing).getD []

/-- Writes a set to its placement, installs it, extends M6 and completes the load. -/
def installWeights (s : State) (d : DescEntry) (bytes : List Byte) : State :=
  let h := decodeBlob bytes
  let body := slice bytes 256 (bodyLen h)
  let s0 := if h.placeKind == 1 then placeWrite (fillRegions s (.weights h.weightId) []) (.dram h.placeBase) body
    else fillRegions s (.weights h.weightId) [⟨false, h.placeBase, body⟩]
  let s1 := extend s0 6 (Config.sm3 (leBytes 4 h.weightId.toNat ++ digestBytes h.bodyDigest))
  finish { s1 with sluice := { s1.sluice with
    weights := s1.sluice.weights.put h.weightId.toNat ⟨h, waitingSets s d.ref h.weightId, s1.pwr.ticks⟩ } } d.ref .ok 0

def weightsLoad (s : State) (d : DescEntry) (b : Blob) (len : Nat) (id : W32) : State :=
  let h := decodeBlob b.bytes
  match blobRefusal s b len (id == h.weightId) with
  | some (st, det) => finish s d.ref st det
  | none =>
    if !weightHdrOk h then finish s d.ref .planMismatch 0x01
    else match placeRefusal s h with
      | some r => finish s d.ref .planMismatch r
      | none =>
        match s.sluice.weights.find h.weightId.toNat with
        | none => installWeights s d b.bytes
        | some w => { s with sluice := { s.sluice with
            weights := s.sluice.weights.put h.weightId.toNat { w with next := waitingSets s d.ref id ++ [(b.bytes, d.ref.ring, d.ref.index)] } } }

/-- `WEIGHTS_LOAD` (R258, R260): a new set is written; a loaded one waits for the jobs dispatched on it. -/
def execWeightsLoad (ring : RingId) (blob : Blob) (s : State) : Out :=
  live s fun s => runHead s ring DescBody.isWeightsLoad fun s d =>
    match d.desc.body with
    | .weightsLoad _ len id => weightsLoad s d { blob with bytes := srcBytes s d blob.bytes } len id
    | _ => s

def usesWeights (id : W32) (img : PlanImage) : Bool := img.weights.any fun w => w.id == id

/-- The first replacement of a set whose load still executes. -/
def nextSet (s : State) (id : W32) : Option (DescEntry × List Byte) :=
  (s.sluice.weights.find id.toNat).bind fun w => w.next.findSome? fun x =>
    (findDesc s ⟨x.2.1, x.2.2⟩).bind fun d => if d.stage == .executing then some (d, x.1) else none

/-- `WEIGHTS_REPLACE_WRITE` (R260): once every job dispatched on the old set has ended. -/
def execWeightsReplaceWrite (id : W32) (s : State) : Out :=
  serve s fun s =>
    match nextSet s id with
    | some (d, bytes) => if s.jobs.any fun j => usesWeights id j.img then s else installWeights s d bytes
    | none => s

/-! ## Recipes (R106, R143 to R145, R197, R240, R293, R432, R433) -/

def worldOk (r : Recipe) : Bool :=
  (match r.volume with
   | none => true
   | some (_, x, y, z) => inRange 1 256 x && inRange 1 256 y && inRange 1 128 z)
    && inRange 1 65534 r.depthMin && inRange 1 65534 r.depthMax && r.depthMin < r.depthMax && r.confMin ≤ 255
    && r.selfFilter ≤ 50 && inRange 100 8000 r.syncTolUs && inRange 1 33 r.setTimeoutMs && inRange 1 63 r.wMax
    && inRange 1 r.wMax r.wOcc && r.hotSlots ≤ 16384 && r.margin16 ≤ 128 && r.margin16 % 8 == 0
    && r.inflate ≤ 32 && r.inflate % 4 == 0 && inRange 1 255 r.inferredTtl && inRange 10 500 r.trackGate
    && r.trackGrowth ≤ 20 && inRange 100 5000 r.vMaxObject && inRange 1 4 r.windows.length
    && r.windows.all fun o => [o.x, o.y, o.z].all fun v => (v / 20).den == 1

def checkParamsOk (r : Recipe) : Bool :=
  r.clearMin16 ≤ 512 && inRange r.clearMin16 1016 r.penalty16 && inRange 100 5000 r.vDynMax && 32 ≤ r.tMinMs
    && r.tMinMs < r.tMaxMs && r.tMaxMs ≤ 8192 && inRange 8 500 r.tailT0Ms && inRange 1 1024 r.goalTol16
    && r.wPath ≤ 65535 && r.wTime ≤ 65535 && r.wClear ≤ 65535
    && inRange 8 256 r.confirm16 && r.confirm16 % 8 == 0 && r.confirm16 < r.clearMin16
    && inRange 250 4000 r.spliceUs && r.spliceUs % 250 == 0

def gridOk (r : Recipe) : Bool :=
  r.routeOrigin.1 ≤ 127 && r.routeOrigin.2.1 ≤ 127 && r.routeOrigin.2.2 ≤ 63
    && inRange 1 64 r.routeN.1 && inRange 1 64 r.routeN.2.1 && inRange 1 48 r.routeN.2.2 && inRange 8 56 r.routeRadius
    && inRange 8 64 r.routeTick && r.routeTick % 8 == 0 && r.clearMin16 ≤ r.routeNear16 && r.routeNear16 ≤ 1008
    && r.routeCost ≤ 3 && r.partInflate ≤ 16

def jointOk (j : Joint) : Bool :=
  j.qMin < j.qMax && 0 < j.vMax && 0 < j.aMax && 0 < j.jMax && 0 < j.tauMax && 0 < j.aBrake && j.aBrake ≤ j.aMax && 0 < j.jBrake
    && j.jBrake ≤ j.jMax && 0 < j.sigmaMin && j.sigmaMin < j.sigmaMax

def groupOk (js : List Joint) (g : LinkGroup) : Bool :=
  g.radius ≤ 56 && reachOk js g.reach && g.spheres.all fun x => x.offset + x.radius ≤ g.radius && reachOk js x.reach

def capsuleOk (c : Capsule) : Bool := c.radius ≤ 120 && c.length ≤ 800

def modelOk (m : RobotModel) : Bool :=
  inRange 1 12 m.joints.length && m.joints.all jointOk && m.groups.length ≤ 12 && m.groups.all (groupOk m.joints)
    && sumNat ((m.groups.filter fun g => !g.carried).map fun g => g.spheres.length) ≤ 96
    && sumNat ((m.groups.filter fun g => g.carried).map fun g => g.spheres.length) ≤ 32
    && m.capsules.length ≤ 40 && m.capsules.all capsuleOk
    && (List.range m.groups.length).all fun g =>
      (nth m.groups g default).carried || inRange 1 3 (m.capsules.filter fun c => c.group == g).length

/-- The default carried-part envelope, as spheres within R143 and R144 beside the groups of each robot model, and as up to 4
capsules (R264, R290, R293). -/
def envelopeOk (r : Recipe) : Bool :=
  (r.robots.all fun m => fitOk (partRoom m.2) m.2.joints r.envelopePart)
    && r.envelopeCaps.length ≤ 4 && r.envelopeCaps.all capsuleOk

/-- The trigger table (R443). -/
def triggersOk (ts : List (EventClass × List Nat)) : Bool :=
  ts.length ≤ 64 && (ts.map (·.1)).Nodup && ts.all fun t => t.2.length ≤ 12 && t.2.all fun o => o % 4 == 0

/-- The node table (before R399). -/
def nodesOk (ns : List NodeCfg) : Bool :=
  ns.length ≤ 32 && (ns.filter fun c => c.kind == .drive && c.controlled).length ≤ 16 && (ns.map (·.nodeId)).Nodup
    && ns.all fun c => c.nodeId != 0 && c.nodeId != 0xFFFF && inRange 1 12 c.axes && (c.kind == .drive || c.axes == 1)

/-- Bytes of a setpoint frame on the wire: the protocol bytes of R400, 22 of Ethernet header, tag and FCS, and 20 of
preamble and gap. -/
def wireBytes (axes : Nat) : Nat := 0x30 + 116 * axes + 8 + 22 + 20

/-- The setpoint frames of each port fit its window at its link rate (R398). DESIGN CHOICE (log 106): the rate is the
recipe's. -/
def windowFits (spWinUs : Nat) (r : Recipe) : Bool :=
  (List.finRange 2).all fun p =>
    let mine := r.nodes.filter fun c => c.kind == .drive && c.controlled && c.port == p
    sumNat (mine.map fun c => 8 * wireBytes c.axes) ≤ spWinUs * nth r.portMbps p.val 10000

/-- The limits that sconce checks. -/
def recipeOk (spWinUs : Nat) (r : Recipe) : Bool :=
  worldOk r && checkParamsOk r && gridOk r && r.robots.length ≤ 4 && r.robots.all (fun m => m.1 < 4 && modelOk m.2)
    && envelopeOk r && r.cameras.all (fun c => c.pattern != 0) && nodesOk r.nodes && triggersOk r.triggers
    && windowFits spWinUs r

/-! ## Defaults (R106, R145, R197, R240, R264, R286) -/

def mapJoints (r : Recipe) (f : Joint → Joint) : Recipe :=
  { r with robots := r.robots.map fun m => (m.1, { m.2 with joints := m.2.joints.map f }) }

/-- A parameter that the recipe does not carry takes its default; the origin of the default window is free (DESIGN CHOICE, log 139). -/
def fillDefault (r : Recipe) : Param → Recipe
  | .depthMin => { r with depthMin := 150 }
  | .depthMax => { r with depthMax := 4000 }
  | .confMin => { r with confMin := 0 }
  | .selfFilter => { r with selfFilter := 10 }
  | .syncTol => { r with syncTolUs := 2000 }
  | .setTimeout => { r with setTimeoutMs := 16 }
  | .wMax => { r with wMax := 16 }
  | .wOcc => { r with wOcc := 2 }
  | .hotSlots => { r with hotSlots := 8192 }
  | .resampleMargin => { r with margin16 := 32 }
  | .inferredInflate => { r with inflate := 8 }
  | .inferredTtl => { r with inferredTtl := 30 }
  | .trackGate => { r with trackGate := 50 }
  | .trackGrowth => { r with trackGrowth := 2 }
  | .vMaxObject => { r with vMaxObject := 1000 }
  | .clearMin => { r with clearMin16 := 80 }
  | .penaltyMargin => { r with penalty16 := 480 }
  | .vDynMax => { r with vDynMax := 2000 }
  | .tMin => { r with tMinMs := 64 }
  | .tMax => { r with tMaxMs := 4096 }
  | .tailT0 => { r with tailT0Ms := 40 }
  | .aBrake => mapJoints r fun j => { j with aBrake := j.aMax }
  | .jBrake => mapJoints r fun j => { j with jBrake := j.jMax }
  | .goalTol => { r with goalTol16 := 16 }
  | .wPath => { r with wPath := 16 }
  | .wTime => { r with wTime := 1 }
  | .wClear => { r with wClear := 64 }
  | .sigma => mapJoints r fun j =>
      { j with sigmaMin := unit16 (j.qMax - j.qMin) / 1000, sigmaMax := unit16 (j.qMax - j.qMin) / 10 }
  | .routeOrigin => { r with routeOrigin := (0, 0, 0) }
  | .routeN => { r with routeN := (40, 40, 24) }
  | .routeRadius => { r with routeRadius := 40 }
  | .routeTick => { r with routeTick := 32 }
  | .routeNear => { r with routeNear16 := 320 }
  | .routeCost => { r with routeCost := 1 }
  | .confirmMargin => { r with confirm16 := 48 }
  | .spliceLead => { r with spliceUs := 500 }
  | .partInflate => { r with partInflate := 4 }
  | .stopRelease => { r with stopRelease := .host }
  | .windowTable =>
    let o := Config.defaultWindow
    { r with windows := [⟨20 * o.1, 20 * o.2.1, 20 * o.2.2⟩] }

/-- The tables as sconce judges them. -/
def parsedTables (p : ParseResult) : Recipe := p.absent.foldl fillDefault p.tables

def recipeLoad (s : State) (d : DescEntry) (b : Blob) (len : Nat) : State :=
  let h := decodeBlob b.bytes
  match blobRefusal s b len true with
  | some (st, det) => finish s d.ref st det
  | none =>
    if !recipeHdrOk h then finish s d.ref .planMismatch 0x01
    else { s with sluice := { s.sluice with
      parse := s.sluice.parse ++ [⟨d.ref.ring, d.ref.index, h, s.pwr.ticks⟩] } }

/-- `RECIPE_LOAD` (R432, step 1): glow's parse of the body begins. -/
def execRecipeLoad (ring : RingId) (blob : Blob) (s : State) : Out :=
  live s fun s => runHead s ring DescBody.isRecipeLoad fun s d =>
    match d.desc.body with
    | .recipeLoad _ len => recipeLoad s d { blob with bytes := srcBytes s d blob.bytes } len
    | _ => s

def parseOn (s : State) (ring : RingId) : Option RecipeWork := s.sluice.parse.find? fun w => w.ring == ring

def dropParse (s : State) (ring : RingId) : State :=
  { s with sluice := { s.sluice with parse := s.sluice.parse.filter fun w => w.ring != ring } }

/-- The tables are installed, to take effect at the next boundary (R107), the regions that the recipe fills are filled
(R72, R88), and M4 is extended. -/
def installRecipe (s : State) (w : RecipeWork) (r : Recipe) : State :=
  let s1 := fillRegions (extend s 4 w.hdr.bodyDigest) .recipe (recipeFills s r)
  finish { s1 with
    ember := { s1.ember with triggers := r.triggers }
    sluice := { s1.sluice with nextRec := some { r with bodyDigest := w.hdr.bodyDigest } } } ⟨w.ring, w.index⟩ .ok 0

/-- `RECIPE_PARSE_DONE` (R432, steps 3 to 5). -/
def execRecipeParseDone (ring : RingId) (parse : ParseResult) (s : State) : Out :=
  live s fun s =>
    match parseOn s ring with
    | none => s
    | some w =>
      if !glowRuns s || s.safety.state == .halt then s
      else
        let s1 := dropParse s ring
        let ref : JobRef := ⟨w.ring, w.index⟩
        if !parse.digestOk then finish (raise s1 .glowParseMismatch []) ref .sealFail 0
        else if !recipeOk s.motion.spWin (parsedTables parse) then finish s1 ref .planMismatch 0x01
        else installRecipe s1 w (parsedTables parse)

/-- `GLOW_UNAVAILABLE` (R433): glow is not running 200 ms after the blob check. -/
def execGlowUnavailable (ring : RingId) (s : State) : Out :=
  live s fun s =>
    match parseOn s ring with
    | none => s
    | some w =>
      if glowRuns s || s.safety.state == .halt || s.pwr.ticks < w.started + 200 * ticksPerMs then s
      else
        let s1 := raise (dropParse s ring) .glowUnavailable []
        finish s1 ⟨w.ring, w.index⟩ .jobFault EventClass.glowUnavailable.number

end Sys2Proof.Machine
end

