-- ==== Sys2Proof/Machine/Boundary.lean ====
section
/-! DEFINITION. The slot boundary, first half (R82 step 1): what takes effect at a boundary, the ends of slots and jobs,
their deliveries and statuses, context saves, idle boundaries. -/

namespace Sys2Proof.Machine

open Sys2Proof

/-! ## What takes effect at a boundary (R107, R248, R378) -/

/-- A camera's port assignment, intrinsics and extrinsics. -/
def camKey (c : CamCfg) : W48 × Fin 4 × List Rat × List Rat × Vec3 :=
  (c.provId, c.port, [c.fx, c.fy, c.cx, c.cy], c.rot, c.trans)

/-- Whether the change of recipe clears the world (R107). -/
def changesWorld (old new : Recipe) : Bool :=
  let keys := fun (r : Recipe) => r.cameras.map camKey
  let covers := fun (a b : Recipe) => (keys a).all fun k => (keys b).contains k
  old.volume != new.volume || old.routeOrigin != new.routeOrigin || old.selfFilter != new.selfFilter
    || !covers old new || !covers new old

/-- The bytes of a world that is cleared: no directory entry is VALID, no coarse voxel SEEN, no probe voxel has WEIGHT. -/
def clearBytes (s : State) : State :=
  let p := s.world.places
  let blank : Coarse := ⟨false, true, false, false, -32767⟩
  let s1 := s.world.dir.foldl (fun s e => placeWrite s (.cistern (p.directory + 16 * e.1)) (zeros 16)) s
  let s2 := s.world.coarse.foldl (fun s e =>
    placeWrite (placeWrite s (.cistern (p.coarseState + e.1)) [coarseByte blank])
      (.cistern (p.coarseDist + 2 * e.1)) (leBytes 2 (uns 16 blank.dist))) s1
  s.world.probe.foldl (fun s e => placeWrite s (.cistern (p.probe + 4 * e.1)) (zeros 4)) s2

/-- A receiver runs no fusion: its cameras' sets and the runs on them are dropped (R386), and a fusion job that was ready waits again
(R336). DESIGN CHOICE (log 138): one that is running then ends as its slots end, and writes nothing more to the world. -/
def stopFusion (s : State) : State :=
  if isReceiver s then
    settleAll { s with
      world := { s.world with waiting := [], openSet := none }
      jobs := s.jobs.map fun j => { j with fusing := none } }
  else s

/-- A newly installed recipe takes effect. -/
def takeRecipe (s : State) : State :=
  match s.sluice.nextRec with
  | none => s
  | some r =>
    let clears := (s.sluice.recipe.map fun o => changesWorld o r).getD true
    let s1 := { s with
      sluice := { s.sluice with recipe := some r, nextRec := none }
      motion := { s.motion with nodes := Vector.ofFn (nodeKept s r.nodes) } }
    if clears then clearWorld (clearBytes s1) else s1

/-- Linked partner p of a map: the p-th other member in group order (R354). -/
def partnerOf (s : State) (m : GroupMap) (p : Nat) : Option Digest :=
  (m.members.filter (· != s.fuses.identity))[p]?

/-- The linked partners whose device a new map no longer holds (R359). -/
def lostPartners (s : State) (m : GroupMap) : List (Fin 7) :=
  (List.finRange 7).filter fun p => (partnerOf s s.klink.map p.val).any fun d => !m.members.contains d

/-- An accepted group map is installed (R354, R359, R371, R378, R379, R385). -/
def takeMap (s : State) : State :=
  match s.klink.pendMap with
  | none => s
  | some m =>
    let changed := (List.finRange 7).filter fun p => partnerOf s s.klink.map p.val != partnerOf s m p.val
    let s0 := (lostPartners s m).foldl (fun s p => releaseLocks s (Fin.ofNat 11 (4 + p.val))) s
    let s1 := changed.foldl bothEndsReset s0
    let s2 := dropLocks s1 fun o => 4 ≤ o.val
    let routes := routesOf s2 m
    let s3 := raise { s2 with klink := { s2.klink with
      map := m, pendMap := none, routes
      lostAt := s2.klink.lostAt.filter fun e => (m.members.findIdx? (· == e.1)).any fun g => (nth routes g none).isNone } }
      .groupMapChanged []
    if s3.jobs.any fun j => j.img.group.isSome then
      failNowWhere (raise s3 .groupJobRemap []) .groupJobRemap fun j => j.img.group.isSome
    else s3

/-- The waiting copies of group jobs that other members aborted complete at this boundary (R385). -/
def takeAborts (s : State) : State :=
  let due := s.descs.filter fun d => s.klink.peerAborts.any fun a => isCopy s a.1 a.2 d
  due.foldl (fun s d => finish s d.ref .jobFault EventClass.groupPeerAbort.number)
    { s with klink := { s.klink with peerAborts := [] } }

def takeSpec (s : State) : State := { s with sluice := { s.sluice with specEn := s.sluice.specReg } }

/-! ## How a job stands at a boundary -/

def lastSlot (j : Job) : Bool := j.kind == .work && j.img.slotCount ≤ j.slot + 1

/-- Whether the job ends at this boundary (R77 and the cases after R79, R347, R397, R405). -/
def endsNow (j : Job) : Bool :=
  match j.endAs with
  | .cancelled | .abort | .faultNow _ => true
  | .none | .fault _ => lastSlot j

/-- Status and detail of a job that ends (R211, R244, R280, R282, R347). -/
def endStatus (j : Job) : Status × Nat :=
  match j.endAs with
  | .cancelled | .abort => (.cancelled, 0)
  | .fault c | .faultNow c => (.jobFault, c.number)
  | .none =>
    let found := if j.restored then j.confirmedRow.isSome else j.published.isSome
    if !j.img.publishes || found then (.ok, 0)
    else if !j.restored && j.selected then (.noConfirmedPlan, 0)
    else if j.route.status == .noRoute then (.noRoute, 0)
    else (.infeasibleBest, 0)

/-- The range count of a job: its lanterns' counters, with saturation (R39). -/
def rangeSum (s : State) (j : Job) : W32 :=
  BitVec.ofNat 32 (min (sumNat ((jobPhys s j).map fun p => (lant s p).rangeCtr.toNat)) 0xFFFF_FFFF)

def Counts.zero : Counts :=
  { generated := 0, valid := 0, marks := Vector.replicate 7 0, dropped := 0, gn := 0, ik := 0, ts := 0, pivot := 0
    capped := 0, discarded := 0, noMeasure := 0, replaced := 0, withheld := 0, dups := 0, mismatch := 0, badId := 0
    envelope := 0, inboxOver := 0, inboxSup := 0, posted := 0 }

def Route.none : Route := ⟨.notSearched, 255, 0, 0, [], Option.none, Option.none, [], [], [], Option.none⟩

/-- A job that ends while its results are speculative reports none of them (R234). -/
def hideSpec (j : Job) : Job :=
  if j.spec then
    { j with counts := .zero, range := 0, route := .none, best := none, marksSeen := 0, confirmedRow := none
             published := none }
  else j

/-- The lanterns of an ended job are gated; with RETAIN_SLOTS = 0 their basins enter retention unless dispatched at this
boundary (R81). -/
def freeLanterns (s : State) (j : Job) : State :=
  (jobPhys s j).foldl (fun s p => modLant s p fun l => { l with job := none, gated := true, idle := some 0 }) s

/-! ## Deliveries (R140, R262, R265, R386) -/

/-- A completed fusion run: the first set of an era starts the tracks, each later one advances the epoch. The epoch it
produced, 0 for none. A run dispatched before a world clear is none of the runs after it (R107, log 127). -/
def endFusion (s : State) (j : Job) (set : FrameSet) : State × W32 :=
  let w := s.world
  let merged := j.inbox == some w.deliveries
  let w1 := { w with
    camsLast := set.frames.length
    newestInbox := if merged then none else w.newestInbox }
  if j.worldGen != w.clears then (s, 0)
  else if w.primed then
    let e := nextEpoch w.epoch
    let w2 := { w1 with changedPrev := w.changed, changed := [] }
    let s1 := setEpoch { s with world := w2 } e set.teNs
    (if isReceiver s then s1 else { s1 with klink := s1.klink.send (.world e) }, e)
  else ({ s with world := { w1 with primed := true, teNs := set.teNs } }, 0)

/-- The carried-part spheres delivered, and whether the envelope stands in for a fit with counted elements. -/
def deliverCarried (s : State) (j : Job) : State × Job :=
  match j.fitted, j.recipe with
  | some c, some r =>
    let counted := j.range != 0
    let part := if counted then r.envelopePart else c
    let counts := if counted then { j.counts with envelope := j.counts.envelope + 1 } else j.counts
    ({ s with world := { s.world with spheres := s.world.spheres.put j.img.robot.toNat part } }, { j with counts })
  | _, _ => (s, j)

/-- Whether a running fusion run is merging the newest delivery. -/
def merging (s : State) : Bool := s.jobs.any fun j => j.fusing.isSome && j.inbox == some s.world.deliveries

/-- The delivery of a completion job becomes complete in the inbox that does not hold the newest one; an older one that no
run has merged is superseded. -/
def deliverInbox (s : State) (j : Job) : State × Job :=
  if !j.img.body.completes || j.img.fuses then (s, j)
  else
    let i := inboxFor s
    let old := s.world.newestInbox.isSome && !merging s
    let s0 := placeWrite s (.cistern (nth s.world.places.inboxes i.val 0)) (j.bricks.flatMap fun e => inboxEntry e.1 e.2)
    let w := s0.world
    let s1 := { s0 with world := { w with
      inboxes := w.inboxes.set i ⟨j.bricks.length, true⟩
      newestInbox := some i, deliveries := w.deliveries + 1
      superseded := w.superseded + b2n old } }
    (s1, if old then { j with counts := { j.counts with inboxSup := j.counts.inboxSup + 1 } } else j)

/-- The outputs of an inference job that completes `OK`; the seed set is posted with them. -/
def endInference (s : State) (j : Job) : State × Job :=
  let a := deliverCarried s j
  let b := deliverInbox a.1 a.2
  let s1 := { b.1 with sluice := { b.1.sluice with seedSets := b.1.sluice.seedSets.put j.seedSet ⟨j.solutions⟩ } }
  (matchSeeds s1 j.seedSet, b.2)

/-! ## Job end (R16, R77, R321) -/

/-- The bytes of the output tensors of a job that delivers any: what its transfers have brought to the hub (R97, R262), in
their order. DESIGN CHOICE (log 39): a byte that it has not sent is free. -/
def tensorBytes (s : State) (j : Job) (st : Status) : List Byte :=
  if st == .ok && j.img.infers then
    let sent := (s.mem.hubIn.filter fun h => h.1 == j.ref).flatMap (·.2)
    (List.range j.img.tensorLen).map fun i => (sent[i]?).getD (Config.unsentByte j.img.bodyDigest i)
  else []

/-- The result of a job: its record's fields, and its report with the tensors after it. -/
def jobResult (j : Job) (st : Status × Nat) (epoch : W32) (tensors : List Byte) : Result :=
  let quiet := st.1 == .cancelled
  { status := st.1, detail := BitVec.ofNat 8 st.2, epoch, restored := j.restored
    report := if quiet then none else some (reportBytes j st.1 epoch ++ tensors)
    length := if quiet then 0 else 512 + tensors.length }

/-- A job's tensors reach its host result buffer at its end boundary (R344), where the device may write for its ring (R331,
R333); the report before them waits for release. -/
def writeTensors (s : State) (r : JobRef) : State :=
  match findDesc s r with
  | some d =>
    match d.stage, resultBuf d.desc with
    | .done res, some (a, _) =>
      if 512 < res.length && hostReach s && (ringGet s r.ring).served && !(ringGet s r.ring).lost then
        hostWrite s (a + 512) ((resultBytes s d res).drop 512)
      else s
    | _, _ => s
  | none => s

/-- A group job that ends before its last slot tells the other members (R385). -/
def abortGroup (s : State) (j : Job) : State :=
  if lastSlot j then s else sendAbort s j.img j.desc.tag

/-- What transfers of a job have brought to the hub is none of a later job's (R269). -/
def dropHubIn (s : State) (r : JobRef) : State :=
  { s with mem := { s.mem with hubIn := s.mem.hubIn.filter fun h => h.1 != r } }

/-- A job ends with its status: deliveries, tokens and the record (R16, R262, R341). A fusion job that advanced no epoch reports 0
(R319). -/
def finishJob (s : State) (j : Job) : State :=
  let st := endStatus j
  let s := if st.1 == .ok then finishRun s j.ref else s
  let j0 := hideSpec (if st.1 == .cancelled then j else { (if j.kind == .work then endSlot j else j) with range := rangeSum s j })
  let s0 := abortGroup (freeLanterns (delJob s j.ref) j) j
  let x := match j.fusing with
    | some set => if st.1 == Status.ok then endFusion s0 j0 set else (s0, 0)
    | none => (s0, if j.img.fuses then 0 else j0.epoch)
  let y := if st.1 == Status.ok && j.img.infers then endInference x.1 j0 else (x.1, j0)
  dropHubIn (writeTensors (complete y.1 j.ref (jobResult y.2 st x.2 (tensorBytes y.1 j st.1))) j.ref) j.ref

/-- An aborted speculation (R242, R350): the lanterns are released, the job waits for its WORLD token and keeps its
place; `resume` holds the state with which the aborted slot began. -/
def releaseAborted (s : State) (j : Job) : State :=
  let s1 := traceAdd s 7 j.ref (traceFlags true j.replayed j.restored) 0 j.slot 0 j.img.planId
  let s2 := freeLanterns (delJob s1 j.ref) j
  modDesc s2 j.ref fun e => { e with stage := .waiting, matched := e.matched &&& 0b1110 }

/-! ## Context saves (R236, R274, R275) -/

def ctxSize (seeds : Nat) : Nat := 7391040 + 320 * seeds

/-- The flows in the order of the walk. -/
def flowOrder (s : State) : List RingId :=
  (List.finRange 64).insertionSort fun a b =>
    decide ((s.sluice.prio.get a).toNat < (s.sluice.prio.get b).toNat
      ∨ ((s.sluice.prio.get a).toNat = (s.sluice.prio.get b).toNat ∧ a.val ≤ b.val)) = true

/-- Entries in the order of the walk. -/
def inFlowOrder (s : State) (p : DescEntry → Bool) : List JobRef :=
  (flowOrder s).flatMap fun r => (s.descs.filter fun d => d.ref.ring == r && p d).map (·.ref)

/-- The saves whose execution has begun and which have not been taken. -/
def dueSaves (s : State) : List JobRef :=
  inFlowOrder s fun d => d.stage == .executing && d.resume.isNone &&
    (match d.desc.body with
     | .contextSave .. => true
     | _ => false)

def notSaveable (img : PlanImage) : Bool := img.fuses || img.infers || img.group.isSome

/-- The target of a save as it stands between two of its slots: a running job, or an aborted speculation that is to run
again. -/
def saveTarget (s : State) (t : JobRef) : Option Job :=
  match findJob s t with
  | some j => some j
  | none => (findDesc s t).bind fun d => if d.stage == .waiting || d.stage == .ready then d.resume else none

/-- Takes a save: the job's next slot is a save slot. -/
def takeSave (s : State) (own t : JobRef) (j : Job) : State :=
  let k := { j with kind := .save, stream := [], saver := some own, spec := false }
  if (findJob s t).isSome then modJob s t fun _ => k
  else
    let s1 := { s with jobs := s.jobs ++ [k] }
    let s2 := modDesc s1 t fun e => { e with stage := .running }
    (jobPhys s2 k).foldl (fun s p => modLant s p fun l => { l with job := some t, idle := none }) s2

/-- The work partitions of the dispatched jobs. -/
def partsBusy (s : State) : BitVec 8 := s.jobs.foldl (fun m j => m ||| j.img.partition) 0

/-- One due save at this boundary. A save of an aborted speculation needs its lanterns and its partition free (R83). -/
def saveOne (s : State) (own : JobRef) : State :=
  match (findDesc s own).map fun d => d.desc.body with
  | some (DescBody.contextSave ring index _ len) =>
    match (targetRef ring index).bind fun t => (saveTarget s t).map fun j => (t, j) with
    | none => finish s own .cancelled 2
    | some (t, j) =>
      let waits := if (findJob s t).isSome then j.spec
        else !((jobPhys s j).all fun p => (lant s p).job.isNone) || (j.img.partition &&& partsBusy s) != 0
      if waits then s
      else if j.kind == .save then finish s own .cancelled 2
      else if notSaveable j.img then finish s own .cancelled 3
      else if len < ctxSize (j.seeds.length + j.pool.length + j.spent.length) then finish s own .cancelled 4
      else takeSave s own t j
  | _ => s

/-- A save slot ends: the copy lies in DRAM and waits in the saver's entry for its buffer (R274). A job that was ended
otherwise in its save slot leaves the save with `JOB_ENDED`. -/
def endSave (s : State) (j : Job) : State :=
  match j.saver with
  | none => s
  | some own =>
    if j.endAs == .cancelled || (match j.endAs with | .faultNow _ => true | _ => false) then
      finish (finishJob s j) own .cancelled 2
    else
      let s1 := freeLanterns (delJob s j.ref) j
      modDesc s1 own fun e => { e with resume := some { j with kind := .work, saver := none, endAs := .none } }

/-! ## Slots end -/

/-- A slot in which the image declares an exchange sends the member's merged result, and keeps it as the member's own input
(R383, R384). DESIGN CHOICE (log 137): it leaves at the end of the slot. -/
def sendExchange (s : State) (j : Job) : State :=
  match j.img.group, j.member, j.kind with
  | some g, some m, .work =>
    if g.exchanges.any fun e => e.slot == j.slot then
      let own := (j.result.map (liveRows j)).getD .empty
      let tag : ExchTag := ⟨j.img.planId, j.desc.tag, j.slot, j.epoch, Fin.ofNat 8 m⟩
      modJob { s with klink := s.klink.send (.exchange tag own) } j.ref fun k =>
        { k with ownSent := (j.slot, own) :: k.ownSent }
    else s
  | _, _, _ => s

/-- A continuing job goes on to its next slot; a restore slot is followed by the saved next slot. -/
def nextSlot (j : Job) : Job :=
  let out : OutPhase := ⟨[], [], false, 0, none⟩
  match j.kind with
  | .restore => { j with kind := .work, out, stream := j.img.ctrlOf j.slot }
  | .work | .save => { endSlot j with slot := j.slot + 1, out, stream := j.img.ctrlOf (j.slot + 1), result := if j.img.publishes then none else j.result.map (liveRows j) }

/-- One job at a boundary: its end, its abort, its save slot's end, or its next slot. -/
def stepJob (s : State) (j : Job) : State :=
  if j.kind == .save then endSave s j
  else if j.endAs == .abort then releaseAborted s j
  else if endsNow j then finishJob s j
  else modJob s j.ref nextSlot

/-- The slot of a job is over: its lists have applied what they were offered (R215, R222), and its solves' last intervals have passed
(R173, R190). -/
def closeSlot (s : State) (j : Job) : State :=
  let s0 := (jobPhys s j).foldl (fun s p => closeEmpty (flushOffers s p) p j.ref) s
  let s1 := settleSolves s0 j.ref true
  ((findJob s1 j.ref).map (sendExchange s1)).getD s1

/-- Step 1 of R82: fusion runs before the other jobs, so that a token posted at this boundary is matched before step 3
(R341); an aborted speculation's WORLD token is matched anew (R242). -/
def endSlots (s : State) : State :=
  let s0 := s.jobs.foldl closeSlot s
  let s1 := (s0.jobs.filter fun j => j.fusing.isSome).foldl stepJob s0
  let s2 := (s0.jobs.filter fun j => j.fusing.isNone).foldl stepJob s1
  (dueSaves s2).foldl saveOne (matchWorld s2)

/-- Pending writes of `BASIN_POOL_MODE` and `PLAN_GRID` take effect at an idle boundary (R52, R80). -/
def idleApply (s : State) : State :=
  if !s.jobs.isEmpty then s
  else
    let g := s.grid
    { s with
      mem := { s.mem with compat := s.mem.poolReg, poolPend := false }
      grid := { g with period := g.regPeriod, retain := g.regRetain, pending := false } }

end Sys2Proof.Machine
end

