-- ==== Sys2Proof/Machine/Walk.lean ====
section
/-! DEFINITION. The slot boundary, second half (R82 steps 2 to 5): the dispatch walk with its refusals, holds and
reservations, speculative dispatch, the new job's state, slot begins, retention and power state. -/

namespace Sys2Proof.Machine

open Sys2Proof

/-! ## Refusals at dispatch (R342 step 1) -/

/-- A refusal: status, detail, and the S2 event that it logs. -/
abbrev Refused := Status × Nat × Option EventClass

def mismatch (reason : Nat) : Refused := (.planMismatch, reason, none)

/-- A refusal with `JOB_FAULT`, whose detail is the event's class number. -/
def faulted (cls : EventClass) (logs : Bool) : Refused := (.jobFault, cls.number, if logs then some cls else none)

def groupRefusal (s : State) (img : PlanImage) : Option Refused :=
  match img.group with
  | none => none
  | some g =>
    if mapSize s != g.size || s.klink.map.active.any fun n => n < img.reqActive then some (mismatch 0x04) else none

/-- A named weight set is loaded, with the layout and the placement that the image expects (R261). -/
def weightHeld (s : State) (w : WeightRef) : Bool :=
  match s.sluice.weights.find w.id.toNat with
  | none => false
  | some x =>
    x.hdr.layoutDigest == w.layout && (x.hdr.placeKind == 1) == w.isDram && x.hdr.placeBase == w.base

def weightRefusal (s : State) (img : PlanImage) : Option Refused :=
  if img.weights.all (weightHeld s) then none else some (mismatch 0x09)

def resultRefusal (d : DescEntry) (img : PlanImage) : Option Refused :=
  let len := ((resultBuf d.desc).map (·.2)).getD 0
  if img.infers && len < 512 + img.tensorLen then some (mismatch 0x0C) else none

def windowOfDesc (d : DescEntry) : Nat :=
  match d.desc.body with
  | .planRun _ _ _ _ win .. => win
  | _ => 0

/-- A job that names a window needs it in the table, and a world volume (R107, R129). DESIGN CHOICE (log 126): a window for
which the fusion image declares no master counts as absent from the table. A fusion or inference job names
window 0 where its descriptor leaves the field 0, and every recipe with a volume has that one. -/
def windowRefusal (s : State) (d : DescEntry) : Option Refused :=
  let win := if isRestore d then (d.ctx.map (·.window)).getD 0 else windowOfDesc d
  let no : Refused := (.refusedNoWorld, 0, none)
  match recipeOf s with
  | none => some no
  | some r =>
    if r.volume.isNone then some no
    else if r.windows.length ≤ win || s.world.places.masters.length ≤ win then some no
    else none

def staleRefusal (s : State) (img : PlanImage) : Option Refused :=
  if img.publishes && 100 * ticksPerMs < worldAge s then some (.noFreshWorld, 0, none) else none

def recoveryRefusal (s : State) (img : PlanImage) : Option Refused :=
  if img.publishes && s.sec.cfgRec then some (faulted .cfgRecoveryRefuse true) else none

def syncRefusal (s : State) (img : PlanImage) : Option Refused :=
  if img.publishes && s.motion.syncLost then some (faulted .timeSyncLost false) else none

/-- The robot still executes a handed-off trajectory. -/
def inMotion (s : State) (robot : Nat) : Bool :=
  ((s.motion.trajs.find robot).getD []).any fun t => decide ((asNs s : Rat) < trajEnd t)

/-- The node's joint state lies within 10 ms before this instant. -/
def jointFresh (s : State) (i : Fin 32) : Bool :=
  match (nodeGet s i).frame with
  | some f => f.timeNs ≤ asNs s && asNs s ≤ f.timeNs + 10000000
  | none => false

/-- The drive rules of R405: a dropped node before stale joint state. -/
def driveRefusal (s : State) (d : DescEntry) (img : PlanImage) : Option Refused :=
  if img.robot == 0xFF || isRestore d then none
  else
    let ds := drivesOf s img.robot.toNat
    if !ds.all fun x => (nodeGet s x.1).present then some (faulted .driveLost false)
    else if !inMotion s img.robot.toNat && !ds.all fun x => jointFresh s x.1 then some (faulted .jointStateStale true)
    else none

/-- The checks of R92 at dispatch, or those of R278. -/
def imageChecks (s : State) (d : DescEntry) : Option Refused :=
  match d.ctx with
  | some h => (restoreRefusal s h).map fun x => (x.1, x.2, none)
  | none =>
    match jobImage s d with
    | none => some (mismatch 0x0D)
    | some img => (imageRefusal s img (tokenGoal s d)).map mismatch

/-- The refusals of R342 in their order: the first that applies. -/
def dispatchRefusal (s : State) (d : DescEntry) : Option Refused :=
  match imageChecks s d, jobImage s d with
  | some r, _ => some r
  | none, none => some (mismatch 0x0D)
  | none, some img =>
    [groupRefusal s img, weightRefusal s img, resultRefusal d img, windowRefusal s d, staleRefusal s img,
      recoveryRefusal s img, syncRefusal s img, driveRefusal s d img].findSome? id

/-- A refused job completes at this boundary and runs nothing (R93); a refused group job tells the other members. -/
def refuseJob (s : State) (d : DescEntry) (r : Refused) : State :=
  let s1 := match r.2.2 with
    | some cls => raise s cls []
    | none => s
  let s2 := match jobImage s d with
    | some img => sendAbort s1 img d.desc.tag
    | none => s1
  finish s2 d.ref r.1 r.2.1

/-! ## Holds (R342 step 2) and waits -/

/-- A fusion run would overwrite the frames of an epoch that a running inference job reads (R256). -/
def fusionHeld (s : State) (img : PlanImage) : Bool :=
  img.fuses && s.world.primed &&
    (match s.world.buffers.get (Fin.ofNat 2 ((nextEpoch s.world.epoch).toNat % 2)) with
     | some e => s.jobs.any fun j => j.img.infers && j.epoch == e.1
     | none => false)

/-- An accepted load of a set that has not completed. -/
def loadsWeights (id : W32) (d : DescEntry) : Bool :=
  match d.desc.body with
  | .weightsLoad _ _ i => i == id && !d.stage.isDone
  | _ => false

/-- A named weight set is being replaced: from the boundary after a load of it was accepted (R260), also
while the load waits behind a `FENCE` (DEDUCED, log 143). -/
def weightsHeld (s : State) (img : PlanImage) : Bool :=
  img.weights.any fun w => (s.sluice.weights.find w.id.toNat).isSome && s.descs.any (loadsWeights w.id)

def diagHeld (s : State) (img : PlanImage) : Bool :=
  (img.publishes && admitHold s) || (maskPhys s img.lanternSet).any fun p => (lant s p).diagHold

def held (s : State) (img : PlanImage) : Bool := fusionHeld s img || weightsHeld s img || diagHeld s img

/-- A job that waits without a hold: a publishing one while BUILT is 0 (R301) or synchronisation is awaited after a pilot wake (R470), and
a re-executed encrypted result whose epoch has not passed (R426). -/
def waits (s : State) (d : DescEntry) (img : PlanImage) : Bool :=
  (img.publishes && (!s.world.built || s.motion.awaitSync)) || (!isRestore d && d.notBefore == some s.world.epoch)

/-! ## Speculation (R232) -/

/-- Index of the job's first OUTPUT slot. -/
def firstOutput (img : PlanImage) : Option Nat := img.slots.findIdx? (·.output)

/-- The running fusion run's last slot begins with the job's first OUTPUT slot, and ends its work 1,024 cycles before
CONFIRM_CYCLE. -/
def fusionInStep (s : State) (img : PlanImage) : Bool :=
  match firstOutput img with
  | none => false
  | some k => s.jobs.any fun f =>
      f.fusing.isSome && f.endAs == .none && f.img.slotCount == f.slot + 1 + k
        && (f.img.slotOf (f.img.slotCount - 1)).slotWork + 1024 ≤ (img.slotOf k).confirmCycle

/-- Key of a speculation master by window and epoch parity. -/
def specKey (win : Nat) (e : W32) : Nat := win % 4 + 4 * (e.toNat % 2)

def mayspeculate (s : State) (d : DescEntry) : Bool :=
  let e := s.world.epoch
  d.stage == .waiting && s.sluice.specEn && d.desc.specOk && d.resume.isNone && !fenced s d && !fusionWaits s d
    && (tokensOf d &&& ~~~ d.matched) == 1 && minEpoch d == nextEpoch e
    && s.world.specHas.contains (specKey (windowOfDesc d) e, e)
    && (jobImage s d).any fun img => img.flags.getLsbD 0 && img.group.isNone && fusionInStep s img

/-! ## The new job (R15, R107, R147, R157, R233, R246, R279) -/

/-- The streamed trajectory sampled at an instant (R246). -/
def streamState (s : State) (robot axis ns : Nat) : Rat × Rat × Rat :=
  streamAxis ((s.motion.trajs.find robot).getD []) axis ns

/-- The measured state of one axis; an axis that no node carries has no stated value (log 28). -/
def measuredAxis (s : State) (robot axis : Nat) : Rat × Rat × Rat :=
  let absent : Rat × Rat × Rat := (Config.absentAxis (((recipeOf s).map (·.bodyDigest)).getD 0) robot axis, 0, 0)
  let carriers : List (NodeCfg × NodeState) := match recipeOf s with
    | some r => nodesIn s r fun c => c.kind == .drive && c.robot == robot && c.firstAxis ≤ axis && axis < c.firstAxis + c.axes
    | none => []
  (carriers.findSome? fun x => x.2.frame.map fun f =>
    let a := nth f.axes (axis - x.1.firstAxis) (0, 0, 0)
    (unit16 a.1, unit16 a.2.1, 0)).getD absent

def jointsOf (s : State) (img : PlanImage) : List Joint :=
  (((recipeOf s).bind fun r => r.robots.find? fun m => m.1 == img.robot.toNat).map (·.2.joints)).getD []

/-- The start state of R246, of R147 when the robot is at rest at dispatch. -/
def startState (s : State) (img : PlanImage) (spliceNs : Nat) : List (Rat × Rat × Rat) :=
  (List.range (jointsOf s img).length).map fun a =>
    if inMotion s img.robot.toNat then streamState s img.robot.toNat a spliceNs else measuredAxis s img.robot.toNat a

/-- End of the job's last slot plus SPLICE_LEAD, in 802.1AS ns. -/
def spliceTime (s : State) (img : PlanImage) (slot : Nat) : Nat :=
  asNs s + (img.slotCount - slot) * s.grid.period * 10000
    + 1000 * ((recipeOf s).map (·.spliceUs)).getD 0

def freshOut : OutPhase := ⟨[], [], false, 0, none⟩

/-- A copy from the cistern for a run: what lies in a bank group in retention reads zeros (R57). -/
def runCopy (s : State) (base len : Nat) : Ram :=
  (List.finRange 48).foldl (fun (r : Ram) g =>
    if (s.mem.groups.get g).asleep && groupMeets g.val base len then
      let lo := max base (groupBase g.val)
      let hi := min (base + len) (groupBase g.val + 0x0040_0000)
      r.writeN (lo - base) (zeros (hi - lo))
    else r) (cisternCopy s base len)

/-- Where the master that a run copies begins. -/
def masterAt (s : State) (win : Nat) (spec : Bool) : Nat :=
  let w := s.world
  if spec then nth w.places.spec (specKey win w.epoch) 0 else nth w.places.masters win 0

/-- The window and dynamic layer that a run copies, and the layer's T_e: the newest epoch's master, or the speculation
master. -/
def worldCopy (s : State) (win : Nat) (spec : Bool) : Ram × Nat :=
  let w := s.world
  (runCopy s (masterAt s win spec) masterLen, if spec then predictedNs w.teNs (w.tePrev.getD w.teNs) else w.teNs)

/-- Bytes of the route clearance master: one for each cell of the grid of the recipe in force (R200). -/
def routeLen (s : State) : Nat := ((recipeOf s).map gridCells).getD 0

/-- The run's copy of the route clearance master, which its slot 0 reads. -/
def routeCopy (s : State) : Ram := runCopy s s.world.places.route (routeLen s)

/-- A job from its first slot on. -/
def blankJob (s : State) (d : DescEntry) (img : PlanImage) : Job :=
  let js := jointsOf s img
  { ref := d.ref, img, desc := d.desc, slot := 0, kind := .work, spec := false, epoch := s.world.epoch
    replayed := d.replayed, restored := false, recipe := recipeOf s, planSeed := img.planSeed, window := windowOfDesc d
    seedSet := seedSetOf d, goal := none, start := [], spliceNs := 0, startNs := asNs s, stream := img.ctrlOf 0, endAs := .none, saver := none
    lists := [], result := none, lastResult := none, results := [], ownSent := [], exchRead := [], centres := [], win := .empty, winTe := 0, routeWin := routeCopy s, cands := []
    out := freshOut, published := none, confirmedRow := none, tried := false, selected := false, best := none
    marksSeen := 0, specBest := none, specMarks := 0, range := 0, counts := .zero, seeds := [], pool := [], spent := []
    sigma := js.map fun j => geoMean j.sigmaMin j.sigmaMax, sigmaT := 1 / 100, route := .none, solves := []
    solutions := [], carried := s.world.spheres.find img.robot.toNat, parts := s.world.spheres, worldGen := s.world.clears
    fitted := none, inbox := none, bricks := [], inboxLog := false
    badLogged := false, fusing := none, phase := 0, wasSpec := false, member := img.group.map fun _ => mapNum s }

/-- The plan seed: the descriptor's where it gives one (R156). -/
def seedOf (d : DescEntry) (img : PlanImage) : W64 :=
  match d.desc.body with
  | .planRun _ _ _ _ _ _ _ seed _ _ => if d.desc.seedGiven then seed else img.planSeed
  | _ => img.planSeed

/-- The job that this dispatch starts: anew, from an aborted slot (R242), or from a context (R279). DEDUCED from R91 (log
108): an aborted slot reruns on the image that is loaded at this dispatch. -/
def newJob (s : State) (d : DescEntry) (img : PlanImage) (spec : Bool) : Job :=
  let base := blankJob s d img
  match d.ctx with
  | some h =>
    { base with
      slot := h.nextSlot, kind := .restore, stream := [], epoch := h.epoch, restored := true, planSeed := h.planSeed
      window := h.window, start := h.start, spliceNs := h.spliceNs, lastResult := h.result, centres := h.centres
      win := Ram.empty.writeN 0 h.world, winTe := h.winTe, best := h.best, marksSeen := h.marksSeen, counts := h.counts
      seeds := h.seeds, pool := h.pool, spent := h.spent, sigma := h.sigma, sigmaT := h.sigmaT, route := h.route
      carried := h.carried, parts := h.parts }
  | none =>
    let old := d.resume.getD base
    let splice := spliceTime s img old.slot
    let copy := worldCopy s base.window spec
    let fusing := if img.fuses then s.world.waiting.head? else none
    { old with
      img, desc := d.desc, spec, wasSpec := spec, replayed := d.replayed, recipe := base.recipe, carried := base.carried, parts := base.parts
      worldGen := base.worldGen
      epoch := if spec then nextEpoch s.world.epoch else s.world.epoch
      planSeed := seedOf d img, goal := tokenGoal s d, start := startState s img splice, spliceNs := splice
      startNs := asNs s, stream := img.ctrlOf old.slot, win := copy.1, winTe := copy.2, routeWin := routeCopy s, endAs := old.endAs, fusing
      out := freshOut
      inbox := if img.fuses then s.world.newestInbox.map fun _ => s.world.deliveries else none
      bricks := if img.fuses then ((s.world.newestInbox.map (inboxEntries s)).getD []) else old.bricks
      specBest := none, specMarks := 0 }

/-! ## Dispatch (R342 step 3) -/

/-- A dispatched lantern. Its configuration stores and wick registers hold nothing of earlier jobs, which are no inputs of this one (R269,
log 80); control streams stage its image there (R90). -/
def claimLantern (r : JobRef) (l : Lantern) : Lantern :=
  { l with
    job := some r, rangeCtr := 0, counted := [], offers := [], fresh := [], idle := none
    ctx := 0, switches := [], contexts := Vector.replicate 4 blankCtx, wicks := [], rill := [] }

/-- What a fusion run takes at its dispatch: the oldest waiting set, its frame buffer, its image's places, its probe
regions and log marks (R106, R110, R120, R141, R256). -/
def beginFusion (s : State) (j : Job) : State :=
  match j.fusing, j.recipe with
  | some set, some r =>
    let w := s.world
    let e := nextEpoch w.epoch
    let k : Fin 2 := Fin.ofNat 2 (e.toNat % 2)
    settleAll (fillProbes { s with world := { w with
      waiting := w.waiting.drop 1, places := j.img.body.places, fullLogged := false, hotLogged := false
      trackLogged := false, buffers := if w.primed then w.buffers.set k (some (e, set)) else w.buffers } } r set)
  | _, _ => s

/-- The lanterns of a job whose basins take its window or its layer, by logical number (R15, R131, R200): those with the
sampler in some slot, and the route lantern. -/
def checkingLanterns (s : State) (j : Job) : List Phys :=
  (maskLogical j.img.lanternSet).filterMap fun n =>
    if ((List.range j.img.slotCount).any fun k => (j.img.stageSet k n).getLsbD 3)
      || (j.img.publishes && (j.img.stageSet 0 n).getLsbD 1) then physOf s n else none

/-- The lantern that searches the route (R196). -/
def isRouteLantern (j : Job) (n : Option Nat) : Bool := j.img.publishes && n.any fun n => (j.img.stageSet 0 n).getLsbD 1

/-- The run's copy reaches the checking basins, from basin-view address 0 on (R131, R134, R233), and the route lantern's
copy of the route clearance master its basin at the start of slot 0, where the image places it (R200). -/
def fillBasins (s : State) (j : Job) : State :=
  (checkingLanterns s j).foldl (fun s p => modLant s p fun l =>
    let b := l.basin.overlay j.win 0 masterLen
    { l with basin :=
      if j.slot == 0 && isRouteLantern j (logicalOf s p) then b.overlay j.routeWin j.img.body.routeAt (routeLen s) else b }) s

/-- A copy that met a bank group in retention is a plan access to it: logged, and the job fails at the end of its last slot
(R57). -/
def coldCopies (s : State) (j : Job) : State :=
  let cold := fun (a n : Nat) => rangeAsleep s (.cistern a) n
  let ls := checkingLanterns s j
  let win := !ls.isEmpty && !j.restored && cold (masterAt s j.window j.spec) masterLen
  let route := j.slot == 0 && (ls.any fun p => isRouteLantern j (logicalOf s p)) && cold s.world.places.route (routeLen s)
  let inbox := j.fusing.isSome && s.world.newestInbox.any fun i =>
    cold (nth s.world.places.inboxes i.val 0) (128 * (s.world.inboxes.get i).count)
  if win || route || inbox then retainedAccess s j.ref else s

/-- Dispatch of one job on its lanterns. -/
def dispatchJob (s : State) (d : DescEntry) (img : PlanImage) (spec : Bool) : State :=
  let j := newJob s d img spec
  let fl := traceFlags spec d.replayed j.restored
  let s1 := if spec then traceAdd s 1 d.ref fl 1 j.slot 0 img.planId else s
  let s2 := traceAdd s1 3 d.ref fl 0 j.slot 0 img.planId
  let s3 := modDesc s2 d.ref fun e => { e with stage := .running, begun := true, ever := true, resume := none }
  let s4 := dropHubIn { s3 with jobs := s3.jobs ++ [j] } d.ref
  let s5 := (jobPhys s4 j).foldl (fun s p => modLant s p (claimLantern d.ref)) s4
  beginFusion (coldCopies (fillBasins (busyNow s5) j) j) j

/-- Whether the job's lanterns, its partition and a release place are free, and no basin sleeps (R18, R83, R345). -/
def canDispatch (s : State) (reserved : List Phys) (d : DescEntry) (img : PlanImage) : Bool :=
  let ps := maskPhys s img.lanternSet
  (ps.all fun p => (lant s p).job.isNone && !reserved.contains p && (lant s p).retain == .awake)
    && (img.partition &&& partsBusy s) == 0 && placesOf s d.ref.ring < 1024

/-- One job of the walk, with whether it was ready when the walk began (log 42); the second component holds the reserved lanterns. DESIGN CHOICE (log 129): R18 names the moment at
which a job becomes ready; a basin that enters retention while the job is already ready is woken by the walk that passes
over the job. -/
def walkJob (w : State × List Phys) (x : JobRef × Bool) : State × List Phys :=
  let s := w.1
  match findDesc s x.1 with
  | none => w
  | some d =>
    let spec := mayspeculate s d
    if !(if x.2 then d.stage == .ready else spec) then w
    else match dispatchRefusal s d, jobImage s d with
      | some x, _ => (refuseJob s d x, w.2)
      | none, none => w
      | none, some img =>
        if waits s d img then w
        else
          let ps := maskPhys s img.lanternSet
          if held s img then (s, w.2 ++ ps)
          else if canDispatch s w.2 d img then (dispatchJob s d img spec, w.2)
          else (wakeLanterns s ps, w.2 ++ ps)

/-- Step 3 of R82: the jobs ready when it begins, and those that may run speculatively, in flow order. The sluice
dispatches nothing while detached or during a power failure (R333, R476). -/
def walk (s : State) : State :=
  if s.rings.detached || s.pwr.powerFail then s
  else
    (((inFlowOrder s fun d => d.desc.body.isJob && ringServes s d.ref.ring
        && (d.stage == .ready || (d.stage == .waiting && d.desc.specOk))).map fun r =>
      (r, (findDesc s r).any fun d => d.stage == .ready)).foldl walkJob (s, [])).1

/-! ## Slots begin (R77, R87), retention (R81), power state (R464, R465) -/

/-- A lantern of a job at the start of its slot. -/
def beginLantern (j : Job) (n : Option Nat) (l : Lantern) : Lantern :=
  let set := (n.map fun k => j.img.stageSet j.slot k).getD 0
  let l := if j.kind == .work then enterCtx l (Fin.ofNat 4 (j.img.slotOf j.slot).context) else l
  { l with
    cycle := 0, counted := [], offers := [], fresh := [], switches := []
    gated := j.kind == .work && set == 0 }

/-- A speculative job's state as its slot begins is kept for a rerun (R242). -/
def keepState (s : State) (j : Job) : State :=
  if j.spec then modDesc s j.ref fun e => { e with resume := some j } else s

def beginSlot (s : State) (j : Job) : State :=
  (jobPhys s j).foldl (fun s p => modLant (settleRill s p) p (beginLantern j (logicalOf s p))) (keepState s j)

/-- One more boundary without a job: at the RETAIN_SLOTS-th after the job's end or the wake the basin enters retention;
`idle` is the count that this boundary completes. -/
def idleLantern (retain : Nat) (l : Lantern) : Lantern :=
  match l.job, l.idle with
  | none, some n =>
    if retain ≤ n then { l with retain := if l.retain == .awake then .retained else l.retain, idle := none }
    else { l with idle := some (n + 1) }
  | _, _ => l

def allGated (s : State) : Bool := s.map.all fun p => (lant s p).gated

def allRetained (s : State) : Bool := s.map.all fun p => (lant s p).retain == .retained

/-- Run while a lantern is ungated; hold once the last basin is retained. -/
def settlePower (s : State) : State :=
  let st : PState := if !allGated s then .run
    else if s.jobs.isEmpty && allRetained s then .hold else s.pwr.pstate
  { s with pwr := { s.pwr with pstate := st } }

/-! ## The boundary -/

/-- Whether a lantern of a running job is late, with its job not between save or restore copies (R79). -/
def overrun (s : State) (late : List Phys) : Bool := late.any fun p => (jobOn s p).isSome

/-- Restarted doze idle time while a job is dispatched or the weir holds an entry (R466). -/
def noteBusy (s : State) : State := if s.jobs.isEmpty && weirUsed s == 0 then s else busyNow s

/-- The grid's next slot begins. -/
def stepGrid (s : State) : State :=
  { s with grid := { s.grid with count := s.grid.count + 1, base := s.grid.base + s.grid.period * 10000, sub := 0 } }

def boundary (s : State) : State :=
  let s1 := noteBusy (admitAll (stepGrid s))
  let s2 := idleApply (takeSpec (stopFusion (takeRecipe (endSlots (takeAborts (takeMap s1))))))
  let s3 := walk (drainWaits s2)
  let s4 := s3.jobs.foldl beginSlot s3
  let s5 := { s4 with lanterns := s4.lanterns.map (idleLantern s4.grid.retain) }
  noteBusy (settlePower s5)

/-- `SLOT_BOUNDARY` (R82): `late` are the lanterns that have not reached their last planned work cycle. -/
def execSlotBoundary (late : List Phys) (s : State) : Out :=
  serve s fun s =>
    if !s.grid.running then s
    else if overrun s late then raise s .slotOverrun []
    else boundary s

end Sys2Proof.Machine
end

