-- ==== Sys2Proof/Machine/Reflector.lean ====
section
/-! DEFINITION. The reflector's check of a published row (R290 to R293): capsules of the job's robot at the sample times
against the occupancy bitmap, the other arms, the conveyor bitmap and the bounds of the world volume. -/

namespace Sys2Proof.Machine

open Sys2Proof

/-! ## Distances of segments -/

/-- Squared distance of a point to a box. -/
def boxGapSq (x : Box) (p : Vec3) : Rat :=
  let gap := fun (lo hi v : Rat) => max 0 (max (lo - v) (v - hi))
  Vec3.normSq ⟨gap x.lo.x x.hi.x p.x, gap x.lo.y x.hi.y p.y, gap x.lo.z x.hi.z p.z⟩

/-- Squared distance of a segment to a box. Between the planes of the box's faces it is a quadratic of the segment's
parameter, so its least value lies at such a plane, at an end, or at a vertex. -/
def segBoxSq (x : Box) (a b : Vec3) : Rat :=
  let d := Vec3.sub b a
  let at_ := fun (t : Rat) => boxGapSq x (Vec3.add a (Vec3.scale t d))
  let axes := [(x.lo.x, x.hi.x, a.x, d.x), (x.lo.y, x.hi.y, a.y, d.y), (x.lo.z, x.hi.z, a.z, d.z)]
  let cuts := axes.flatMap fun e =>
    match slab e.1 e.2.1 e.2.2.1 e.2.2.2 with
    | some c => [clampRat 0 1 c.1, clampRat 0 1 c.2]
    | none => []
  let ts := ([0, 1] ++ cuts).insertionSort (· ≤ ·)
  let inner := (ts.zip (ts.drop 1)).map fun u =>
    let h := (u.2 - u.1) / 2
    let f0 := at_ u.1
    let f1 := at_ (u.1 + h)
    let f2 := at_ u.2
    let curve := f0 - 2 * f1 + f2
    if curve ≤ 0 then u.1 else clampRat u.1 u.2 (u.1 + h - h * (f2 - f0) / (2 * curve))
  ((ts ++ inner).map at_).foldl min (at_ 0)

/-- Squared distance of two segments: at an end of one, or where both are crossed by their common perpendicular. -/
def segSegSq (a b c d : Vec3) : Rat :=
  let u := Vec3.sub b a
  let v := Vec3.sub d c
  let w := Vec3.sub a c
  let uu := Vec3.dot u u
  let uv := Vec3.dot u v
  let vv := Vec3.dot v v
  let den := uu * vv - uv * uv
  let ends := min (min (segDistSq a c d) (segDistSq b c d)) (min (segDistSq c a b) (segDistSq d a b))
  if den = 0 then ends
  else
    let p := (uv * Vec3.dot v w - vv * Vec3.dot u w) / den
    let q := (uu * Vec3.dot v w - uv * Vec3.dot u w) / den
    if 0 ≤ p ∧ p ≤ 1 ∧ 0 ≤ q ∧ q ≤ 1 then
      min ends (Vec3.normSq (Vec3.add w (Vec3.sub (Vec3.scale p u) (Vec3.scale q v))))
    else ends

/-! ## Capsules (R290, R292) -/

/-- A capsule of a robot at an instant: its axis and its radius with all inflation, in mm. -/
structure Rod where
  a   : Vec3
  b   : Vec3
  rad : Rat
  deriving DecidableEq, Repr

def rodMeetsBox (x : Rod) (b : Box) : Bool := decide (segBoxSq b x.a x.b ≤ x.rad * x.rad)

def rodsMeet (x y : Rod) : Bool := decide (segSegSq x.a x.b y.a y.b ≤ (x.rad + y.rad) * (x.rad + y.rad))

/-- Capsules of the job's model, with those of the default carried-part envelope after them whenever the model holds
carried-part spheres. -/
def jobCapsules (j : Job) (r : Recipe) (m : RobotModel) : List Capsule :=
  ownCapsules m ++ (if (jobGroups j m).any fun g => g.carried && !g.spheres.isEmpty then r.envelopeCaps else [])

/-- Inflation of a candidate's capsule: `CLEAR_MIN` and the way it can move in 1 ms. -/
def inflation (r : Recipe) (m : RobotModel) (c : Capsule) : Rat :=
  (r.clearMin16 : Rat) / 16
    + sumRat ((List.range m.joints.length).map fun i => nth c.reach i 0 * unit16 (nth m.joints i default).vMax / 1000)

/-- The fp32 number nearest a value. -/
def round32 (v : Rat) : Rat := (if v < 0 then -1 else 1) * fp32.round (absRat v)

/-- An exact value as fp32 operations in an order that the spec leaves open give it: an fp32 number. DESIGN CHOICE (log 134): their rounding
amounts to at most 64 units in the last place of the largest of the numbers that enter it. -/
def near32 (size exact : Rat) (err : Int) : Rat := round32 (exact + (clampInt (-64) 64 err : Int) * ulpAt fp32 size)

/-- Joint values of a trajectory at `t` seconds after its start, by the spline of R146 and the tail of R151 in fp32. -/
def reflectedJoints (x : Traj) (m : RobotModel) (t : Rat) : List Rat :=
  let T := usSec x.tUs
  let tb := usSec x.tail
  (List.range m.joints.length).map fun i =>
    let p := nth x.ctrl i []
    let e := endState p T
    if t ≤ T then near32 (maxAbs p) (bodyAt p T t).1 (Config.splineErr p T t)
    else near32 (maxAbs (tailBez e tb)) (tailAt e tb (t - T)).1 (Config.tailErr e.1 e.2.1 e.2.2 tb (t - T))

/-- The rod of capsule `k` of a robot at joint values `q`. -/
def rodAt (r : Recipe) (robot k : Nat) (q : List Rat) (rad : Rat) : Rod :=
  let e := Config.capsuleEnds r.bodyDigest robot k q
  ⟨e.1, e.2, rad⟩

/-! ## What a rod may meet (R291, R292) -/

/-- Some part of a rod lies outside the world volume. -/
def outsideVolume (r : Recipe) (x : Rod) : Bool :=
  match r.volume with
  | none => true
  | some _ =>
    let v := volumeBox r
    let in_ := fun (p : Vec3) => inBox ⟨Vec3.add v.lo ⟨x.rad, x.rad, x.rad⟩, Vec3.sub v.hi ⟨x.rad, x.rad, x.rad⟩⟩ p
    !(in_ x.a && in_ x.b)

/-- A cell of the bitmap that no ray has cleared is occupied. -/
def cellTaken (s : State) (c : Nat × Nat × Nat) : Bool := (s.safety.bitmap.find (cellKey c)).getD true

def cellBox (r : Recipe) (c : Nat × Nat × Nat) : Box :=
  let lo := Vec3.add (volumeOf r).1 ⟨8 * c.1, 8 * c.2.1, 8 * c.2.2⟩
  ⟨lo, Vec3.add lo ⟨8, 8, 8⟩⟩

/-- Cells that a rod's bounding box meets. -/
def cellsNear (r : Recipe) (x : Rod) : List (Nat × Nat × Nat) :=
  let o := (volumeOf r).1
  let range := fun (a b lo : Rat) => ((gridRange 8 (min a b - x.rad - lo) (max a b + x.rad - lo)).filter (0 ≤ ·)).map Int.toNat
  (range x.a.x x.b.x o.x).flatMap fun i => (range x.a.y x.b.y o.y).flatMap fun j => (range x.a.z x.b.z o.z).map fun k => (i, j, k)

def meetsCells (s : State) (r : Recipe) (x : Rod) : Bool :=
  (cellsNear r x).any fun c => cellTaken s c && rodMeetsBox x (cellBox r c)

/-- The other arms, by their newest joint-state frames (R136, second row), or their envelope boxes. -/
def meetsArms (s : State) (r : Recipe) (robot now : Nat) (ns : Rat) (x : Rod) : Bool :=
  (r.robots.filter fun m => m.1 != robot).any fun m =>
    match armByStates s r now m ns with
    | some e => (List.range m.2.capsules.length).any fun k =>
        rodsMeet x (rodAt r m.1 k e.1 ((nth (ownCapsules m.2) k default).radius + e.2))
    | none => rodMeetsBox x m.2.envelope

/-- The conveyor cells, moved by what the encoder has counted since their capture and grown by `V_DYN_MAX` × 1 ms. Without
an encoder value newer than 10 ms they are grown by `V_DYN_MAX` × (t − capture time) (R405). -/
def meetsBelt (s : State) (r : Recipe) (now : Nat) (ns : Rat) (x : Rod) : Bool :=
  s.safety.belt.any fun e =>
    let b := cellBox r (e.key % 512, e.key / 512 % 512, e.key / 262144)
    let fresh := encoderFresh s r now
    let by_ := if fresh then Vec3.scale (unit16 ((encoderAt s r now).1 - e.pos)) r.beltDir else ⟨0, 0, 0⟩
    let g : Rat := if fresh then (r.vDynMax : Rat) / 1000 else (r.vDynMax : Rat) * (ns - e.ns) / 1000000000
    rodMeetsBox x ⟨Vec3.sub (Vec3.add b.lo by_) ⟨g, g, g⟩, Vec3.add (Vec3.add b.hi by_) ⟨g, g, g⟩⟩

def collides (s : State) (r : Recipe) (robot now : Nat) (ns : Rat) (x : Rod) : Bool :=
  outsideVolume r x || meetsCells s r x || meetsArms s r robot now ns x || meetsBelt s r now ns x

/-! ## The check -/

/-- The sample times that a check takes: one every 2 ms before the tail's end, and the end itself. -/
def sampleCount (t : Traj) : Nat := ((t.tUs + t.tail) / 2000).ceil.toNat + 1

/-- Time of sample `i`, in s after the start. -/
def sampleTime (t : Traj) (i : Nat) : Rat := min ((i : Rat) / 500) (usSec (t.tUs + t.tail))

/-- The first collision: the lowest sample index and at it the lowest capsule. -/
def firstHit (s : State) (j : Job) (r : Recipe) (m : RobotModel) (t : Traj) : Option (Nat × Nat) :=
  let caps := jobCapsules j r m
  (List.range (sampleCount t)).findSome? fun i =>
    let at_ := sampleTime t i
    let q := reflectedJoints t m at_
    ((List.range caps.length).find? fun k =>
      let c := nth caps k default
      collides s r t.robot (asNs s) (t.startNs + 1000000000 * at_) (rodAt r t.robot k q (c.radius + inflation r m c))).map
        fun k => (i, k)

/-- The tail's control points pass step 3 of R151 in fp32. -/
def tailPasses (t : Traj) (m : RobotModel) : Bool :=
  let tb := usSec t.tail
  (List.range m.joints.length).all fun i =>
    let e := endState (nth t.ctrl i []) (usSec t.tUs)
    let b := tailBez e tb
    tailWithin (nth m.joints i default)
      ((List.range 6).map fun k => near32 (maxAbs b) (nth b k 0) (Config.tailPointErr e.1 e.2.1 e.2.2 tb k)) tb

end Sys2Proof.Machine
end

