-- ==== Sys2Proof/Machine/Confirm.lean ====
section
/-! DEFINITION. The output phase of a slot (R237 to R247, R292 to R296, R402): the epoch check, the reflector's attempts
and verdicts, and the hand-off of a published trajectory. -/

namespace Sys2Proof.Machine

open Sys2Proof

/-! ## The epoch check (R238, R239, R242, R243) -/

/-- A fusion run in its last slot has done its work 1,024 cycles before the cycle of a check of the epoch that it
produces (R232). -/
def settleRun (s : State) : State :=
  match s.jobs.find? fun j => j.fusing.isSome && lastSlot j && j.endAs == .none with
  | some f => finishRun s f.ref
  | none => s

/-- T_e of the dynamic layer that belongs to the fused masters, where they are complete for epoch `e`: the newest
epoch's, or the running fusion's once it has written them. -/
def fusedTe (s : State) (e : W32) : Option Nat :=
  match s.jobs.find? fun j => j.fusing.isSome with
  | some f =>
    if !s.world.primed then none
    else if nextEpoch s.world.epoch == e && 3 ≤ f.phase then f.fusing.map (·.teNs)
    else if s.world.epoch == e && f.phase < 3 then some s.world.teNs
    else none
  | none => if s.world.epoch == e then some s.world.teNs else none

/-- A bounding-centre sample point: position, and time after the start in ns. -/
structure CheckPoint where
  pos : Vec3
  tNs : Rat
  deriving DecidableEq, Repr

/-- Stored mantissas of P_3 to P_11 of joint `k` in a payload row (R158). -/
def rowCtrl (row : List Byte) (k : Nat) : List Int :=
  (List.range 9).map fun i => sgn 16 (field row (16 + 18 * k + 2 * i) 2)

/-- The candidate that a payload row stands for. -/
def rowGeom (j : Job) (r : Recipe) (m : RobotModel) (row : List Byte) : CandGeom :=
  let T := usSec (field row 4 4)
  let js := List.range m.joints.length
  let ps := js.map (candPts j T (js.map (rowCtrl row)))
  ⟨T, (tailTime m.joints (ps.map fun p => endState p T) ((r.tailT0Ms : Rat) / 1000)).getD ((r.tailT0Ms : Rat) / 1000), ps⟩

/-- The job's used groups: those that hold spheres and move (R144, R160). -/
def usedGroups (j : Job) (m : RobotModel) : List Nat :=
  (List.range (jobGroups j m).length).filter fun k => !baseGroup (nth (jobGroups j m) k default)

/-- The bounding centres of every used group at the 48 waypoints (R238). -/
def checkPoints (j : Job) (r : Recipe) (m : RobotModel) (row : List Byte) : List CheckPoint :=
  let g := rowGeom j r m row
  (usedGroups j m).flatMap fun k => (List.range 48).map fun n =>
    ⟨groupCentre j r m k (wayPos g n), 1000000000 * wayTime g.T g.tb n⟩

/-- Predicted and fused value of one sample, in 1/16 mm. -/
abbrev CheckPair := Int × Int

/-- The smaller of the bracketing slices' values, in 1/16 mm. -/
def dynValue (m : Ram) (te : Nat) (o p : Vec3) (ns : Rat) : Option Int :=
  match (slicesAt te ns).filterMap (sampleSlice m o p) with
  | [] => none
  | v :: vs => some (16 * vs.foldl min v)

/-- Both samples of one bounding centre at one waypoint: static window and dynamic layer. -/
def checkPairs (j : Job) (fused : Ram) (te : Nat) (o : Vec3) (x : CheckPoint) : List CheckPair :=
  let ns := j.spliceNs + x.tNs
  let static := match sampleWindow j.win o x.pos, sampleWindow fused o x.pos with
    | some a, some b => [(a.1, b.1)]
    | _, _ => []
  let dyn := match dynValue j.win j.winTe o x.pos ns, dynValue fused te o x.pos ns with
    | some a, some b => [(a, b)]
    | _, _ => []
  static ++ dyn

/-- A pair that confirms: |Δ| within the margin and no sign change. -/
def pairOk (margin : Nat) (x : CheckPair) : Bool :=
  decide ((x.2 - x.1).natAbs ≤ margin) && (decide (0 ≤ x.1) == decide (0 ≤ x.2))

/-- A row is confirmed: it yields a sample, and every sample confirms. -/
def rowOk (margin : Nat) (xs : List CheckPair) : Bool := !xs.isEmpty && xs.all (pairOk margin)

/-- The samples of a row against another copy of the window and its layer. -/
def rowPairs (j : Job) (fused : Ram) (te : Nat) (row : BRow) : List CheckPair :=
  match j.recipe, jobModel j with
  | some r, some m =>
    match r.windows[j.window]? with
    | some o => (checkPoints j r m row.pay).flatMap (checkPairs j fused te o)
    | none => []
  | _, _ => []

def confirmMargin (j : Job) : Nat := (j.recipe.map (·.confirm16)).getD 0

/-- Verdict on one row. The fused source of a run that was dispatched speculatively is its window's master of its epoch,
once complete; of any other run it is the master that it copied (R239). -/
def rowVerdict (s : State) (j : Job) (row : BRow) : Bool :=
  if j.wasSpec && !j.restored then
    match fusedTe s j.epoch with
    | some te =>
      rowOk (confirmMargin j) (rowPairs j (cisternCopy s (nth s.world.places.masters j.window 0) masterLen) te row)
    | none => false
  else rowOk (confirmMargin j) (rowPairs j j.win j.winTe row)

/-- Rows 0 to 3 of the slot's beacon result (R238). -/
def topRows (j : Job) : List BRow := ((j.result.map (·.rows)).getD []).take 4

/-- The speculation aborts (R242) and its solves are interrupted (R192); a fault that already fails the job goes on to fail its rerun (R57, R282). -/
def abortSpec (s : State) (r : JobRef) (j : Job) : State :=
  let s1 := modJob s r fun k => { interruptSolves k with endAs := match k.endAs with
    | .none | .fault _ => .abort
    | e => e }
  let s2 := modDesc s1 r fun d => { d with resume := d.resume.map fun k => { k with endAs := match j.endAs with
    | .fault c => .fault c
    | _ => k.endAs } }
  { s2 with sluice := { s2.sluice with aborted := satInc s2.sluice.aborted } }

/-- The speculation is confirmed (R243). -/
def confirmSpec (s : State) (r : JobRef) : State :=
  let s1 := modJob s r fun k => { trackConfirmed k with spec := false }
  let s2 := modDesc s1 r fun d => { d with resume := none }
  { s2 with sluice := { s2.sluice with confirmed := satInc s2.sluice.confirmed } }

/-- An `OUTPUT` slot of a job whose epoch check has not run yet. -/
def checkDue (j : Job) : Bool := j.kind == .work && (j.img.slotOf j.slot).output && !j.out.checked

/-- Rows that the epoch check confirms; that of a candidate marked since its merge is not valid (R41, R169). -/
def confirmedRows (s : State) (j : Job) : List Nat :=
  (List.range (topRows j).length).filter fun i =>
    rowLive j (nth (topRows j) i default) && rowVerdict s j (nth (topRows j) i default)

/-- The first confirmed row of a restored run stands for what it would have published (R280). -/
def firstConfirmed (j : Job) (ok : List Nat) : Option BRow :=
  match ok with
  | i :: _ => if j.restored && j.confirmedRow.isNone then (topRows j)[i]? else j.confirmedRow
  | [] => j.confirmedRow

/-- The check of one job. -/
def epochCheck (s : State) (job : JobRef) (j : Job) : State :=
  let ok := confirmedRows s j
  let s1 := modJob s job fun k => { k with
    out := ⟨topRows j, ok, true, 0, none⟩, selected := k.selected || (topRows j).any (rowLive j)
    confirmedRow := firstConfirmed j ok }
  if !j.spec then s1
  else if ok.isEmpty then abortSpec s1 job j
  else confirmSpec s1 job

/-- The check compares with the masters that a run still in its last slot writes: those of the epoch after the newest (R232,
R238). -/
def awaitsRun (s : State) (j : Job) : Bool := j.wasSpec && j.epoch == nextEpoch s.world.epoch

/-- `EPOCH_CHECK` (R238): rows 0 to 3 are confirmed or invalidated, at C + 16,384. -/
def execEpochCheck (job : JobRef) (s : State) : Out :=
  serve s fun s =>
    match findJob s job with
    | none => s
    | some j => if checkDue j then epochCheck (if awaitsRun s j then settleRun s else s) job j else s

/-! ## Reflector attempts (R237, R241, R244, R280, R516) -/

def attemptStart (c n : Nat) : Nat := c + 16384 + n * 150000

/-- The next attempt ends by the slot boundary. -/
def attemptFits (s : State) (j : Job) : Bool :=
  attemptStart (j.img.slotOf j.slot).confirmCycle (j.out.attempts + 1) ≤ s.grid.period * 10000

/-- An attempt may start: the job publishes, has not yet, is not failed or restored, and a confirmed row is left. -/
def mayAttempt (s : State) (j : Job) : Bool :=
  j.kind == .work && j.out.checked && j.out.active.isNone && !j.out.confirmed.isEmpty && j.img.publishes
    && j.published.isNone && !j.restored && j.endAs == .none && j.out.attempts < 4 && attemptFits s j

/-- `REFLECTOR_ATTEMPT` (R241): the next confirmed row goes to the reflector. -/
def execReflectorAttempt (job : JobRef) (s : State) : Out :=
  serve s fun s =>
    match findJob s job with
    | none => s
    | some j =>
      if mayAttempt s j then
        modJob s job fun k => { k with
          tried := true
          out := { k.out with active := k.out.confirmed.head?, attempts := k.out.attempts + 1 } }
      else s

/-! ## The published trajectory (R146, R147, R151, R158, R246) -/

/-- The trajectory that a payload row stands for, from the job's splice point; `none` where no tail passes, which a
checked candidate does not meet. -/
def trajOf (j : Job) (r : Recipe) (m : RobotModel) (row : List Byte) : Option Traj :=
  let g := rowGeom j r m row
  let es := g.ps.map fun p => endState p g.T
  (tailTime m.joints es ((r.tailT0Ms : Rat) / 1000)).map fun tb =>
    { id := BitVec.ofNat 32 (field row 0 4), robot := j.img.robot.toNat, startNs := j.spliceNs, tUs := field row 4 4
      tail := tb * 1000000, ctrl := g.ps, rest := es.map fun e => tailRest e tb, row }

/-- START of the setpoint window that first carries a hand-off now: that of the first cycle that starts 50 µs from now or
later (R402). -/
def firstWinStart (s : State) : Nat :=
  let off := 1000 * s.motion.offset
  let h := asNs s + 50000
  (if h ≤ off then off else off + (h - off + 249999) / 250000 * 250000) + 250000

/-- A hand-off that is not later than the robot's last one, or that its first frame could not carry in time (R247,
R402). -/
def spliceStale (s : State) (t : Traj) : Bool :=
  (((s.motion.trajs.find t.robot).getD []).any fun x => decide (t.startNs ≤ x.startNs)) || decide (t.startNs < firstWinStart s)

/-- Hand-off to the motion port (R19, R241, R286, R388). -/
def handOff (s : State) (r : JobRef) (row : BRow) (t : Traj) : State :=
  let old := liveTrajs ((s.motion.trajs.find t.robot).getD []) (asNs s)
  let s1 := modJob s r fun k => { k with published := some t, confirmedRow := some row }
  let auto := !stopRelHost s
  { s1 with
    motion := { s1.motion with trajs := s1.motion.trajs.put t.robot (t :: old), handedAt := s1.motion.handedAt.put t.robot (asNs s) }
    safety := { s1.safety with handed := true }
    pwr := { s1.pwr with stop := s1.pwr.stop && !auto }
    klink := s1.klink.send (.traj t.id) }

/-! ## Verdicts (R292 to R296) -/

/-- The current slot becomes a disagreement slot; the third among 64 periods raises the repeat. -/
def countDisagree (s : State) : State :=
  let f := s.safety
  if f.disHist.contains s.grid.count then s
  else
    let hist := s.grid.count :: (f.disHist.filter fun c => s.grid.count < c + 64)
    let s1 := { s with safety := { f with disSlots := satInc f.disSlots, disHist := hist } }
    if 3 ≤ hist.length then raise s1 .reflectorDisagreeRepeat [] else s1

/-- A collision that the reflector found on a confirmed row: its sample and its capsule. -/
def disagree (s : State) (r : JobRef) (j : Job) (row : BRow) (h : Nat × Nat) : State :=
  countDisagree (raiseFor s .reflectorDisagree
    [row.id, BitVec.ofNat 32 j.slot, BitVec.ofNat 32 h.1, BitVec.ofNat 32 h.2] r)

/-- The reflector's check of one row. -/
def judgeRow (s : State) (r : JobRef) (j : Job) (row : BRow) (rc : Recipe) (m : RobotModel) (t : Traj) : State :=
  if 2048 < sampleCount t then raise s .reflectorBudget []
  else match firstHit s j rc m t with
    | some h => disagree s r j row h
    | none =>
      if !tailPasses t m then raise s .reflectorTail []
      else if spliceStale s t then raise s .spliceStale []
      else if rowLive j row then handOff s r row t
      else s

/-- A job that a cancel or an abort ends hands nothing off. -/
def attemptCounts (j : Job) : Bool :=
  match j.endAs with
  | .cancelled | .abort => false
  | .none | .fault _ | .faultNow _ => true

/-- The attempt's row leaves the list of rows to try. -/
def closeAttempt (s : State) (r : JobRef) : State :=
  modJob s r fun k => { k with out := { k.out with active := none, confirmed := k.out.confirmed.drop 1 } }

/-- `REFLECTOR_VERDICT` (R241): an attempt interval ends. -/
def execReflectorVerdict (job : JobRef) (s : State) : Out :=
  serve s fun s =>
    match findJob s job with
    | none => s
    | some j =>
      match j.out.active with
      | none => s
      | some i =>
        let s1 := closeAttempt s job
        if !attemptCounts j then s1
        else
          match j.out.rows[i]?, j.recipe, jobModel j with
          | some row, some r, some m =>
            match trajOf j r m row.pay with
            | some t => judgeRow s1 job j row r m t
            | none => raise s1 .reflectorTail []
          | _, _, _ => s1

end Sys2Proof.Machine
end

