-- ==== Sys2Proof/Machine/Fabric.lean ====
section
/-! DEFINITION. The lantern fabric (R21 to R41, R44 to R50): one lockstep instruction of a lantern's wicks, the elementary
stage work, pool collisions, context switches and context loads. -/

namespace Sys2Proof.Machine

open Sys2Proof

/-! ## Stage work -/

/-- A stage instruction acts for the job on its lantern under the recipe that job was dispatched with. -/
def stageFor (s : State) (p : Phys) (f : Job → Recipe → State) : State :=
  match jobOn s p with
  | some j =>
    match j.recipe with
    | some r => f j r
    | none => s
  | none => s

/-- As `stageFor`, for the robot model that the image names and the lantern's logical number. -/
def robotFor (s : State) (p : Phys) (f : Job → Recipe → RobotModel → Nat → State) : State :=
  stageFor s p fun j r =>
    match jobModel j, logicalOf s p with
    | some m, some l => f j r m l
    | _, _ => s

def listFor (s : State) (p : Phys) (f : Job → Nat → State) : State :=
  match jobOn s p, logicalOf s p with
  | some j, some l => f j l
  | _, _ => s

/-- The stages whose work an operation is (R87): it acts on a lantern whose stage set of the slot holds one of them. -/
def stageBits : StageOp → List Nat
  | .worldFuse => [0]
  | .worldDistance => [1]
  | .worldMasters => [0, 1]
  | .drawSeeds => [7]
  | .generate .. => [7, 8]
  | .torque .. => [11]
  | .query _ | .score _ | .measure _ => [3]
  | .offer .. | .offerRaw .. => [3, 6, 9]
  | .merge _ => [6]
  | .routeEnds | .routePass | .routeExtract | .routeTargets | .routeSeed | .ikGoal => [1]
  | .assemble _ => [4]
  | .tsSetup _ => [5]
  | .iterate .. => [5]
  | .inputPixel .. | .inputImage .. | .activate .. | .lookup .. | .softmax .. | .layerNorm .. | .channelScale .. | .elementwise ..
  | .pool .. | .bilinear .. | .sumParts .. | .graspPose _ | .postSolution _ | .carriedFit .. | .inboxBrick _ => [9]

/-- The route search runs in slot 0 of an image that publishes; in any other image the ripple bit marks the distance
transforms (R196). -/
def rippleOk (j : Job) : StageOp → Bool
  | .routeEnds | .routePass | .routeExtract | .routeTargets | .routeSeed | .ikGoal => j.img.publishes && j.slot == 0
  | .worldDistance => !j.img.publishes
  | _ => true

/-- In a job's first slot the candidates are generated and sampled after the cascade's seed phase (R176). -/
def phaseOk (j : Job) (cycle : Nat) : StageOp → Bool
  | .generate .. | .torque .. | .query _ => !(j.slot == 0 && j.img.hasStage 5 && cycle ≤ j.img.seedEnd)
  | _ => true

/-- The image gives the operation's stage to the lantern in the job's slot. -/
def inStage (s : State) (p : Phys) (op : StageOp) : Bool :=
  match jobOn s p, logicalOf s p with
  | some j, some l =>
    ((stageBits op).any fun b => (j.img.stageSet j.slot l).getLsbD b) && rippleOk j op && phaseOk j (lant s p).cycle op
  | _, _ => false

def runStage (s : State) (p : Phys) (w : Nat) (op : StageOp) : State :=
  match op with
  | .worldFuse => stageFor s p fun j _ => runPhase s j.ref 1
  | .worldDistance => stageFor s p fun j _ => runPhase s j.ref 2
  | .worldMasters => stageFor s p fun j _ => runPhase s j.ref 3
  | .drawSeeds => robotFor s p fun j r m _ => opDrawSeeds s j r m
  | .generate l i => robotFor s p fun j r m _ => opGenerate s p j r m l.val i
  | .torque l i => robotFor s p fun j r m _ => opTorque s j r m l.val i
  | .query i => robotFor s p fun j r m l => opQuery s p j r m l i
  | .score i => robotFor s p fun j r m l => opScore s p j r m l i
  | .measure k => listFor s p fun j l => opMeasure s p j l k
  | .offer d pos reg => listFor s p fun _ _ => opOffer s p w (nth (activeCtx (lant s p)).topKs d default) pos reg.toNat
  | .offerRaw first => listFor s p fun _ _ => opOfferRaw s p w first.toNat
  | .merge sources => listFor s p fun j l => opMergeLists s p j l (sources.map fun x => (x.1.val, x.2))
  | .routeEnds => robotFor s p fun j r m _ => opRouteEnds s j r m
  | .routePass => stageFor s p fun j r => opRoutePass s p j r
  | .routeExtract => stageFor s p fun j r => opRouteExtract s p j r
  | .routeTargets => robotFor s p fun j r m _ => opRouteTargets s j r m
  | .routeSeed => robotFor s p fun j r m _ => opRouteSeed s j r m
  | .ikGoal => robotFor s p fun j _ m _ => opIkGoal s j m
  | .assemble k => robotFor s p fun j r m _ => opAssemble s p j r m k
  | .tsSetup k => robotFor s p fun j r m l => opTsSetup s p j r m w l k
  | .iterate k kind => robotFor s p fun j r m l => opIterate s p j r m w l k kind
  | .inputPixel port d i dst => stageFor s p fun j r => opInputPixel s p j r port d i dst
  | .activate fn wide r => modWick s p w fun k => regPut k r.toNat (activateReg fn wide (regGet k r.toNat))
  | .lookup t r =>
    modWick s p w fun k => regPut k r.toNat
      (lookupReg (nth (activeCtx (lant s p)).tables t (Vector.replicate 256 0)) (regGet k r.toNat))
  | .softmax r n => putRow s p w r.toNat (softmaxRow (rowCodes (lant s p) w r.toNat n))
  | .layerNorm r n => putRow s p w r.toNat (layerNormRow (activeCtx (lant s p)).epsilon (rowCodes (lant s p) w r.toNat n))
  | .channelScale a e bias => opChannelScale s p w a e.toInt bias.toNat
  | .elementwise op t rd ra rb => opElementwise s p w op t rd.toNat ra.toNat rb.toNat
  | .pool kind t first n rd => opPool s p w kind t first.toNat n rd.toNat
  | .bilinear t first x y rd => opBilinear s p w t first.toNat x y rd.toNat
  | .sumParts o first rd => opSumParts s p w (nth (activeCtx (lant s p)).sums o []) first.toNat rd.toNat
  | .inputImage port i dst n => stageFor s p fun j r => opInputImage s p j r port i dst n
  | .graspPose row => robotFor s p fun j r m _ => opGraspPose s j r m row
  | .postSolution k => listFor s p fun j _ => opPostSolution s j k
  | .carriedFit port at_ n => robotFor s p fun j r m _ => opCarriedFit s p j r m port at_ n
  | .inboxBrick first => listFor s p fun j _ => opInboxBrick s p w j first.toNat

/-! ## One wick operation -/

def regBytes (k : Wick) (r n : Nat) : List Byte := (List.range n).flatMap fun i => leBytes 4 (regGet k (r + i)).toNat

def putBytes (k : Wick) (r : Nat) (bs : List Byte) : Wick :=
  (List.range ((bs.length + 3) / 4)).foldl (fun k i => regPut k (r + i) (BitVec.ofNat 32 (field bs (4 * i) 4))) k

/-- ALU lanes on four consecutive registers; min and max take the lanes as signed (DEDUCED, log 25). -/
def aluLane (op : AluOp) (a b : W32) : W32 :=
  match op with
  | .add => a + b
  | .sub => a - b
  | .cmp => Config.aluCompare a b
  | .min => if a.toInt ≤ b.toInt then a else b
  | .max => if a.toInt ≤ b.toInt then b else a
  | .and => a &&& b
  | .or => a ||| b
  | .xor => a ^^^ b
  | .addSat => BitVec.ofInt 32 (clampInt int32Min int32Max (a.toInt + b.toInt))

/-- Each unit of a wick reads the wick as it was before the cycle (`old`) and writes its results into `cur`. -/
def aluRegs (old cur : Wick) (op : AluOp) (rd ra rb : Nat) : Wick :=
  (List.range 4).foldl (fun k i => regPut k (rd + i) (aluLane op (regGet old (ra + i)) (regGet old (rb + i)))) cur

def pairAt (k : Wick) (r : Nat) : W64 := word8 (regBytes k r 2)

def cmpxRegs (old cur : Wick) (ra rb : Nat) : Wick :=
  let a := pairAt old ra
  let b := pairAt old rb
  if Config.exchanges a b then putBytes (putBytes cur ra (leBytes 8 b.toNat)) rb (leBytes 8 a.toNat) else cur

/-- A cycle of MACs: the new accumulators and how many saturated. DESIGN CHOICE (log 87): each operand lies in 16
consecutive registers, with the int4 weights in the first operand. -/
def macWick (old cur : Wick) (t : MacType) (ra rb : Nat) : Wick × Nat :=
  let a := regBytes old ra 16
  let b := regBytes old rb 16
  let rs := (List.finRange 8).map fun i => macAcc t a b i.val (old.acc.get i)
  ({ cur with acc := Vector.ofFn fun i => (nth rs i.val (0, false)).1 }, (rs.filter (·.2)).length)

def biasWick (old cur : Wick) (acc : Fin 8) (r : Nat) : Wick × Nat :=
  let x := accAdd (accVal (old.acc.get acc)) (regGet old r).toInt
  ({ cur with acc := cur.acc.set acc (accOf x.1) }, b2n x.2)

def shiftWick (old cur : Wick) (acc : Fin 8) (n : Int) : Wick × Nat :=
  let x := rheShift (accVal (old.acc.get acc)) n
  ({ cur with acc := cur.acc.set acc (accOf x.1) }, b2n x.2)

/-- The exponent of a block in the context's table (R37). -/
def blockExp (c : CtxCfg) (n : Nat) : Int := (nth c.blockExp n 0).toInt

/-- The conversion of accumulator `i` that the context names (R35): the multiplier of its channel; for BFX16
s = E_out − E_acc, where products carry the sum of their factors' exponents (R37, R38). -/
def drainFmt (c : CtxCfg) (i : Nat) : DrainDecl → DrainFmt
  | .int32 => .int32
  | .requant wide m sh => .requant wide (nth m i 0).toInt sh.val
  | .bfx16 a b out => .bfx16 (blockExp c out - (blockExp c a + blockExp c b))
  | .fromInt16 wide sh => .fromInt16 wide sh
  | .fp32 => .fp32
  | .bf16 => .bf16
  | .e4m3 => .e4m3
  | .e5m2 => .e5m2

/-- The first `n` accumulators are converted as declaration `d` of the context says. DESIGN CHOICE (log 88): their bytes
are packed from register `rd` on, and the last register is filled with zeros. -/
def drainWick (c : CtxCfg) (old cur : Wick) (d n rd : Nat) : Wick × Nat :=
  let decl := nth c.drains d .int32
  let xs := (List.range n).map fun i => drainOne (drainFmt c i decl) (nth old.acc.toList i 0)
  (putBytes cur rd (xs.flatMap (·.1)), (xs.filter (·.2)).length)

/-- The operation under its predicates (R22): one whose predicate does not hold acts on nothing. -/
def underPreds (k : Wick) : WickOp → WickOp
  | .pred p want op => if k.preds.getLsbD p.val == want then underPreds k op else .idle
  | op => op

/-- The operation that the microcode issues, whatever its predicates (R22, R49). -/
def issuedOp : WickOp → WickOp
  | .pred _ _ op => issuedOp op
  | op => op

/-- The basin word that an operation's gather port asks for. -/
def gatherAddr : WickOp → Option Nat
  | .gatherRead a _ => some (a % basinSize / 8)
  | .gatherWrite a _ _ => some (a % basinSize / 8)
  | .gatherAtomic _ a _ _ => some (a % basinSize / 8)
  | _ => none

def isGatherWrite : WickOp → Bool
  | .gatherWrite .. => true
  | _ => false

/-- The neighbour of a wick; none beyond the mesh's edge. -/
def meshTo (d : MeshDir) (w : Nat) : Option Nat :=
  match d with
  | .north => if 8 ≤ w then some (w - 8) else none
  | .south => if w < 56 then some (w + 8) else none
  | .east => if w % 8 < 7 then some (w + 1) else none
  | .west => if 0 < w % 8 then some (w - 1) else none

/-- A register operation of one wick and the elements it counts. -/
def localOp (c : CtxCfg) (old cur : Wick) : WickOp → Wick × Nat
  | .mac t ra rb => macWick old cur t ra.toNat rb.toNat
  | .bias acc r => biasWick old cur acc r.toNat
  | .alu op rd ra rb => (aluRegs old cur op rd.toNat ra.toNat rb.toNat, 0)
  | .cmpx ra rb => (cmpxRegs old cur ra.toNat rb.toNat, 0)
  | .shift acc n => shiftWick old cur acc n
  | .align acc a b d => shiftWick old cur acc (blockExp c d - (blockExp c a + blockExp c b))
  | .drain d n rd => drainWick c old cur d n.val rd.toNat
  | .setPred p r =>
    ({ cur with preds := if regGet old r.toNat = 0 then cur.preds &&& ~~~ BitVec.ofNat 16 (2 ^ p.val)
                         else cur.preds ||| BitVec.ofNat 16 (2 ^ p.val) }, 0)
  | .idle | .gatherRead .. | .gatherWrite .. | .gatherAtomic .. | .mesh .. | .eccRead .. | .stage _ | .pred .. => (cur, 0)

/-- The word last returned to the lantern, as an atomic leaves it (R53). -/
def wickAtomic (s : State) (p : Phys) (w : Nat) (old : Lantern) (op : AtomicOp) (a ra rd : Nat) : State :=
  let s1 := atomic s (.wick p) (.basin p (a % basinSize)) op (word8 (regBytes (wickGet old w) ra 2))
  modWick s1 p w fun k => putBytes k rd (leBytes 8 (lant s1 p).ret.toNat)

/-- A gather operation of wick `w`; `old` is the lantern before the cycle. A plan access to a retained basin returns
zeros or is discarded (R57). -/
def gather (s : State) (p : Phys) (old : Lantern) (w : Nat) (op : WickOp) : State :=
  let l := lant s p
  let asleep := l.retain.asleep
  let fail := fun (s : State) => match l.job with
    | some r => retainedAccess s r
    | none => s
  match op with
  | .gatherRead a rd =>
    let bs := if asleep then zeros 8 else l.basin.readN (a % basinSize / 8 * 8) 8
    let s1 := modWick s p w fun k => putBytes k rd.toNat bs
    if asleep then fail s1 else s1
  | .gatherWrite a be ra =>
    if asleep then fail s
    else
      let at_ := a % basinSize / 8 * 8
      let new := mergeBytes be (l.basin.readN at_ 8) (regBytes (wickGet old w) ra.toNat 2)
      modLant s p fun l => { l with basin := l.basin.writeN at_ new }
  | .gatherAtomic op a ra rd => wickAtomic s p w old op a ra.toNat rd.toNat
  | _ => s

/-- What a wick sends over the mesh: taken from its registers as they were before the cycle. -/
def meshSend (old : Lantern) (p : Phys) (s : State) (e : Fin 64 × WickOp) : State :=
  match e.2 with
  | .mesh d ra rd =>
    match meshTo d e.1.val with
    | some w => modWick s p w fun k => putBytes k rd.toNat (regBytes (wickGet old e.1.val) ra.toNat 8)
    | none => s
  | _ => s

/-- ECC events of a read of a lantern's stores (R29). -/
def eccOp (p : Phys) (s : State) (e : Fin 64 × WickOp) : State :=
  match e.2 with
  | .eccRead _ double =>
    if double then raise s .fabricEccFatal []
    else raise (modLant s p fun l => { l with eccCorr := satInc l.eccCorr }) .fabricEccCorr []
  | _ => s

/-- The operations that read or write the basin of their lantern beside the gather ports. -/
def usesBasin : StageOp → Bool
  | .query _ | .measure _ | .assemble _ | .routePass | .routeExtract => true
  | _ => false

/-- A stage of a running job on a sleeping basin: reads give zeros, writes are discarded, and the job fails (R57). -/
def stageAsleep (s : State) (p : Phys) (w : Nat) (op : StageOp) : State :=
  let s1 := runStage (modLant s p fun l => { l with basin := ⟨0, []⟩ }) p w op
  let s2 := modLant s1 p fun l => { l with basin := (lant s p).basin }
  ((jobOn s p).map fun j => retainedAccess s2 j.ref).getD s2

def stageStep (p : Phys) (s : State) (e : Fin 64 × WickOp) : State :=
  match e.2 with
  | .stage op =>
    if !inStage s p op then s
    else if usesBasin op && (lant s p).retain.asleep then stageAsleep s p e.1.val op
    else runStage s p e.1.val op
  | _ => s

/-! ## The issue cycles of an instruction and the rill side of the pool (R46 to R54) -/

def isGatherRead : WickOp → Bool
  | .gatherRead .. => true
  | _ => false

def isGatherAtomic : WickOp → Bool
  | .gatherAtomic .. => true
  | _ => false

/-- Bank cycles of an operation: an atomic occupies its bank for two (R53). -/
def bankCycles (op : WickOp) : List Nat :=
  match op with
  | .gatherAtomic _ a _ _ => [a % basinSize / 8 % 64, a % basinSize / 8 % 64]
  | op => ((gatherAddr op).map (· % 64)).toList

/-- Requests at the most contended bank (R47). A predicated-off operation asks for its bank all the same (DEDUCED from R22
and R49, log 89). -/
def bankLoad (ops : List (Fin 64 × WickOp)) : Nat :=
  let banks := ops.flatMap fun e => bankCycles (issuedOp e.2)
  (List.range 64).foldl (fun m b => max m (banks.count b)) 0

/-- A gather operation with the issue cycle in which its bank serves it: what was issued, and what its predicates leave of
it. -/
structure PortOp where
  cycle  : Nat
  wick   : Fin 64
  issued : WickOp
  op     : WickOp

/-- The operations of an instruction in ascending wick order, each in the cycle in which its bank is free of those before it
(R46, R47); `used` lists the bank cycles taken. -/
def servedFrom (old : Lantern) : List Nat → List (Fin 64 × WickOp) → List PortOp
  | _, [] => []
  | used, e :: t =>
    let banks := bankCycles (issuedOp e.2)
    ⟨(banks.head?.map fun b => used.count b).getD 0, e.1, issuedOp e.2, underPreds (wickGet old e.1.val) e.2⟩
      :: servedFrom old (used ++ banks) t

/-- The fabric accesses of cycle `c`. -/
def fabricCycle (p : Phys) (old : Lantern) (ops : List PortOp) (s : State) (c : Nat) : State :=
  (ops.filter fun e => e.cycle == c).foldl (fun s e => gather s p old e.wick.val e.op) s

/-- A bank serves a wick in cycle `c`. -/
def bankBusy (ops : List PortOp) (c bank : Nat) : Bool :=
  ops.any fun e => (bankCycles e.issued).contains bank && e.cycle ≤ c && c < e.cycle + (bankCycles e.issued).length

/-- A fabric-side atomic holds the word in cycle `c` (R53, R54). -/
def fabricHolds (ops : List PortOp) (c w : Nat) : Bool :=
  ops.any fun e => isGatherAtomic e.op && gatherAddr e.op == some w && (e.cycle == c || e.cycle + 1 == c)

/-- A fabric-side write of the word in cycle `c`. -/
def fabricWrites (ops : List PortOp) (c w : Nat) : Bool :=
  ops.any fun e => isGatherWrite e.op && gatherAddr e.op == some w && e.cycle == c

/-- One cycle of a word access that stands first at the rill side (R50, R54), and what of it is left. An atomic of the fabric
holds it off. An atomic of its own holds the word for two cycles, and one that a fabric-side write meets in them is discarded
and tried again. -/
def wordCycle (p : Phys) (old : Lantern) (ops : List PortOp) (s : State) (r : RillTry) (c : Nat) : State × Option RillTry :=
  let run := fun (s : State) => fabricCycle p old ops s c
  let w := r.addr / 8
  let act := fun (s : State) => rillAlone s p r.addr r.acc r.req
  if fabricHolds ops c w then (run s, some { r with begun := false })
  else match r.acc with
    | .atomic .. =>
      if fabricWrites ops c w then (run s, some { r with begun := false })
      else if r.begun then (act (run s), none)
      else (run s, some { r with begun := true })
    | .read => (run (act s), none)
    | .write .. =>
      if !fabricWrites ops c w then (act (run s), none)
      else if s.mem.compat then (run (setCollide s r.req), none)
      else (run (act s), none)

/-- How many more cycles an access at the rill side takes, with no fabric access to its word. -/
def rillNeeds (r : RillTry) : Nat :=
  match r.acc with
  | .atomic .. => if r.begun then 1 else 2
  | _ => 1

/-- Cycles `a` to `b - 1` of an issue. -/
def cyclesFrom (a b : Nat) : List Nat := (List.range (b - a)).map (· + a)

/-- The bytes of a line by word: word number, enables, data. -/
def lineWords (addr : Nat) (bs : List Byte) : List (Nat × BitVec 8 × W64) :=
  (List.range 8).filterMap fun i =>
    let w := addr / 64 * 8 + i
    let has := fun (k : Nat) => decide (addr ≤ 8 * w + k ∧ 8 * w + k < addr + bs.length)
    let be := (List.range 8).foldl (fun m k => if has k then m + 2 ^ k else m) 0
    if be = 0 then none
    else some (w, BitVec.ofNat 8 be,
      word8 ((List.range 8).map fun k => if has k then nth bs (8 * w + k - addr) 0 else 0))

/-- In cycle `c` every bank of a line is free of wick requests and no atomic holds one of its words (R48, R54). -/
def lineFree (ops : List PortOp) (ws : List (Nat × BitVec 8 × W64)) (c : Nat) : Bool :=
  ws.all fun w => (62 ≤ w.1 % 64 || !bankBusy ops c (w.1 % 64)) && !fabricHolds ops c w.1

/-- A word of a line is written in cycle `c`; in the pool it may meet a fabric-side write of the same word (R50). -/
def lineWord (p : Phys) (ops : List PortOp) (c : Nat) (s : State) (w : Nat × BitVec 8 × W64) : State :=
  if fabricWrites ops c w.1 && s.mem.compat then setCollide s (.rill p)
  else wordWrite s p w.1 w.2.1 (leBytes 8 w.2.2.toNat)

def setFlight (s : State) (id : Nat) (f : Flight → Flight) : State :=
  { s with mem := { s.mem with flights := s.mem.flights.map fun g => if g.id == id then f g else g } }

/-- Line `k` of a flight reaches its destination basin in cycle `c`. A fabric-side read in that cycle finds the words as they
were before it, and a fabric-side write to a word of the pool is laid over the line's (R50). -/
def lineArrives (p : Phys) (old : Lantern) (ops : List PortOp) (f : Flight) (k : Nat) (s : State) (c : Nat) : State :=
  let ws := lineWords (lineOf f k).1 (lineOf f k).2
  let put := fun (met : Bool) (s : State) => (ws.filter fun w => fabricWrites ops c w.1 == met).foldl (lineWord p ops c) s
  let s1 := if (lant s p).retain.asleep then fabricCycle p old ops (retainedAccess s f.job) c
    else put false (fabricCycle p old ops (put true s) c)
  setFlight s1 f.id fun g => { g with done := g.done ++ [(p, k)] }

/-- Whether line `k` is the next of a transfer from lantern `p` to be read late, and where it lies. -/
def lateLine (source : Option Place) (taken : List Nat) (p : Phys) (k : Nat) : Option Nat :=
  match source with
  | some (.basin q a) => if q = p ∧ k = taken.length then some (a + 64 * k) else none
  | _ => none

/-- The bytes of line `k` of `n` bytes that lantern `p` sends. -/
def sentLine (s : State) (p : Phys) (addr n k : Nat) : List Byte := placeRead s (.basin p addr) (min 64 (n - 64 * k))

/-- Line `k` of a transfer that lantern `p` sends is read in a cycle of the instruction (R48): a flight carries it. -/
def flightTakes (s : State) (p : Phys) (k : Nat) (g : Flight) : Flight :=
  match lateLine g.source g.taken p k with
  | some a => { g with
      taken := g.taken ++ [k]
      data := g.data.take (64 * k) ++ sentLine s p a g.data.length k ++ g.data.drop (64 * (k + 1)) }
  | none => g

/-- The same for a plan's write to a far place. -/
def writeTakes (s : State) (p : Phys) (k : Nat) (w : RecentWrite) : State :=
  match lateLine (some w.source) w.taken p k with
  | some a =>
    let far := w.start + 64 * k
    let s1 := placeWrite s (if w.isDram then .dram far else .cistern far) (sentLine s p a w.len k)
    { s1 with mem := { s1.mem with
      recent := s1.mem.recent.map fun v => if v.id == w.id then { v with taken := v.taken ++ [k] } else v } }
  | none => s

def lineTaken (p : Phys) (id k : Nat) (s : State) : State :=
  match s.mem.recent.find? fun w => w.id == id with
  | some w => writeTakes s p k w
  | none => setFlight s id (flightTakes s p k)

/-- The transfer's next line for the destination, in the order of its lines (R96). -/
def nextLine (f : Flight) (p : Phys) (k : Nat) : Bool :=
  f.dests.contains p && k < lineCount f && k == (f.done.filter fun d => d.1 == p).length

/-- The words that a line read late asks for. -/
def sourceWords (s : State) (id k : Nat) : List (Nat × BitVec 8 × W64) :=
  let of_ := fun (pl : Place) (n : Nat) => match pl with
    | .basin _ a => (List.range ((min 64 (n - 64 * k) + 7) / 8)).map fun i => ((a + 64 * k) / 8 + i, (0xFF : BitVec 8), (0 : W64))
    | _ => []
  match s.mem.flights.find? fun f => f.id == id with
  | some f => (f.source.map fun pl => of_ pl f.data.length).getD []
  | none => match s.mem.recent.find? fun w => w.id == id with
    | some w => of_ w.source w.len
    | none => []

/-- A word access of a DMA engine that a plan issues in cycle `cycle` of the slot stands next in its job's control stream,
with that cycle (R94); any other requester reaches the memories. -/
def rillIssued (s : State) (p : Phys) (cycle addr : Nat) (acc : RillAcc) : Requester → Bool
  | .dma c (some (r, at_)) =>
    at_ == cycle && (logicalOf s p).any fun l => issues s r cycle (.dma c (.word (Fin.ofNat 32 l) addr acc))
  | req => reqOpen s req

def rillPop (s : State) : Requester → State
  | .dma _ (some (r, _)) => popStream s r
  | _ => s

/-- What stands at the rill side: a word access, a line of a transfer to the basin, a line of one from it. -/
inductive RillHead where
  | word (r : RillTry)
  | line (id k : Nat)
  | fetch (id k : Nat)
  deriving DecidableEq, Repr

/-- A request enters the queue at the rill side with the cycle of the instruction from which it stands there: a line when
the latency of its transfer has elapsed (R97). -/
def rillEnter (p : Phys) (cycle : Nat) (x : State × List (Nat × RillHead)) (r : RillPort) : State × List (Nat × RillHead) :=
  match r with
  | .word from_ addr acc req =>
    if rillIssued x.1 p (cycle + from_) addr acc req then
      (rillPop x.1 req, x.2 ++ [(from_, .word ⟨poolToBasin addr, acc, req, false⟩)])
    else x
  | .line from_ id k =>
    let due := ((x.1.mem.flights.find? fun f => f.id == id).map (·.due)).getD 0
    (x.1, x.2 ++ [(max from_ (due - absCycle x.1 cycle), .line id k)])
  | .fetch from_ id k => (x.1, x.2 ++ [(from_, .fetch id k)])

/-- The requests at the rill side in the order in which they reach it, those that the instructions before left there first
(R46). -/
def rillQueue (s : State) (p : Phys) (old : Lantern) (rill : List RillPort) : State × List (Nat × RillHead) :=
  let x := rill.foldl (rillEnter p old.cycle) (s, [])
  (x.1, old.rill.map (fun r => (0, .word r)) ++ x.2.insertionSort fun a b => a.1 ≤ b.1)

/-- The flight whose next line for the lantern is line `k` of transfer `id`. -/
def flightFor (s : State) (p : Phys) (id k : Nat) : Option Flight := s.mem.flights.find? fun f => f.id == id && nextLine f p k

/-- One cycle at the rill side: the request that stands there first is tried, and one that loses keeps its place (R46, R48). -/
def rillCycle (p : Phys) (old : Lantern) (ops : List PortOp) (x : State × List (Nat × RillHead)) (c : Nat) :
    State × List (Nat × RillHead) :=
  let run := fun (s : State) => fabricCycle p old ops s c
  match x.2 with
  | [] => (run x.1, [])
  | (from_, h) :: t =>
    if c < from_ then (run x.1, x.2)
    else match h with
      | .word r =>
        let y := wordCycle p old ops x.1 r c
        (y.1, (y.2.map fun r => (from_, RillHead.word r)).toList ++ t)
      | .line id k =>
        match flightFor x.1 p id k with
        | some f =>
          if lineFree ops (lineWords (lineOf f k).1 (lineOf f k).2) c then (lineArrives p old ops f k x.1 c, t)
          else (run x.1, x.2)
        | none => (run x.1, t)
      | .fetch id k =>
        if lineFree ops (sourceWords x.1 id k) c then (run (lineTaken p id k x.1), t) else (run x.1, x.2)

/-- The word accesses of a queue. -/
def waitingWords (q : List (Nat × RillHead)) : List RillTry :=
  q.filterMap fun e => match e.2 with
    | .word r => some r
    | .line .. | .fetch .. => none

/-- The rill side in the cycles `now` to `stop - 1` that follow the last fabric access. A word access that they do not complete
stays for the next instruction; a line stays with its transfer. -/
def rillAfter (p : Phys) (old : Lantern) (stop : Nat) : State → Nat → List (Nat × RillHead) → State
  | s, _, [] => modLant s p fun l => { l with rill := [] }
  | s, now, (from_, h) :: t =>
    let at_ := max now from_
    let need := match h with
      | .word r => rillNeeds r
      | .line .. | .fetch .. => 1
    if stop < at_ + need then modLant s p fun l => { l with rill := waitingWords ((from_, h) :: t) }
    else
      let s1 := match h with
        | .word r => rillAlone s p r.addr r.acc r.req
        | .line id k => ((flightFor s p id k).map fun f => lineArrives p old [] f k s at_).getD s
        | .fetch id k => lineTaken p id k s
      rillAfter p old stop s1 (at_ + need) t

/-- The fabric accesses of the `load` issue cycles with what the rill side asks for in them, `cycles` being the cycles of the
instruction itself. -/
def gatherAll (s : State) (p : Phys) (old : Lantern) (ops : List PortOp) (load cycles : Nat) (rill : List RillPort) : State :=
  let x := (cyclesFrom 0 load).foldl (rillCycle p old ops) (rillQueue s p old rill)
  rillAfter p old (load + (cycles - 1)) x.1 load x.2

/-! ## The instruction -/

/-- Switches in progress complete before the wicks execute again (R26, R28). -/
def settleSwitches (l : Lantern) : Lantern :=
  match l.switches.getLast? with
  | some (t, e) => { enterCtx l t with cycle := max l.cycle e, switches := [] }
  | none => l

def byWick (ops : List (Fin 64 × WickOp)) : List (Fin 64 × WickOp) := ops.insertionSort fun a b => a.1.val ≤ b.1.val

/-- The elements that wick `w` counts in a cycle: 8 at most (R39). -/
def wickCount (c : CtxCfg) (old : Lantern) (ops : List (Fin 64 × WickOp)) (w : Nat) : Nat :=
  min 8 (sumNat ((ops.filter fun e => e.1.val == w).map fun e => (localOp c (wickGet old w) (wickGet old w) e.2).2))

def runWicks (s : State) (p : Phys) (cycles : Nat) (ops : List (Fin 64 × WickOp)) (rill : List RillPort) : State :=
  let s0 := modLant s p settleSwitches
  let old := lant s0 p
  let ctx := activeCtx old
  let sorted := (byWick ops).map fun e => (e.1, underPreds (wickGet old e.1.val) e.2)
  let counted := sumNat ((List.range 64).map (wickCount ctx old sorted))
  let s1 := sorted.foldl (fun s e => modWick s p e.1.val fun k => (localOp ctx (wickGet old e.1.val) k e.2).1) s0
  let load := max 1 (bankLoad ops)
  let s2 := gatherAll s1 p old (servedFrom old [] (byWick ops)) load cycles rill
  let s3 := sorted.foldl (meshSend old p) s2
  let s4 := countRange s3 p counted
  let took := cycles + (load - 1)
  let s5 := sorted.foldl (stageStep p) s4
  let s6 := modLant (cycleOffers s5 p took) p fun l => { l with cycle := l.cycle + took }
  sorted.foldl (eccOp p) (((jobOn s6 p).map fun j => settleSolves s6 j.ref false).getD s6)

/-- A lantern whose microcode runs: a job is dispatched on it that has not been aborted (R242), it is not gated, and no
free window that names it is open (R89). -/
def executes (s : State) (p : Phys) : Bool :=
  ((jobOn s p).any fun j => j.kind == .work && j.endAs != .abort && !inFreeWindow s j p (lant s p).cycle) && !(lant s p).gated

/-- `WICK_INSTRUCTION` (R22): one lockstep issue of a lantern's wicks; each instruction takes the cycles that its
encoding states, and bank conflicts stretch the issue cycle. -/
def execWickInstruction (l : Phys) (cycles : Nat) (ops : List (Fin 64 × WickOp)) (rill : List RillPort)
    (s : State) : Out :=
  serve s fun s => if executes s l then runWicks s l cycles ops rill else s

/-! ## Contexts (R26 to R28) -/

/-- `CONTEXT_SWITCH` (R26, R28): 64 cycles from its issue, or from the end of the switch in progress. -/
def execContextSwitch (l : Phys) (target : Fin 4) (s : State) : Out :=
  serve s fun s =>
    if executes s l then
      modLant s l fun x =>
        let from_ := match x.switches.getLast? with
          | some (_, e) => max x.cycle e
          | none => x.cycle
        { x with switches := x.switches ++ [(target, from_ + 64)] }
    else s

/-- The context that is active on a lantern in cycle `cycle` of the slot: the target of the last switch that has ended. -/
def ctxIn (x : Lantern) (cycle : Nat) : Fin 4 := (((x.switches.filter fun e => e.2 ≤ cycle).getLast?).map (·.1)).getD x.ctx

/-- A load of context `number` of the job's image into a context of lantern `p`, in cycle `cycle` of the slot. -/
def contextLoad (s : State) (j : Job) (p : Phys) (cycle : Nat) (target : Fin 4) (number : Nat) : State :=
  let x := lant s p
  if ctxIn x cycle == target || x.switches.any fun e => decide (cycle < e.2) && e.1 == target then
    raiseFor s .cfgLoadActive [] j.ref
  else setLant s p { x with contexts := x.contexts.set target.val (j.img.ctxAt number) }

/-- `CONTEXT_LOAD` (R27, R94): into an inactive context, from the image of the job that issues it; a load of the active
one, or of one that a switch in progress is about to make active, is not performed and fails the job. -/
def execContextLoad (job : JobRef) (cycle : Nat) (l : Logical) (target : Fin 4) (number : Nat) (s : State) : Out :=
  serve s fun s => issue s job cycle (.contextLoad l target number) fun s =>
    match findJob s job, physOf s l.val with
    | some j, some p => contextLoad s j p cycle target number
    | _, _ => s

end Sys2Proof.Machine
end

