-- ==== Sys2Proof/Machine/Registers.lean ====
section
/-! DEFINITION. Register accesses by the host (R7 to R12, R312, R499 to R513): access codes, the side effects of reads and
the actions of writes, one 4 B word at a time. -/

namespace Sys2Proof.Machine

open Sys2Proof

/-! ## Reads (R8, R10, R351, R356, R369, R477, R501, R502) -/

/-- What an RC field holds after a read: 1 where the device counts an event into it in the cycle of the read (R10). `pos` is
the field's lowest bit in the word. -/
def afterRc (counted pos : Nat) (w : Nat) : BitVec w := BitVec.ofNat w (b2n (bit counted pos))

/-- The RC fields of a word clear when the host reads it; bit k of `counted` says that the field whose lowest bit is bit k
counts an event in that cycle. -/
def clearRc (s : State) (off counted : Nat) : State :=
  if 0x40100 ≤ off ∧ off < 0x40180 then
    match physOf s ((off - 0x40100) / 4) with
    | some p => modLant s p fun l => { l with eccCorr := afterRc counted 16 16 }
    | none => s
  else if 0x60010 ≤ off ∧ off < 0x60020 then
    let p := Fin.ofNat 4 ((off - 0x60010) / 4)
    { s with klink := { s.klink with
      ports := s.klink.ports.set p { s.klink.ports.get p with crcErr := afterRc counted 16 16 } } }
  else match off with
    | 0x00204 => { s with mgmt := { s.mgmt with viol := afterRc counted 16 8 } }
    | 0x02008 => { s with safety := { s.safety with disSlots := afterRc counted 16 16 } }
    | 0x3000C => { s with world := { s.world with dirFull := afterRc counted 0 16, fuseCutoff := afterRc counted 16 16 } }
    | 0x30014 => { s with sluice := { s.sluice with confirmed := afterRc counted 0 16, aborted := afterRc counted 16 16 } }
    | 0x50014 => { s with motion := { s.motion with tagFail := afterRc counted 8 8 } }
    | _ => s

def isTraceWin (off : Nat) : Bool := decide (0x21000 ≤ off ∧ off < 0x22000)

/-- A host read of one 4 B word of BAR0 outside the device memory window. -/
def readWord0 (s : State) (off counted : Nat) : State × Nat :=
  if 0x81080 ≤ off ∧ off < 0x810C0 then recvWord s (.s 1) (Fin.ofNat 16 ((off - 0x81080) / 4))
  else if 0x81100 ≤ off ∧ off < 0x81200 then lockRead s 1 (Fin.ofNat 64 ((off - 0x81100) / 4))
  else if isTraceWin off then (dozeLeave s, readReg s off)
  else if off = 0x108 then (pilotTimeLatch s, readReg s off)
  else (clearRc s off counted, readReg s off)

/-- A host read of one 4 B word of BAR2. -/
def readWord2 (s : State) (off : Nat) : State × Nat :=
  if 0x80 ≤ off ∧ off < 0xC0 then recvWord s (.n 1) (Fin.ofNat 16 ((off - 0x80) / 4))
  else if 0x1000 ≤ off ∧ off < 0x1100 then lockRead s 0 (Fin.ofNat 64 ((off - 0x1000) / 4))
  else (s, readReg2 s off)

def readWord (s : State) (bar : Bar) (off counted : Nat) : State × Nat :=
  match bar with
  | .bar0 => readWord0 s off counted
  | .bar2 => readWord2 s off

def inMemWin (bar : Bar) (off : Nat) : Bool := bar == .bar0 && decide (0x80_0000 ≤ off ∧ off < 0xC0_0000)

/-- A host read: 4 B, or two 4 B reads with the lower offset first (R499). -/
def busRead (s : State) (bar : Bar) (off : Nat) (size : AccSize) (counted : Nat) : State :=
  if !accOk size off then unsupported s
  else if inMemWin bar off then memWindow s (off - 0x80_0000) size false 0
  else
    let a := readWord s bar off (counted % 2 ^ 32)
    match size with
    | .b8 =>
      let b := readWord a.1 bar (off + 4) (counted / 2 ^ 32)
      setBus b.1 (a.2 + 2 ^ 32 * b.2)
    | _ => setBus a.1 a.2

/-! ## Writes with a deferred effect (R52, R80, R248) -/

/-- `BASIN_POOL_MODE`: pending until the next idle boundary. -/
def poolModeWrite (s : State) (v : Nat) : State :=
  { s with mem := { s.mem with poolReg := bit v 0, poolPend := true } }

/-- `PLAN_GRID`: pending until the next idle boundary; a write whose PERIOD is out of range leaves the register as it
was. -/
def gridWrite (s : State) (v : Nat) : State :=
  let period := bits v 9 0
  if period < 25 ∨ 800 < period then s
  else { s with grid := { s.grid with regPeriod := period, regRetain := bits v 19 16, pending := true } }

/-- `SPEC_CTRL`: in force from the next boundary. -/
def specWrite (s : State) (v : Nat) : State := { s with sluice := { s.sluice with specReg := bit v 0 } }

/-! ## Rings and sluice (R322, R352) -/

def ringsOff (s : State) : Bool := s.rings.ring.toList.all fun g => g.state == .off

/-- The low or the high half of a base register. -/
def baseLo (old : W64) (v : Nat) : W64 := BitVec.ofNat 64 (old.toNat / 2 ^ 32 * 2 ^ 32 + bits v 31 12 * 4096)

def baseHi (old : W64) (v : Nat) : W64 := BitVec.ofNat 64 (v * 2 ^ 32 + old.toNat % 2 ^ 32)

/-- A per-ring register other than `RING_CTRL`, taken while STATE is 0. -/
def ringField (g : Ring) (off v : Nat) : Ring :=
  match off with
  | 0x00 => { g with base := baseLo g.base v }
  | 0x04 => { g with base := baseHi g.base v }
  | 0x08 => { g with cq := baseLo g.cq v }
  | 0x0C => { g with cq := baseHi g.cq v }
  | 0x10 => if 4 ≤ bits v 4 0 ∧ bits v 4 0 ≤ 16 then { g with size := bits v 4 0 } else g
  | 0x18 => { g with owner := BitVec.ofNat 32 v }
  | 0x1C => { g with startAcc := BitVec.ofNat 32 v }
  | 0x20 => { g with startCmp := BitVec.ofNat 32 v }
  | _ => g

def ringWrite (s : State) (r : RingId) (off v : Nat) : State :=
  if off = 0x14 then ringCtrlWrite s r v []
  else if (ringGet s r).state == .off then modRing s r fun g => ringField g off v
  else s

/-- `RING_POLL`: an INTERVAL outside 1 to 64 is ignored, STATUS_VECTOR while any ring's STATE is not 0. -/
def pollWrite (s : State) (v : Nat) : State :=
  let i := bits v 6 0
  let s1 := if 1 ≤ i ∧ i ≤ 64 then { s with rings := { s.rings with interval := i } } else s
  if ringsOff s then { s1 with rings := { s1.rings with statusVec := BitVec.ofNat 6 (bits v 13 8) } } else s1

/-- The block base registers, taken while every ring's STATE is 0. -/
def blockBase (s : State) (off v : Nat) : State :=
  if !ringsOff s then s
  else match off with
    | 0x0 => { s with rings := { s.rings with dbBase := baseLo s.rings.dbBase v } }
    | 0x4 => { s with rings := { s.rings with dbBase := baseHi s.rings.dbBase v } }
    | 0x8 => { s with rings := { s.rings with shBase := baseLo s.rings.shBase v } }
    | 0xC => { s with rings := { s.rings with shBase := baseHi s.rings.shBase v } }
    | _ => s

/-- `SLUICE_PRIO` r: the levels of flows 8r to 8r + 7. -/
def prioWrite (s : State) (r v : Nat) : State :=
  { s with sluice := { s.sluice with prio := Vector.ofFn fun f =>
      if f.val / 8 = r then BitVec.ofNat 3 (bits v (4 * (f.val % 8) + 2) (4 * (f.val % 8))) else s.sluice.prio.get f } }

def sluiceWrite (s : State) (off v : Nat) : State :=
  if off < 0x20 then (if ringsOff s then prioWrite s (off / 4) v else s)
  else match off with
    | 0x20 =>
      let m := bits v 12 0
      if ringsOff s && 1 ≤ m && m ≤ 4096 then { s with sluice := { s.sluice with weirMax := m } } else s
    | 0x28 => { s with sluice := { s.sluice with traceMask := BitVec.ofNat 8 v } }
    | 0x30 => { s with sluice := { s.sluice with cursor := BitVec.ofNat 14 v } }
    | _ => s

/-! ## The other blocks -/

/-- Bits of `GLB_MEM_WIN` that are fields (R507). -/
def memWinMask : W32 := 0x003F_FFFB

def globalWrite (s : State) (off v : Nat) : State :=
  match off with
  | 0x0008 =>
    { s with host := { s.host with collide := s.host.collide && !bit v 0, ur := s.host.ur && !bit v 1 } }
  | 0x0010 => { s with mem := { s.mem with memWin := BitVec.ofNat 32 v &&& memWinMask } }
  | 0x0104 => pwrCtrlWrite s (BitVec.ofNat 32 v)
  | 0x2004 => if bit v 0 then stopReleaseWrite s else s
  | _ => s

/-- W1C of `LANTERN_STATUSn` and `DMA_CH_STATUSc` (R510, R511). -/
def collideClear (s : State) (off v : Nat) : State :=
  if !bit v 0 then s
  else if off < 0x200 then
    match physOf s ((off - 0x100) / 4) with
    | some p => modLant s p fun l => { l with collide := false }
    | none => s
  else
    let c := Fin.ofNat 16 ((off - 0x200) / 4)
    { s with mem := { s.mem with dma := s.mem.dma.set c { s.mem.dma.get c with collide := false } } }

def memRegWrite (s : State) (off v : Nat) : State :=
  if (0x100 ≤ off ∧ off < 0x180) ∨ (0x200 ≤ off ∧ off < 0x240) then collideClear s off v
  else match off with
    | 0x0 => poolModeWrite s v
    | 0x8 => gridWrite s v
    | _ => s

/-- A write of 1 to `EMBER_CTRL.FREEZE`, or of 0 (R456). -/
def freezeWrite (s : State) (on : Bool) : State :=
  if on then freezeOn s else if s.ember.frozen then emberThaw s else s

def emberRegWrite (s : State) (off v : Nat) : State :=
  match off with
  | 0x08 => cursorWrite s (BitVec.ofNat 32 v)
  | 0x0C => freezeWrite s (bit v 0)
  | 0x10 => if bit v 1 then { s with ember := { s.ember with flashFail := false } } else s
  | _ => s

/-- The sender view of a channel (R355): buffer words, SEND, the W1C bits of `SPOUT_TX_STATUS`. -/
def senderWrite (s : State) (ch : Chan) (off v : Nat) : State :=
  if off < 0x40 then bufWrite s ch (leBytes 4 v) off
  else if off = 0x40 then (if bit v 0 then sendPost s ch else s)
  else if off = 0x44 then
    let c := chanGet s ch
    chanSet s ch { c with dropped := c.dropped && !bit v 1, blocked := c.blocked && !bit v 2 }
  else s

/-- The receiver view: only `SPOUT_RX_ACK` is written. -/
def receiverWrite (s : State) (ch : Chan) (off v : Nat) : State :=
  if off = 0x48 then ackWrite s ch (BitVec.ofNat 16 (v / 65536)) (BitVec.ofNat 16 v) else s

/-- `SPOUT_HOST_CFG` (R358, R359). -/
def spoutCfgWrite (s : State) (v : Nat) : State :=
  let s1 := { s with spout := { s.spout with cfg := BitVec.ofNat 32 (v % 65536) } }
  let s2 := if bit v 16 then hostDriverReset s1 else s1
  if bit v 17 then hostAgentReset s2 else s2

def spoutBlockWrite (s : State) (off v : Nat) : State :=
  if off = 0 then spoutCfgWrite s v
  else if 0x1000 ≤ off ∧ off < 0x1080 then senderWrite s (.s 0) (off - 0x1000) v
  else if 0x1080 ≤ off ∧ off < 0x1100 then receiverWrite s (.s 1) (off - 0x1080) v
  else if 0x1100 ≤ off ∧ off < 0x1200 then lockWrite s 1 (Fin.ofNat 64 ((off - 0x1100) / 4)) (BitVec.ofNat 32 v)
  else s

/-! ## One word, one access -/

/-- A host write of one 4 B word of BAR0 outside the device memory window: unassigned offsets and read-only registers
ignore it. -/
def writeWord0 (s : State) (off v : Nat) : State :=
  if off < 0x3000 then globalWrite s off v
  else if 0x10000 ≤ off ∧ off < 0x11000 then
    ringWrite s (Fin.ofNat 64 ((off - 0x10000) / 0x40)) ((off - 0x10000) % 0x40) v
  else if off = 0x11010 then pollWrite s v
  else if 0x11000 ≤ off ∧ off < 0x11010 then blockBase s (off - 0x11000) v
  else if 0x20000 ≤ off ∧ off < 0x20034 then sluiceWrite s (off - 0x20000) v
  else if off = 0x30010 then specWrite s v
  else if 0x40000 ≤ off ∧ off < 0x40240 then memRegWrite s (off - 0x40000) v
  else if off = 0x60000 then klCtrlWrite s (BitVec.ofNat 32 v)
  else if 0x70000 ≤ off ∧ off < 0x70014 then emberRegWrite s (off - 0x70000) v
  else if 0x80000 ≤ off ∧ off < 0x81200 then spoutBlockWrite s (off - 0x80000) v
  else if 0xF00000 ≤ off ∧ off < 0xF00400 then
    { s with host := s.host.msixWrite (off - 0xF00000) (BitVec.ofNat 32 v) }
  else s

/-- A host write of one 4 B word of BAR2. -/
def writeWord2 (s : State) (off v : Nat) : State :=
  if off < 0x80 then senderWrite s (.n 0) off v
  else if off < 0x100 then receiverWrite s (.n 1) (off - 0x80) v
  else if 0x1000 ≤ off ∧ off < 0x1100 then lockWrite s 0 (Fin.ofNat 64 ((off - 0x1000) / 4)) (BitVec.ofNat 32 v)
  else if off = 0x3000 then loadCtrlWrite s (BitVec.ofNat 32 v)
  else if 0x10000 ≤ off ∧ off < 0x20000 then loadWinWrite s (off - 0x10000) (leBytes 4 v)
  else s

def writeWord (s : State) (bar : Bar) (off v : Nat) : State :=
  match bar with
  | .bar0 => writeWord0 s off v
  | .bar2 => writeWord2 s off v

/-- The shadow header is written once its base is first written after READY (R472). -/
def headerFirst (s : State) : State := if s.rings.header.isEmpty then refreshHeader s else s

/-- A host write: 4 B, or two 4 B writes with the lower offset first (R499). -/
def busWrite (s : State) (bar : Bar) (off : Nat) (size : AccSize) (data : W64) : State :=
  if !accOk size off then unsupported s
  else if inMemWin bar off then memWindow s (off - 0x80_0000) size true data
  else
    let s1 := writeWord s bar off (data.toNat % 2 ^ 32)
    match size with
    | .b8 => headerFirst (writeWord s1 bar (off + 4) (data.toNat / 2 ^ 32))
    | _ => headerFirst s1

/-! ## Meanings -/

/-- `BASIN_POOL_MODE_WRITE` (R52). -/
def execBasinPoolModeWrite (value : W32) (s : State) : Out := busLive s fun s => poolModeWrite s value.toNat

/-- `PLAN_GRID_WRITE` (R80). -/
def execPlanGridWrite (value : W32) (s : State) : Out := busLive s fun s => gridWrite s value.toNat

/-- `SPEC_CTRL_WRITE` (R248). -/
def execSpecCtrlWrite (value : W32) (s : State) : Out := busLive s fun s => specWrite s value.toNat

/-- `TRACE_WIN_READ` (R351, R502): the device leaves doze before the read. -/
def execTraceWinRead (offset : BitVec 12) (size : AccSize) (s : State) : Out :=
  busLive s fun s => busRead s .bar0 (0x21000 + offset.toNat) size 0

/-- `RC_FIELD_READ` (R10, R312, R501): a host read; the RC fields of what it reads clear, and hold 1 where the device counts
an event into them in the cycle of the read (`counted`, by the field's lowest bit). -/
def execRcFieldRead (bar : Bar) (offset : BitVec 24) (size : AccSize) (counted : W64) (s : State) : Out :=
  busLive s fun s => busRead s bar offset.toNat size counted.toNat

/-- The W1C bits of a word that the device sets in the cycle of a write: a set bit reads 1 afterwards (R9). -/
def setW1c (s : State) (bar : Bar) (off sets : Nat) : State :=
  match bar with
  | .bar0 =>
    if off = 0x0008 then
      { s with host := { s.host with collide := s.host.collide || bit sets 0, ur := s.host.ur || bit sets 1 } }
    else if 0x40100 ≤ off ∧ off < 0x40180 then
      match physOf s ((off - 0x40100) / 4) with
      | some p => modLant s p fun l => { l with collide := l.collide || bit sets 0 }
      | none => s
    else if 0x40200 ≤ off ∧ off < 0x40240 then
      let c := Fin.ofNat 16 ((off - 0x40200) / 4)
      let d := s.mem.dma.get c
      { s with mem := { s.mem with dma := s.mem.dma.set c { d with collide := d.collide || bit sets 0 } } }
    else if off = 0x70010 then { s with ember := { s.ember with flashFail := s.ember.flashFail || bit sets 1 } }
    else if off = 0x81044 then setSender s (.s 0) sets
    else s
  | .bar2 => if off = 0x44 then setSender s (.n 0) sets else s
where
  setSender (s : State) (ch : Chan) (sets : Nat) : State :=
    let c := chanGet s ch
    chanSet s ch { c with dropped := c.dropped || bit sets 1, blocked := c.blocked || bit sets 2 }

/-- The bits that the device sets in the cycle of a write, in the word or the two words written. -/
def setBits (s : State) (bar : Bar) (off : Nat) (size : AccSize) (sets : Nat) : State :=
  let s1 := setW1c s bar off (sets % 2 ^ 32)
  match size with
  | .b8 => setW1c s1 bar (off + 4) (sets / 2 ^ 32)
  | _ => s1

/-- `REGISTER_WRITE` (R8, R9, R312, R499): `sets` are the W1C bits that the device sets in the cycle of the write. -/
def execRegisterWrite (bar : Bar) (offset : BitVec 24) (size : AccSize) (data sets : W64) (s : State) : Out :=
  busLive s fun s =>
    let s1 := busWrite s bar offset.toNat size data
    if accOk size offset.toNat then setBits s1 bar offset.toNat size sets.toNat else s1

end Sys2Proof.Machine
end

