-- ==== Sys2Proof/Machine/Dispatch.lean ====
section
/-! DEFINITION. The meaning of every command: one arm per constructor of `Instr`, each one direct call of its meaning. -/

namespace Sys2Proof.Machine

open Sys2Proof

def exec (i : Instr) (s : State) : Host.Outcome State Fault Refusal :=
  match i with
  | .planLoad ring blob => Sys2Proof.Machine.execPlanLoad ring blob s
  | .planRun ring index => Sys2Proof.Machine.execPlanRun ring index s
  | .goalSet ring record => Sys2Proof.Machine.execGoalSet ring record s
  | .seedsLoad ring buffer => Sys2Proof.Machine.execSeedsLoad ring buffer s
  | .weightsLoad ring blob => Sys2Proof.Machine.execWeightsLoad ring blob s
  | .weightsReplaceWrite id => Sys2Proof.Machine.execWeightsReplaceWrite id s
  | .recipeLoad ring blob => Sys2Proof.Machine.execRecipeLoad ring blob s
  | .recipeParseDone ring parse => Sys2Proof.Machine.execRecipeParseDone ring parse s
  | .glowUnavailable ring => Sys2Proof.Machine.execGlowUnavailable ring s
  | .contextSave ring => Sys2Proof.Machine.execContextSave ring s
  | .contextSaveComplete ring => Sys2Proof.Machine.execContextSaveComplete ring s
  | .contextRestore ring index saved => Sys2Proof.Machine.execContextRestore ring index saved s
  | .restoreVerified ring index => Sys2Proof.Machine.execRestoreVerified ring index s
  | .cancel ring index => Sys2Proof.Machine.execCancel ring index s
  | .fence ring => Sys2Proof.Machine.execFence ring s
  | .query ring => Sys2Proof.Machine.execQuery ring s
  | .poll doorbell descs => Sys2Proof.Machine.execPoll doorbell descs s
  | .recordRelease ring => Sys2Proof.Machine.execRecordRelease ring s
  | .shadowHeaderRefresh => Sys2Proof.Machine.execShadowHeaderRefresh s
  | .ringEnable ring value replay => Sys2Proof.Machine.execRingEnable ring value replay s
  | .ringDisable ring value => Sys2Proof.Machine.execRingDisable ring value s
  | .deviceDetach cause => Sys2Proof.Machine.execDeviceDetach cause s
  | .deviceReattach doorbell replay => Sys2Proof.Machine.execDeviceReattach doorbell replay s
  | .slotBoundary late => Sys2Proof.Machine.execSlotBoundary late s
  | .wickInstruction l cycles ops rill => Sys2Proof.Machine.execWickInstruction l cycles ops rill s
  | .contextSwitch l target => Sys2Proof.Machine.execContextSwitch l target s
  | .contextLoad job cycle l target number => Sys2Proof.Machine.execContextLoad job cycle l target number s
  | .atomicOperation req place op operand => Sys2Proof.Machine.execAtomicOperation req place op operand s
  | .rillTransfer x far => Sys2Proof.Machine.execRillTransfer x far s
  | .multicast job cycle mask addr src srcAddr => Sys2Proof.Machine.execMulticast job cycle mask addr src srcAddr s
  | .cisternRead x => Sys2Proof.Machine.execCisternRead x s
  | .cisternWrite x => Sys2Proof.Machine.execCisternWrite x s
  | .dramRead x => Sys2Proof.Machine.execDramRead x s
  | .dramWrite x => Sys2Proof.Machine.execDramWrite x s
  | .plannedDelivery id arrived => Sys2Proof.Machine.execPlannedDelivery id arrived s
  | .memorySleep job cycle unit => Sys2Proof.Machine.execMemorySleep job cycle unit s
  | .memoryWake job cycle unit => Sys2Proof.Machine.execMemoryWake job cycle unit s
  | .memoryWakeComplete unit => Sys2Proof.Machine.execMemoryWakeComplete unit s
  | .ddrRefreshLimit channel => Sys2Proof.Machine.execDdrRefreshLimit channel s
  | .d2dRetrain die => Sys2Proof.Machine.execD2dRetrain die s
  | .budgetGuard job l => Sys2Proof.Machine.execBudgetGuard job l s
  | .measurementTransfer job => Sys2Proof.Machine.execMeasurementTransfer job s
  | .epochCheck job => Sys2Proof.Machine.execEpochCheck job s
  | .reflectorAttempt job => Sys2Proof.Machine.execReflectorAttempt job s
  | .reflectorVerdict job => Sys2Proof.Machine.execReflectorVerdict job s
  | .reflectorSelfCheck ok => Sys2Proof.Machine.execReflectorSelfCheck ok s
  | .startOfFrame port timeNs => Sys2Proof.Machine.execStartOfFrame port timeNs s
  | .frameReceived port frame => Sys2Proof.Machine.execFrameReceived port frame s
  | .setTimeout => Sys2Proof.Machine.execSetTimeout s
  | .probeCompare port => Sys2Proof.Machine.execProbeCompare port s
  | .camDetached port kind => Sys2Proof.Machine.execCamDetached port kind s
  | .i3cInBandEvent bus hotJoin => Sys2Proof.Machine.execI3cInBandEvent bus hotJoin s
  | .cameraDiscovered port bus provId => Sys2Proof.Machine.execCameraDiscovered port bus provId s
  | .cameraConfigured port ok => Sys2Proof.Machine.execCameraConfigured port ok s
  | .worldStale => Sys2Proof.Machine.execWorldStale s
  | .selftestSlice l pass => Sys2Proof.Machine.execSelftestSlice l pass s
  | .diagOverdue l => Sys2Proof.Machine.execDiagOverdue l s
  | .diagAdmitHold l => Sys2Proof.Machine.execDiagAdmitHold l s
  | .faultEvent cls unit words job => Sys2Proof.Machine.execFaultEvent cls unit words job s
  | .faultHandlingComplete => Sys2Proof.Machine.execFaultHandlingComplete s
  | .relight obs => Sys2Proof.Machine.execRelight obs s
  | .lockstepMismatch => Sys2Proof.Machine.execLockstepMismatch s
  | .stopRelease => Sys2Proof.Machine.execStopRelease s
  | .ptpFrameReceived sync valid timeNs announced => Sys2Proof.Machine.execPtpFrameReceived sync valid timeNs announced s
  | .timeSyncLost => Sys2Proof.Machine.execTimeSyncLost s
  | .qbvCycle port => Sys2Proof.Machine.execQbvCycle port s
  | .helloTransmit => Sys2Proof.Machine.execHelloTransmit s
  | .helloReceived frame tagOk => Sys2Proof.Machine.execHelloReceived frame tagOk s
  | .jointStateReceived frame tagOk => Sys2Proof.Machine.execJointStateReceived frame tagOk s
  | .driveLost node => Sys2Proof.Machine.execDriveLost node s
  | .klPortEnable value => Sys2Proof.Machine.execKlPortEnable value s
  | .klinkTrained port => Sys2Proof.Machine.execKlinkTrained port s
  | .klinkTrainTimeout port => Sys2Proof.Machine.execKlinkTrainTimeout port s
  | .klinkCertReceived port chainOk ownerKey partner => Sys2Proof.Machine.execKlinkCertReceived port chainOk ownerKey partner s
  | .klinkCertTimeout port => Sys2Proof.Machine.execKlinkCertTimeout port s
  | .klinkLockLoss port => Sys2Proof.Machine.execKlinkLockLoss port s
  | .klinkPacketReceived port packet => Sys2Proof.Machine.execKlinkPacketReceived port packet s
  | .groupMapIssue map => Sys2Proof.Machine.execGroupMapIssue map s
  | .groupMapReceived map sigOk => Sys2Proof.Machine.execGroupMapReceived map sigOk s
  | .deviceUnreachable member => Sys2Proof.Machine.execDeviceUnreachable member s
  | .klinkExchangeReceived tag data => Sys2Proof.Machine.execKlinkExchangeReceived tag data s
  | .klinkExchangeRead job => Sys2Proof.Machine.execKlinkExchangeRead job s
  | .klinkExchExpired tag => Sys2Proof.Machine.execKlinkExchExpired tag s
  | .groupAbortReceived planId tag => Sys2Proof.Machine.execGroupAbortReceived planId tag s
  | .worldMasterReceived set => Sys2Proof.Machine.execWorldMasterReceived set s
  | .publishedTrajReceived traj => Sys2Proof.Machine.execPublishedTrajReceived traj s
  | .partnerResetReport partner => Sys2Proof.Machine.execPartnerResetReport partner s
  | .spoutSend ch clear msg => Sys2Proof.Machine.execSpoutSend ch clear msg s
  | .gateLockoutEnd => Sys2Proof.Machine.execGateLockoutEnd s
  | .spoutReceive ch word => Sys2Proof.Machine.execSpoutReceive ch word s
  | .spoutAck ch seq code => Sys2Proof.Machine.execSpoutAck ch seq code s
  | .driverReset => Sys2Proof.Machine.execDriverReset s
  | .agentReset => Sys2Proof.Machine.execAgentReset s
  | .keyExchange msg => Sys2Proof.Machine.execKeyExchange msg s
  | .ownerEnrol publicKey sigOk readBackOk => Sys2Proof.Machine.execOwnerEnrol publicKey sigOk readBackOk s
  | .ownerLock sigOk => Sys2Proof.Machine.execOwnerLock sigOk s
  | .attestationReport nonce => Sys2Proof.Machine.execAttestationReport nonce s
  | .emberClear clearSeq signed sigOk => Sys2Proof.Machine.execEmberClear clearSeq signed sigOk s
  | .lockRead req lock => Sys2Proof.Machine.execLockRead req lock s
  | .lockWrite req lock value => Sys2Proof.Machine.execLockWrite req lock value s
  | .emberWriteComplete => Sys2Proof.Machine.execEmberWriteComplete s
  | .emberFlush => Sys2Proof.Machine.execEmberFlush s
  | .emberFlushComplete ok => Sys2Proof.Machine.execEmberFlushComplete ok s
  | .emberFreeze => Sys2Proof.Machine.execEmberFreeze s
  | .emberUnfreeze cause => Sys2Proof.Machine.execEmberUnfreeze cause s
  | .emberCursorWrite value => Sys2Proof.Machine.execEmberCursorWrite value s
  | .emberFillComplete => Sys2Proof.Machine.execEmberFillComplete s
  | .glowHeartbeat word => Sys2Proof.Machine.execGlowHeartbeat word s
  | .glowRestart imageOk flashOk digest => Sys2Proof.Machine.execGlowRestart imageOk flashOk digest s
  | .glowBusViolation addr write => Sys2Proof.Machine.execGlowBusViolation addr write s
  | .glowLoadMeasure busyPercent => Sys2Proof.Machine.execGlowLoadMeasure busyPercent s
  | .glowLoadWinWrite offset data => Sys2Proof.Machine.execGlowLoadWinWrite offset data s
  | .glowLoadGo ok digest => Sys2Proof.Machine.execGlowLoadGo ok digest s
  | .dozeEntry => Sys2Proof.Machine.execDozeEntry s
  | .dozeWake cause => Sys2Proof.Machine.execDozeWake cause s
  | .pilotArmWrite value => Sys2Proof.Machine.execPilotArmWrite value s
  | .pilotEntry => Sys2Proof.Machine.execPilotEntry s
  | .pilotWake digestOk ticks obs => Sys2Proof.Machine.execPilotWake digestOk ticks obs s
  | .powerOn obs => Sys2Proof.Machine.execPowerOn obs s
  | .startupHeartbeatTimeout reflectorOk imageOk flashOk digest => Sys2Proof.Machine.execStartupHeartbeatTimeout reflectorOk imageOk flashOk digest s
  | .deviceReset => Sys2Proof.Machine.execDeviceReset s
  | .perstDeassert obs => Sys2Proof.Machine.execPerstDeassert obs s
  | .pwrFailAssert => Sys2Proof.Machine.execPwrFailAssert s
  | .pwrFailDeassert obs => Sys2Proof.Machine.execPwrFailDeassert obs s
  | .railUndervolt rail => Sys2Proof.Machine.execRailUndervolt rail s
  | .tempRead readings => Sys2Proof.Machine.execTempRead readings s
  | .basinPoolModeWrite value => Sys2Proof.Machine.execBasinPoolModeWrite value s
  | .planGridWrite value => Sys2Proof.Machine.execPlanGridWrite value s
  | .specCtrlWrite value => Sys2Proof.Machine.execSpecCtrlWrite value s
  | .memWindowAccess offset size write data => Sys2Proof.Machine.execMemWindowAccess offset size write data s
  | .traceWinRead offset size => Sys2Proof.Machine.execTraceWinRead offset size s
  | .rcFieldRead bar offset size counted => Sys2Proof.Machine.execRcFieldRead bar offset size counted s
  | .pilotTimeRead => Sys2Proof.Machine.execPilotTimeRead s
  | .registerWrite bar offset size data sets => Sys2Proof.Machine.execRegisterWrite bar offset size data sets s
  | .pwrGoodDeassert => Sys2Proof.Machine.execPwrGoodDeassert s
  | .railRecovery rail obs => Sys2Proof.Machine.execRailRecovery rail obs s
  | .debugAttach => Sys2Proof.Machine.execDebugAttach s
  | .debugAccess place write data => Sys2Proof.Machine.execDebugAccess place write data s
  | .motionPortLinkChange port up => Sys2Proof.Machine.execMotionPortLinkChange port up s

end Sys2Proof.Machine
end

