-- ==== Sys2Proof/WellFormed.lean ====
section
/-! DEFINITION. Which commands are well formed: the sizes and ranges that the layouts of the spec give to what a command
carries. `exec` is total and gives every term an effect; these checks say which terms a party outside can send. -/

namespace Sys2Proof

/-- A byte string has the size of its layout. -/
def sizeIs (n : Nat) (bs : List Byte) : Bool := bs.length == n

/-- A goal record is 64 B (R316). -/
def goalRecordOk (bs : List Byte) : Bool := sizeIs 64 bs

/-- A seed buffer holds whole seeds of 1,600 B, one at least (R316). -/
def seedBufferOk (bs : List Byte) : Bool := bs.length != 0 && bs.length % 1600 == 0

/-- A poll reads 64 doorbell words and descriptors of 64 B (R313, R315). -/
def pollOk (doorbell : List W64) (descs : List RawDesc) : Bool :=
  doorbell.length == 64 && descs.all fun d => sizeIs 64 d.bytes

/-- The units of a wick that an operation takes (R21): the MAC array, the ALU, the compare-exchange unit, the gather port,
the drain, a shifter lane by accumulator, a mesh link by direction. A drain takes the shifter lanes of the accumulators that
it converts, for its drain shifts (DEDUCED, log 145). -/
def WickOp.units : WickOp → List (Nat × Nat)
  | .mac .. => [(0, 0)]
  | .alu .. => [(1, 0)]
  | .cmpx .. => [(2, 0)]
  | .gatherRead .. | .gatherWrite .. | .gatherAtomic .. => [(3, 0)]
  | .drain _ n _ => (4, 0) :: (List.range n.val).map fun i => (5, i)
  | .shift acc _ => [(5, acc.val)]
  | .align acc .. => [(5, acc.val)]
  | .bias acc _ => [(6, acc.val)]
  | .mesh .north .. => [(7, 0)]
  | .mesh .east .. => [(7, 1)]
  | .mesh .south .. => [(7, 2)]
  | .mesh .west .. => [(7, 3)]
  | .setPred p _ => [(8, p.val)]
  | .stage _ => [(9, 0)]
  | .idle | .eccRead .. => []
  | .pred _ _ op => op.units

/-- One lockstep instruction lasts a cycle at least and asks for each unit of each wick at most once (R21, R22). -/
def instructionOk (cycles : Nat) (ops : List (Fin 64 × WickOp)) : Bool :=
  cycles != 0 && decide (ops.flatMap fun e => e.2.units.map fun u => (e.1, u)).Nodup

/-- A basin access is to an aligned 8 B word (R44). -/
def placeAligned : Place → Bool
  | .basin _ a => a % 8 == 0
  | .cistern _ | .dram _ => true

/-- A spout message is 64 B (R356). -/
def messageOk (msg : Option (List Byte)) : Bool := msg.all (sizeIs 64)

/-- A frame on a motion port holds its header and TAG and fits an Ethernet frame of 1,522 B (R396, R399). -/
def motionFrameOk (bs : List Byte) : Bool := decide (24 ≤ bs.length) && decide (bs.length ≤ 1500)

/-- A group map names 2 to 8 distinct members, or one (R377, R378). -/
def groupMapOk (m : GroupMap) : Bool := decide (m.members.length ≤ 8) && decide m.members.Nodup

/-- A write to `GLOW_LOAD_WIN` stays in the window (R441). -/
def loadWinOk (offset : BitVec 16) (data : List Byte) : Bool := decide (offset.toNat + data.length ≤ 65536)

/-- A measured load is a percentage (R438). -/
def percentOk (n : Nat) : Bool := decide (n ≤ 100)

/-- Lanterns named late are named once. -/
def lateOk (late : List Phys) : Bool := decide late.Nodup

/-- Whether a command is one that the block can be given. -/
def Instr.wellFormed (i : Instr) : Bool :=
  match i with
  | .goalSet _ record => goalRecordOk record
  | .seedsLoad _ buffer => seedBufferOk buffer
  | .poll doorbell descs => pollOk doorbell descs
  | .deviceReattach doorbell replay => pollOk doorbell replay
  | .ringEnable _ _ replay => replay.all fun d => sizeIs 64 d.bytes
  | .slotBoundary late => lateOk late
  | .wickInstruction _ cycles ops _ => instructionOk cycles ops
  | .helloReceived frame _ => motionFrameOk frame
  | .jointStateReceived frame _ => motionFrameOk frame
  | .groupMapIssue map => groupMapOk map
  | .groupMapReceived map _ => groupMapOk map
  | .spoutSend _ _ msg => messageOk msg
  | .debugAccess place _ _ => placeAligned place
  | .glowLoadMeasure busyPercent => percentOk busyPercent
  | .glowLoadWinWrite offset data => loadWinOk offset data
  | _ => true

end Sys2Proof
end

