-- ==== Sys2Proof/Safety.lean ====
section
/-! DEFINITION. The notions in which the statements speak of safe states and runs: when a unit answers, what stays as it
was, and the invariants that every step keeps. -/

namespace Sys2Proof.Machine

open Sys2Proof

/-! ## When a unit answers -/

/-- The hub is powered and out of reset: its registers and units take commands (R500). -/
abbrev Live (s : State) : Prop := s.pwr.hub = true

/-- The host reaches the hub: the hub is up and PERST_N is high, so that the PCIe controller is out of reset (R472). -/
abbrev OnLink (s : State) : Prop := s.pwr.hub = true ∧ s.pwr.perstN = true

/-- The device is in service: the compute and memory-side dies take commands too. -/
abbrev Served (s : State) : Prop := s.pwr.hub = true ∧ s.pwr.ready = true ∧ s.safety.state = .service

/-! ## Frames -/

/-- The units that no planning or memory command writes: fuses, power registers, grid, lantern numbering, host
interface, spouts, security and management. -/
def SameBoard (s t : State) : Prop :=
  t.fuses = s.fuses ∧ t.pwr = s.pwr ∧ t.grid = s.grid ∧ t.map = s.map ∧ t.mapSet = s.mapSet ∧ t.host = s.host ∧ t.spout = s.spout
    ∧ t.sec = s.sec ∧ t.mgmt = s.mgmt ∧ t.pending = s.pending

/-- Rings, sluice tables, descriptors and jobs. -/
def SameWork (s t : State) : Prop :=
  t.rings = s.rings ∧ t.sluice = s.sluice ∧ t.descs = s.descs ∧ t.jobs = s.jobs

/-- The world, the ports and the group. -/
def SameField (s t : State) : Prop :=
  t.world = s.world ∧ t.motion = s.motion ∧ t.klink = s.klink

/-- The fault handler and the log. -/
def SameFaults (s t : State) : Prop := t.safety = s.safety ∧ t.ember = s.ember

/-- Lanterns and memories. -/
def SameFabric (s t : State) : Prop := t.lanterns = s.lanterns ∧ t.mem = s.mem ∧ t.free = s.free

/-! ## Places and operations -/

/-- The place has memory behind it. -/
abbrev PlaceExists (s : State) (pl : Place) : Prop := placeHas s pl (placeAddr pl) = true

/-- A wick operation that acts on its wick's registers and accumulators alone. -/
def registerOp : WickOp → Bool
  | .idle | .mac .. | .bias .. | .alu .. | .cmpx .. | .shift .. | .align .. | .drain .. | .setPred .. => true
  | .pred _ _ op => registerOp op
  | .gatherRead .. | .gatherWrite .. | .gatherAtomic .. | .mesh .. | .eccRead .. | .stage _ => false

/-- The descriptor that a reference names has completed with a result. -/
def DoneAs (s : State) (r : JobRef) (res : Result) : Prop :=
  (findDesc s r).map (·.stage) = some (.done res)

/-- The result of a descriptor that completes `OK`, `OK_REPLAYED` when it is re-executed (R329). -/
def okResult (d : DescEntry) (detail : Nat) : Result :=
  plainResult (if d.replayed then .okReplayed else .ok) detail

/-! ## Start-up -/

/-- What a start-up without a failure meets: a cool part, good fuses and configuration, dies that train, lanterns that
pass and a reflector that passes. -/
def StartClean (s : State) (o : StartupObs) : Prop :=
  o.trimTest = false ∧ o.hottest < tempWarnAt s ∧ o.fusesOk = true ∧ o.cfgOk = true ∧ o.ddrFail = 0
    ∧ o.d2dFail = 0 ∧ o.selftestFail = [] ∧ logicalMap s.fuses ≠ [] ∧ o.reflectorOk = true

/-- Start-up is complete and the device serves. -/
def Started (s : State) : Prop :=
  s.pwr.ready = true ∧ s.pwr.step = 10 ∧ s.pwr.hub = true ∧ s.safety.state = .service ∧ s.grid.running = true

/-! ## Invariants -/

/-- The data memories are in canonical form (log 4), and with them the window copies that jobs, and descriptors to
be re-executed, hold. -/
def MemWf (s : State) : Prop :=
  s.mem.cistern.wf ∧ s.mem.dram.wf ∧ (∀ p : Phys, (lant s p).basin.wf) ∧ (∀ j ∈ s.jobs, j.win.wf)
    ∧ (∀ d ∈ s.descs, ∀ j, d.resume = some j → j.win.wf)

/-- In HALT, STOP_REQ_N is asserted and no hand-off has followed that assertion (R285, R308). -/
def HaltStops (s : State) : Prop := s.safety.state = .halt → s.pwr.stop = true ∧ s.safety.handed = false

end Sys2Proof.Machine
end

