-- ==== Sys2Proof/Certificates/Slice0/Obligations.lean ====
section
/-! DEFINITION. The statements for the provers. -/

open Sys2Proof Sys2Proof.Machine

/-! ## The queue and the registers -/

/-- A step runs the command at the front of the queue on the state with the queue's rest; no command ends in a fault or
a refusal, whatever the state. -/
def Obligations.StepRunsFrontCommand : Prop :=
  (∀ (s : State) (c : Instr) (rest : List Instr), s.pending = c :: rest →
    step s = exec c { s with pending := rest })
  ∧ ∀ (s : State) (c : Instr), ∃ t, exec c s = .next t

/-- MODEL'S CHOICE (log 5): on an empty queue one pilot tick of 31.25 ns passes, which moves pilot time (R461), the slot
grid and 802.1AS time and nothing else; before power-on nothing happens. -/
def Obligations.IdleStepIsOneTick : Prop :=
  ∀ s : State, s.pending = [] →
    (s.pwr.pwrGood = false → step s = .next s)
    ∧ (s.pwr.pwrGood = true → step s = .next { s with
        pwr := { s.pwr with ticks := s.pwr.ticks + 1 }
        grid := { s.grid with
          sub := if s.grid.running then s.grid.sub + 125 else s.grid.sub
          asTime := if s.pwr.hub then s.grid.asTime + 125 else s.grid.asTime } })

/-- R52, R80, R248: a write of `BASIN_POOL_MODE`, `PLAN_GRID` or `SPEC_CTRL` is read back at once and is not yet in force;
a `PERIOD` outside 25 to 800 leaves the register as it was.

R312, R506: an access of another size or alignment is completed as Unsupported Request: it sets `ACCESS_UR` and has
no other effect, whatever BAR, offset and direction.

R8, R9, R322, R499, R506, R507: the write of a W1C register clears the bits written 1, and a bit that the device sets
in the cycle of the write reads 1 afterwards; `GLB_MEM_WIN` takes its fields; an
8 B write of a ring's base pair sets both halves, with bits [11:0] ignored, while the ring's STATE is 0 and is ignored
otherwise. The shadow header has been written before, so that no write is the first of its base (R472). -/
def Obligations.RegisterWrites : Prop :=
  (∀ (s : State) (v : W32), OnLink s →
      (exec (.basinPoolModeWrite v) s =
          .next { s with mem := { s.mem with poolReg := bit v.toNat 0, poolPend := true } })
      ∧ (25 ≤ bits v.toNat 9 0 ∧ bits v.toNat 9 0 ≤ 800 → exec (.planGridWrite v) s =
          .next { s with grid := { s.grid with
            regPeriod := bits v.toNat 9 0, regRetain := bits v.toNat 19 16, pending := true } })
      ∧ (bits v.toNat 9 0 < 25 ∨ 800 < bits v.toNat 9 0 → exec (.planGridWrite v) s = .next s)
      ∧ (exec (.specCtrlWrite v) s = .next { s with sluice := { s.sluice with specReg := bit v.toNat 0 } }))
  ∧
  (∀ (s : State) (bar : Bar) (off : BitVec 24) (size : AccSize) (v x : W64), OnLink s →
      (size = .other ∨ (size = .b4 ∧ off.toNat % 4 ≠ 0) ∨ (size = .b8 ∧ off.toNat % 8 ≠ 0)) →
      exec (.registerWrite bar off size v x) s = .next { s with host := { s.host with ur := true } }
      ∧ exec (.rcFieldRead bar off size x) s = .next { s with host := { s.host with ur := true } })
  ∧
  (∀ (s : State) (v x : W64) (r : RingId), OnLink s → s.rings.header ≠ [] →
      (exec (.registerWrite .bar0 0x0008 .b4 v x) s = .next { s with host := { s.host with
          collide := s.host.collide && !v.getLsbD 0 || x.getLsbD 0, ur := s.host.ur && !v.getLsbD 1 || x.getLsbD 1 } })
      ∧ (exec (.registerWrite .bar0 0x0010 .b4 v x) s = .next { s with mem := { s.mem with
          memWin := BitVec.ofNat 32 (v.toNat % 2 ^ 32) &&& 0x003F_FFFB } })
      ∧ ((ringGet s r).state = .off → ∃ t, exec (.registerWrite .bar0 (BitVec.ofNat 24 (0x10000 + 0x40 * r.val)) .b8 v x) s
            = .next t ∧ t = setRing s r { ringGet s r with base := BitVec.ofNat 64 (v.toNat / 4096 * 4096) })
      ∧ ((ringGet s r).state ≠ .off →
          exec (.registerWrite .bar0 (BitVec.ofNat 24 (0x10000 + 0x40 * r.val)) .b8 v x) s = .next s))

/-- R8, R10, R501: a host read of a register with RC fields returns the word as it was, clears those fields and changes
nothing else; a field into which the device counts an event in the cycle of the read holds 1 afterwards.

R351, R461, R477, R502: a 4 B read of `SLUICE_TRACE_WIN` outside doze returns the word of the record at its position
from the cursor on, 0 where no record has been written; a read of `PILOT_TIME_LO` returns pilot time [31:0] and latches
[47:32]. Neither changes anything else. -/
def Obligations.ReadsWithEffects : Prop :=
  (∀ (s : State) (c : W64), OnLink s →
      let got := fun (off : Nat) => BitVec.ofNat 64 (readReg s off)
      let left := fun (k w : Nat) => BitVec.ofNat w (if c.getLsbD k then 1 else 0)
      (exec (.rcFieldRead .bar0 0x2008 .b4 c) s = .next { s with
          safety := { s.safety with disSlots := left 16 16 }, host := { s.host with busRead := got 0x2008 } })
      ∧ (exec (.rcFieldRead .bar0 0x3000C .b4 c) s = .next { s with
          world := { s.world with dirFull := left 0 16, fuseCutoff := left 16 16 }
          host := { s.host with busRead := got 0x3000C } })
      ∧ (exec (.rcFieldRead .bar0 0x30014 .b4 c) s = .next { s with
          sluice := { s.sluice with confirmed := left 0 16, aborted := left 16 16 }
          host := { s.host with busRead := got 0x30014 } })
      ∧ (exec (.rcFieldRead .bar0 0x50014 .b4 c) s = .next { s with
          motion := { s.motion with tagFail := left 8 8 }, host := { s.host with busRead := got 0x50014 } })
      ∧ (exec (.rcFieldRead .bar0 0x0204 .b4 c) s = .next { s with
          mgmt := { s.mgmt with viol := left 16 8 }, host := { s.host with busRead := got 0x0204 } })
      ∧ (∀ p : Fin 4, exec (.rcFieldRead .bar0 (BitVec.ofNat 24 (0x60010 + 4 * p.val)) .b4 c) s = .next { s with
          klink := { s.klink with ports := s.klink.ports.set p { s.klink.ports.get p with crcErr := left 16 16 } }
          host := { s.host with busRead := got (0x60010 + 4 * p.val) } })
      ∧ (∀ (n : Fin 32) (p : Phys), physOf s n.val = some p →
          exec (.rcFieldRead .bar0 (BitVec.ofNat 24 (0x40100 + 4 * n.val)) .b4 c) s = .next { s with
            lanterns := s.lanterns.set p { lant s p with eccCorr := left 16 16 }
            host := { s.host with busRead := got (0x40100 + 4 * n.val) } }))
  ∧
  (∀ (s : State) (off : BitVec 12), OnLink s →
      let word : Nat := match s.sluice.trace.find ((s.sluice.cursor.toNat + off.toNat / 32) % 16384) with
        | some t => field (traceBytes t) (off.toNat % 32) 4
        | none => 0
      (s.pwr.pstate ≠ .doze → off.toNat % 4 = 0 →
        exec (.traceWinRead off .b4) s = .next { s with host := { s.host with busRead := BitVec.ofNat 64 word } })
      ∧ exec .pilotTimeRead s = .next { s with
          host := { s.host with busRead := BitVec.ofNat 64 (s.pwr.ticks % 2 ^ 32) }
          pwr := { s.pwr with timeHi := BitVec.ofNat 16 (s.pwr.ticks / 2 ^ 32) } })

/-- R312, R507: what the host writes through the device memory window to a byte range of a basin or of the cistern that is
awake, or of DRAM while no host access waits for an idle device, is what its next read of the same offset returns; the
write changes the bytes at that place and nothing else. A basin is that of a lantern which the fuses do not disable (R1), and
no rill-side access waits at it (R54).

R67, R507: a host access to DRAM while no host window is configured and a job runs waits, in order; with SPACE 3, or
at an address that the selected space does not have, a read through the window returns 0 and a write is ignored. MODEL'S
CHOICE (log 133): so do the memories of dies that are in reset.

R44, R58, R413: while the JTAG functions are disabled no debug access or attachment has an effect. Otherwise an
attachment sets `DEBUG_SEEN` and extends M7 by event code 3, and a debug access wakes the memory that it reaches and is
then performed on the 8 B word in which its address lies, where no rill-side access waits: a read returns the word, a write
stores it. MODEL'S CHOICE (log 133): of dies in reset a read returns 0 and a write is ignored. -/
def Obligations.HostMemoryAccess : Prop :=
  (∀ (s : State) (off : BitVec 22) (size : AccSize) (v : W64) (pl : Place), OnLink s → s.pwr.pstate ≠ .doze →
      diesReset s = false → (∀ p a, pl = .basin p a → (lant s p).rill = []) →
      accOk size off.toNat = true → winPlace s off.toNat = some pl → PlaceExists s pl → placeAsleep s pl = false →
      ((∃ a, pl = .dram a) → hostWaits s = false) →
      let t := placeWrite s pl (leBytes (accBytes size) v.toNat)
      exec (.memWindowAccess off size true v) s = .next t
      ∧ exec (.memWindowAccess off size false 0) t = .next { t with
          host := { t.host with busRead := BitVec.ofNat 64 (v.toNat % 2 ^ (8 * accBytes size)) } })
  ∧
  (∀ (s : State) (off : BitVec 22) (w : Bool) (v : W64) (a : Nat), OnLink s → s.pwr.pstate ≠ .doze → off.toNat % 8 = 0 →
      (diesReset s = false → winPlace s off.toNat = some (.dram a) → hostWaits s = true →
        exec (.memWindowAccess off .b8 w v) s = .next { s with
          mem := { s.mem with waits := s.mem.waits ++ [⟨a, 8, w, v⟩] } })
      ∧ (winPlace s off.toNat = none ∨ diesReset s = true →
          exec (.memWindowAccess off .b8 true v) s = .next s
          ∧ exec (.memWindowAccess off .b8 false v) s = .next { s with host := { s.host with busRead := 0 } }))
  ∧
  (∀ (s : State) (pl : Place) (w : Bool) (v : W64), Live s →
      let at_ := placeWord pl
      (s.sec.debugOff = true → exec (.debugAccess pl w v) s = .next s ∧ exec .debugAttach s = .next s)
      ∧ (s.sec.debugOff = false →
          exec .debugAttach s = .next (extendEvent { s with sec := { s.sec with debugSeen := true } } 3)
          ∧ (diesReset s = true → exec (.debugAccess pl true v) s = .next s
              ∧ exec (.debugAccess pl false v) s = .next { s with host := { s.host with busRead := 0 } })
          ∧ (diesReset s = false → (∀ p a, pl = .basin p a → (lant s p).rill = []) →
            (∃ t, exec (.debugAccess pl false v) s = .next t ∧ placeAsleep t at_ = false
              ∧ t.host.busRead = word8 (placeRead s at_ 8) ∧ placeRead t at_ 8 = placeRead s at_ 8)
            ∧ (∃ t, exec (.debugAccess pl true v) s = .next t ∧ placeAsleep t at_ = false
              ∧ (PlaceExists s pl → placeRead t at_ 8 = leBytes 8 v.toNat)))))

/-! ## Fabric and memory -/

/-- R60, R66, R94, R97, R98: the command that stands next in its job's control stream, with its stamped cycle, issues: a
planned read, a transfer between lanterns or with the hub and a multicast take flight with the data as it is at issue,
to be delivered 64 cycles (fabric), 96 cycles (hub), 320 cycles (cistern) or 1,024 cycles (DRAM, in a plan window) after
issue, and change nothing else, sleeps that were waiting apart. No access waits at the rill side of either lantern.

R60: a plan read of the cistern or of DRAM returns the bytes that the memory holds, wherever no plan write to them may
still be incomplete. -/
def Obligations.TransfersTakeFlight : Prop :=
  (∀ (s : State) (x : PlanXfer) (job : JobRef) (p q : Phys) (src : Logical) (cycle addr srcAddr : Nat) (mask : W32)
        (data : List Byte), Served s → physOf s x.x.basin.val = some p → physOf s src.val = some q →
      (lant s p).rill = [] → (lant s q).rill = [] →
      let at_ := fun (r : JobRef) (c : Nat) => settleSleep (popStream s r) (s.grid.base + c)
      let go := fun (s1 : State) (f : Flight) =>
        { s1 with mem := { s1.mem with flights := s1.mem.flights ++ [f], nextId := s1.mem.nextId + 1 } }
      let fly : JobRef → Nat → List Phys → Nat → List Byte → Option Place → Flight := fun r due dests at_ bytes source =>
        { id := s.mem.nextId, job := r, due := s.grid.base + due, cistern := false, dests, addr := at_, data := bytes
          source, hub := false, done := [], taken := [] }
      let s1 := at_ x.job x.cycle
      let s2 := at_ job cycle
      (issues s x.job x.cycle (.rill x.x (.lantern src)) = true → placeAsleep s1 (.basin q x.x.far) = false →
        exec (.rillTransfer x (.lantern src)) s = .next (go s1 (fly x.job (x.cycle + 64) [p] x.x.addr
          (placeRead s1 (.basin q x.x.far) x.x.bytes) (some (.basin q x.x.far)))))
      ∧ (issues s x.job x.cycle (.rill x.x (.fromHub data)) = true →
        exec (.rillTransfer x (.fromHub data)) s =
          .next (go s1 (fly x.job (x.cycle + 96) [p] x.x.addr (slice data 0 x.x.bytes) none)))
      ∧ (issues s x.job x.cycle (.rill x.x .toHub) = true → placeAsleep s1 (.basin p x.x.addr) = false →
        exec (.rillTransfer x .toHub) s = .next (go s1 { fly x.job (x.cycle + 96) [] 0
          (placeRead s1 (.basin p x.x.addr) x.x.bytes) (some (.basin p x.x.addr)) with hub := true }))
      ∧ (issues s job cycle (.multicast mask addr src srcAddr) = true → placeAsleep s2 (.basin q srcAddr) = false →
        exec (.multicast job cycle mask addr src srcAddr) s = .next (go s2 (fly job (cycle + 64) (maskPhys s mask) addr
          (placeRead s2 (.basin q srcAddr) 64) (some (.basin q srcAddr)))))
      ∧ (issues s x.job x.cycle (.cisternRead x.x) = true → rangeAsleep s1 (.cistern x.x.far) x.x.bytes = false →
        exec (.cisternRead x) s = .next (go s1 { fly x.job (x.cycle + 320) [p] x.x.addr
          (planRead s1 x.job (.cistern x.x.far) x.cycle x.x.bytes) (some (.cistern x.x.far)) with cistern := true }))
      ∧ (issues s x.job x.cycle (.dramRead x.x) = true → planWindow s x.cycle = true →
        exec (.dramRead x) s = .next (go s1 (fly x.job (x.cycle + 1024) [p] x.x.addr
          (planRead s1 x.job (.dram x.x.far) x.cycle x.x.bytes) (some (.dram x.x.far))))))
  ∧
  (∀ (s : State) (r : JobRef) (cycle a n : Nat),
      (∀ w ∈ s.mem.recent, w.until_ ≤ s.grid.base + cycle) →
      planRead s r (.cistern a) cycle n = placeRead s (.cistern a) n
      ∧ planRead s r (.dram a) cycle n = placeRead s (.dram a) n)

/-- R60, R66, R94: a plan write from an awake basin to an awake place stores the basin's bytes at the far address and no
others; until its latency has elapsed (320 cycles, or the end of its DRAM window) a plan read of them is open. -/
def Obligations.PlanWritesStore : Prop :=
  ∀ (s : State) (x : PlanXfer) (p : Phys), Served s → physOf s x.x.basin.val = some p → (lant s p).rill = [] →
    let now := s.grid.base + x.cycle
    let s1 := settleSleep (popStream s x.job) now
    placeAsleep s1 (.basin p x.x.addr) = false →
    let stored := fun (pl : Place) (isDram : Bool) (until_ : Nat) =>
      let s2 := placeWrite s1 pl (placeRead s1 (.basin p x.x.addr) x.x.bytes)
      { s2 with mem := { s2.mem with
        recent := ⟨s.mem.nextId, isDram, x.x.far, x.x.bytes, until_, .basin p x.x.addr, []⟩
          :: s.mem.recent.filter fun w => now < w.until_
        nextId := s.mem.nextId + 1 } }
    (issues s x.job x.cycle (.cisternWrite x.x) = true → rangeAsleep s1 (.cistern x.x.far) x.x.bytes = false →
      exec (.cisternWrite x) s = .next (stored (.cistern x.x.far) false (now + 320)))
    ∧ (issues s x.job x.cycle (.dramWrite x.x) = true → planWindow s x.cycle = true →
      exec (.dramWrite x) s =
        .next (stored (.dram x.x.far) true (s.grid.base + (x.cycle / 625 + 1) * 625)))

/-- The memory operations behind every store: afterwards a byte in the stored range is the byte stored, where its address
exists, and every other byte reads as before. -/
def Obligations.WritesAreLocal : Prop :=
  ∀ (r : Ram) (a b : Nat) (bs : List Byte) (has : Nat → Bool),
    (r.writeN a bs).read b = (if a ≤ b ∧ b < a + bs.length then nth bs (b - a) 0 else r.read b)
    ∧ (r.writeWhere has a bs).read b =
        if a ≤ b ∧ b < a + bs.length ∧ has b = true then nth bs (b - a) 0 else r.read b

/-- R57, R66: a plan access outside the plan windows, or to a memory in retention, is not performed: a read takes flight
with zeros, a write stores nothing, an S2 event is logged and the job is to fail at the end of its last slot. -/
def Obligations.RefusedPlanAccesses : Prop :=
  ∀ (s : State) (x : PlanXfer) (p : Phys) (j : Job), Served s → physOf s x.x.basin.val = some p →
    findJob s x.job = some j → j.endAs = .none → s.safety.queue.length < 8 →
    let s1 := settleSleep (popStream s x.job) (s.grid.base + x.cycle)
    let kept := fun (t : State) (cls : EventClass) =>
      findJob t x.job = some { j with stream := j.stream.drop 1, endAs := .fault cls }
        ∧ t.mem.cistern = s.mem.cistern ∧ t.mem.dram = s.mem.dram ∧ t.lanterns = s1.lanterns
    let zero := fun (t : State) (lat : Nat) (cis : Bool) =>
      t.mem.flights = s.mem.flights ++ [⟨s.mem.nextId, x.job, s.grid.base + x.cycle + lat, cis, [p], x.x.addr,
        List.replicate x.x.bytes 0, none, false, [], []⟩]
    (planWindow s x.cycle = false →
      (issues s x.job x.cycle (.dramRead x.x) = true →
        ∃ t, exec (.dramRead x) s = .next t ∧ kept t .memDdrWindow ∧ zero t 1024 false)
      ∧ (issues s x.job x.cycle (.dramWrite x.x) = true →
        ∃ t, exec (.dramWrite x) s = .next t ∧ kept t .memDdrWindow ∧ t.mem.flights = s.mem.flights))
    ∧ (rangeAsleep s1 (.cistern x.x.far) x.x.bytes = true →
      (issues s x.job x.cycle (.cisternRead x.x) = true →
        ∃ t, exec (.cisternRead x) s = .next t ∧ kept t .memRetainedAccess ∧ zero t 320 true)
      ∧ (issues s x.job x.cycle (.cisternWrite x.x) = true →
        ∃ t, exec (.cisternWrite x) s = .next t ∧ kept t .memRetainedAccess ∧ t.mem.flights = s.mem.flights))

/-- R44, R56, R60, R62, R97, R100: when the latency of a transfer has elapsed, its data is stored in each destination
basin, at the address it was sent to, or given to the hub, and no other byte of a basin changes; a memory whose sleep
waited for the transfer goes into retention. Data that has not arrived raises `CISTERN_LATE` or `RILL_LATE`. -/
def Obligations.DeliveryStores : Prop :=
  ∀ (s : State) (f : Flight), Served s → s.mem.flights.find? (fun g => g.id == f.id) = some f →
    let s1 := { s with mem := { s.mem with flights := s.mem.flights.filter fun g => g.id != f.id } }
    (f.done = [] → f.dests.Nodup → (∀ p ∈ f.dests, (lant s p).retain.asleep = false) →
      ∃ t, exec (.plannedDelivery f.id true) s = .next t
        ∧ SameBoard s t ∧ SameWork s t ∧ SameField s t ∧ SameFaults s t ∧ t.free = s.free
        ∧ t.mem.flights = s1.mem.flights ∧ t.mem.cistern = s.mem.cistern ∧ t.mem.dram = s.mem.dram
        ∧ t.mem.hubIn = (if f.hub then s.mem.hubIn ++ [(f.job, f.data)] else s.mem.hubIn)
        ∧ (∀ p, (lant t p).retain = if (lant s p).retain = .sleeping ∧ inFlight s1 f.due (.basin p) = false then .retained
            else (lant s p).retain)
        ∧ ∀ p a, (lant t p).basin.read a =
            if p ∈ f.dests ∧ f.addr ≤ a ∧ a < f.addr + f.data.length ∧ a < basinSize ∧ isDisabled s.fuses p = false then
              nth f.data (a - f.addr) 0
            else (lant s p).basin.read a)
    ∧ exec (.plannedDelivery f.id false) s =
        .next (raise s1 (if f.cistern then .cisternLate else .rillLate) [])

/-- R56, R81, R94: a sleep command puts a basin or a bank group into retention, once the accesses in flight have
completed; a wake makes it accessible 12 µs or 20 µs later, and the completion of the wake does; waking an awake memory,
or putting a retained one to sleep, has no effect. Contents stay. -/
def Obligations.RetentionCommands : Prop :=
  ∀ (s : State) (job : JobRef) (cycle : Nat) (n : Logical) (p : Phys) (g : Fin 48), Served s →
    physOf s n.val = some p →
    let now := s.grid.base + cycle
    let s1 := settleSleep (popStream s job) now
    let lanternAs := fun (r : Retain) => setLant s1 p { lant s1 p with retain := r }
    let groupAs := fun (r : Retain) => { s1 with
      mem := { s1.mem with groups := s1.mem.groups.set g r } }
    (issues s job cycle (.sleep (.basin n)) = true →
      ((lant s p).retain = .awake → exec (.memorySleep job cycle (.basin n)) s =
        .next (lanternAs (if inFlight s now (.basin p) then .sleeping else .retained)))
      ∧ ((lant s p).retain = .retained → exec (.memorySleep job cycle (.basin n)) s =
          .next (lanternAs .retained)))
    ∧ (issues s job cycle (.sleep (.group g)) = true → s.mem.groups.get g = .awake →
        exec (.memorySleep job cycle (.group g)) s =
          .next (groupAs (if inFlight s now (.group g) then .sleeping else .retained)))
    ∧ (issues s job cycle (.wake (.basin n)) = true →
      ((lant s p).retain = .retained → exec (.memoryWake job cycle (.basin n)) s =
        .next (lanternAs (.waking (s.pwr.ticks + 384))))
      ∧ ((lant s p).retain = .awake → exec (.memoryWake job cycle (.basin n)) s = .next (lanternAs .awake)))
    ∧ (issues s job cycle (.wake (.group g)) = true → s.mem.groups.get g = .retained →
        exec (.memoryWake job cycle (.group g)) s = .next (groupAs (.waking (s.pwr.ticks + 640))))
    ∧ (∀ u, (lant s p).retain = .waking u → (lant s p).job.isNone = true →
        exec (.memoryWakeComplete (.basin p)) s =
          .next (setLant s p { lant s p with retain := .awake, idle := some 1 }))
    ∧ (∀ u, s.mem.groups.get g = .waking u → exec (.memoryWakeComplete (.group g)) s =
        .next { s with mem := { s.mem with groups := s.mem.groups.set g .awake } })

/-- R53: what the four atomics store and return. MODEL'S CHOICE (log 82): the upper half of what a 32-bit atomic returns
is 0.

R53, R55, R94: a valid atomic on an awake memory stores its result in place, returns the word held before it and changes
nothing else; a misaligned one, or one at a basin bank other than 62 and 63, is not performed, returns all ones and fails
its job with `MEM_ATOMIC_INVALID`. A DMA access that a plan issues is the next command of its job's control stream, with its
stamped cycle (R94); sleeps that were waiting settle at it. The host's come over a link that is up, and debug's while its
functions are enabled. -/
def Obligations.AtomicsAct : Prop :=
  (∀ o x : W64,
      let lo := fun (v : W64) => v.toNat % 2 ^ 32
      (atomicOn .add32 o x).1.toNat = o.toNat / 2 ^ 32 * 2 ^ 32 + (lo o + lo x) % 2 ^ 32
      ∧ sgn 32 (atomicOn .addSat32 o x).1.toNat =
          max (-2147483648) (min 2147483647 (sgn 32 o.toNat + sgn 32 x.toNat))
      ∧ (atomicOn .swap32 o x).1.toNat = o.toNat / 2 ^ 32 * 2 ^ 32 + lo x
      ∧ atomicOn .swap64 o x = (x, o)
      ∧ ∀ op, op ≠ .swap64 → (atomicOn op o x).2.toNat = lo o)
  ∧
  (∀ (s : State) (req : Requester) (pl : Place) (op : AtomicOp) (x : W64), Served s →
      let n := atomicBytes op
      let r := atomicOn op (word8 (placeRead s pl n)) x
      let s1 := match req with
        | .dma _ (some (j, c)) => settleSleep (popStream s j) (s.grid.base + c)
        | _ => s
      (∀ q a, pl = .basin q a → (lant s q).rill = []) →
      (∀ e j c, req = .dma e (some (j, c)) → issues s j c (.dma e (.atomic pl op x)) = true) →
      (req = .host → s.pwr.perstN = true) → (req = .debug → s.sec.debugOff = false) →
      (atomicValid pl op = true → placeAsleep s1 pl = false → s.pwr.pstate ≠ .doze →
        exec (.atomicOperation req pl op x) s = .next (reqReturn (placeWrite s1 pl (leBytes n r.1.toNat)) req r.2))
      ∧ (atomicValid pl op = false → exec (.atomicOperation req pl op x) s =
          .next (reqReturn (match reqJob s req with
            | some j => raiseFor s1 .memAtomicInvalid [] j
            | none => raise s1 .memAtomicInvalid []) req (BitVec.allOnes 64))))

/-- R26 to R28, R94: a context switch on a lantern that executes completes 64 cycles after its issue, or after the end of
the switch in progress; a context load replaces a context that is inactive in its cycle with one of the job's image, and one
that targets the context active then, or one that a switch in progress is about to make active, is not performed and fails
the job with `CFG_LOAD_ACTIVE`. Active is the target of the last switch that has ended by the cycle. -/
def Obligations.ContextCommands : Prop :=
  ∀ (s : State) (p : Phys) (c : Fin 4) (job : JobRef) (cycle number : Nat) (n : Logical) (j : Job), Served s →
    let l := lant s p
    let s1 := settleSleep (popStream s job) (s.grid.base + cycle)
    (executes s p = true →
      (l.switches = [] → exec (.contextSwitch p c) s = .next (setLant s p { l with switches := [(c, l.cycle + 64)] }))
      ∧ (∀ t e, l.switches.getLast? = some (t, e) → exec (.contextSwitch p c) s =
          .next (setLant s p { l with switches := l.switches ++ [(c, max l.cycle e + 64)] })))
    ∧ (issues s job cycle (.contextLoad n c number) = true → findJob s job = some j → physOf s n.val = some p →
      let active := ((l.switches.filter fun e => e.2 ≤ cycle).getLast?.map (·.1)).getD l.ctx
      (active ≠ c → (∀ e ∈ l.switches, cycle < e.2 → e.1 ≠ c) → exec (.contextLoad job cycle n c number) s =
          .next (setLant s1 p { lant s1 p with contexts := l.contexts.set c.val (j.img.ctxAt number) }))
      ∧ (active = c ∨ (∃ e ∈ l.switches, cycle < e.2 ∧ e.1 = c) → exec (.contextLoad job cycle n c number) s =
          .next (raiseFor s1 .cfgLoadActive [] job)))

/-- R21, R22, R37, R39: a register operation of one wick, on a lantern that executes with no switch in progress, acts
where its predicates hold and writes that wick's registers, accumulators and predicates only, takes the cycles that the
instruction states and adds the elements it counts, 8 at most, to the lantern's range counter, which saturates; an ALU add sums four
consecutive registers. Where no offer waits for the lantern's list (R215), nothing outside the lantern changes but its
job, whose candidates are marked (R40) and whose solves are judged (R190). -/
def Obligations.WickRegisterOps : Prop :=
  ∀ (s : State) (p : Phys) (w : Fin 64) (op : WickOp) (n : Nat), Served s → executes s p = true →
    (lant s p).switches = [] → (lant s p).rill = [] → registerOp op = true →
    let k := wickGet (lant s p) w.val
    let r := localOp (activeCtx (lant s p)) k k (underPreds k op)
    ∃ t, exec (.wickInstruction p n [(w, op)] []) s = .next t
      ∧ wickGet (lant t p) w.val = r.1
      ∧ (∀ v, v ≠ w.val → wickGet (lant t p) v = wickGet (lant s p) v)
      ∧ (lant t p).rangeCtr.toNat = min ((lant s p).rangeCtr.toNat + min 8 r.2) 0xFFFF_FFFF
      ∧ (lant t p).cycle = (lant s p).cycle + n
      ∧ ((lant s p).offers = [] → (lant s p).fresh = [] → (lant t p).basin = (lant s p).basin ∧ (∀ q, q ≠ p → lant t q = lant s q)
        ∧ SameBoard s t ∧ SameField s t ∧ SameFaults s t ∧ t.mem = s.mem ∧ t.rings = s.rings ∧ t.descs = s.descs
        ∧ t.sluice = s.sluice)
      ∧ (∀ rd ra rb, op = .alu .add rd ra rb → ∀ i < 4,
          regGet r.1 (rd.toNat + i) = regGet k (ra.toNat + i) + regGet k (rb.toNat + i))

/-- R21, R22, R29, R46, R53, R57: with nothing waiting at the pool's rill side or for the lantern's list, a gather read of an awake basin loads two
registers with the 8 B word, a gather write stores the enabled bytes of two registers and no others, a gather atomic on a
word of the pool stores its result and loads the old word, a mesh transfer writes the neighbour's registers, a gather
access of a basin in retention is not performed and reads zeros, an operation whose predicate does not hold acts on
nothing, and an error in a lantern's stores is counted, or raises `FABRIC_ECC_FATAL`. -/
def Obligations.WickMemoryOps : Prop :=
  ∀ (s : State) (p : Phys) (w : Fin 64) (n a : Nat) (rd ra be : BitVec 8), Served s → executes s p = true →
    (lant s p).switches = [] → (lant s p).rill = [] → (lant s p).offers = [] → (lant s p).fresh = [] →
    let l := lant s p
    let k := wickGet l w.val
    let at_ := a % 0x80_0000 / 8 * 8
    (l.retain = .awake →
      (∃ t, exec (.wickInstruction p n [(w, .gatherRead a rd)] []) s = .next t
        ∧ wickGet (lant t p) w.val = putBytes k rd.toNat (l.basin.readN at_ 8) ∧ (lant t p).basin = l.basin
        ∧ (lant t p).cycle = l.cycle + n)
      ∧ (∃ t, exec (.wickInstruction p n [(w, .gatherWrite a be ra)] []) s = .next t ∧ wickGet (lant t p) w.val = k
        ∧ (lant t p).basin = l.basin.writeN at_ (mergeBytes be (l.basin.readN at_ 8) (regBytes k ra.toNat 2)))
      ∧ (∀ op, let pl := Place.basin p (a % 0x80_0000)
          let r := atomicOn op (word8 (placeRead s pl (atomicBytes op))) (word8 (regBytes k ra.toNat 2))
          atomicValid pl op = true → ∃ t, exec (.wickInstruction p n [(w, .gatherAtomic op a ra rd)] []) s = .next t
            ∧ wickGet (lant t p) w.val = putBytes k rd.toNat (leBytes 8 r.2.toNat)
            ∧ (lant t p).basin = (lant (placeWrite s pl (leBytes (atomicBytes op) r.1.toNat)) p).basin
            ∧ (lant t p).cycle = l.cycle + n + 1))
    ∧ (l.retain = .retained →
      (∃ t, exec (.wickInstruction p n [(w, .gatherRead a rd)] []) s = .next t
        ∧ wickGet (lant t p) w.val = putBytes k rd.toNat (List.replicate 8 0) ∧ (lant t p).basin = l.basin)
      ∧ (∃ t, exec (.wickInstruction p n [(w, .gatherWrite a be ra)] []) s = .next t ∧ (lant t p).basin = l.basin))
    ∧ (∀ d v, meshTo d w.val = some v → ∃ t, exec (.wickInstruction p n [(w, .mesh d ra rd)] []) s = .next t
        ∧ wickGet (lant t p) v = putBytes (wickGet l v) rd.toNat (regBytes k ra.toNat 8)
        ∧ wickGet (lant t p) w.val = k)
    ∧ (∀ (q : Fin 16) (want : Bool) (op : WickOp), k.preds.getLsbD q.val ≠ want → ∃ t, exec (.wickInstruction p n [(w, .pred q want op)] []) s = .next t
        ∧ (∀ v, wickGet (lant t p) v = wickGet l v) ∧ (lant t p).basin = l.basin)
    ∧ (∀ st, (∃ t, exec (.wickInstruction p n [(w, .eccRead st true)] []) s = .next t ∧ t.pwr.stop = true)
        ∧ ∃ t, exec (.wickInstruction p n [(w, .eccRead st false)] []) s = .next t ∧ (lant t p).eccCorr = satInc l.eccCorr)

/-- R36: a right shift by 1 to 47 rounds to the nearest multiple, ties to the even quotient; a shift of 0 is the identity;
a left shift is exact unless it leaves 48 bits, and then gives the bound that it passed and counts. -/
def Obligations.ShiftRounds : Prop :=
  ∀ (a s : Int), -(2 : Int) ^ 47 ≤ a → a < 2 ^ 47 →
    let q := (rheShift a s).1
    (s = 0 → rheShift a s = (a, false))
    ∧ (0 < s → s ≤ 47 →
        (rheShift a s).2 = false ∧ 2 * (a - q * 2 ^ s.toNat).natAbs ≤ 2 ^ s.toNat
        ∧ (2 * (a - q * 2 ^ s.toNat).natAbs = 2 ^ s.toNat → q % 2 = 0))
    ∧ (s < 0 →
        let v := a * 2 ^ (-s).toNat
        (-(2 : Int) ^ 47 ≤ v → v < 2 ^ 47 → rheShift a s = (v, false))
        ∧ (v < -(2 : Int) ^ 47 → rheShift a s = (-(2 : Int) ^ 47, true))
        ∧ ((2 : Int) ^ 47 ≤ v → rheShift a s = (2 ^ 47 - 1, true)))

/-! ## Planning, events and safety -/

/-- R167, R177: at the sampler's planned end a candidate whose queries are not done on that lantern takes the cut-off mark
and loses its samples; at the measurement transfer complete blocks move, to the lanterns that carry the assembler and no others, and a
checked seed without one is flagged and counted. -/
def Obligations.PlanningGuards : Prop :=
  ∀ (s : State) (job : JobRef) (j : Job) (l : Logical), Served s → findJob s job = some j →
    ((checkers j).contains l.val = true → ∃ t, exec (.budgetGuard job l) s = .next t
      ∧ findJob t job = some { j with cands := j.cands.map fun c =>
          if c.lantern = l.val ∧ c.queries < 1456 then
            { c with marks := c.marks ||| 8, coarse := [], fine := [], least := none }
          else c }
      ∧ SameBoard s t ∧ SameField s t ∧ SameFaults s t ∧ SameFabric s t ∧ t.rings = s.rings ∧ t.descs = s.descs)
    ∧ ((∀ p, (lant s p).retain.asleep = false) → ∃ t, exec (.measurementTransfer job) s = .next t
      ∧ (findJob t job).map (·.seeds) = some (j.seeds.map fun x =>
          if x.measured then { x with moved := true, status := x.status &&& ~~~ noMeasure }
          else if x.fresh ∧ j.slot ≠ 0 then x else { x with status := x.status ||| noMeasure })
      ∧ (findJob t job).map (·.counts.noMeasure) = some (j.counts.noMeasure
          + (j.seeds.filter fun x => decide (x.measured = false ∧ (x.fresh = false ∨ j.slot = 0))).length)
      ∧ SameBoard s t ∧ SameField s t ∧ SameFaults s t ∧ t.mem = s.mem ∧ t.free = s.free ∧ t.rings = s.rings
      ∧ t.descs = s.descs ∧ ∀ p, (∀ n ∈ stageLanterns j 4, physOf s n ≠ some p) → lant t p = lant s p)

/-- R41, R232, R238, R239, R242, R243: the epoch check of an `OUTPUT` slot. A run that was dispatched on the newest epoch's
master confirms every unmarked row that gives a sample. A speculative slot is compared with the masters of its epoch,
which, where that is the next one, the fusion run that ends with the slot has written by then: with no confirmed row it aborts and is counted; with one, it
loses its tag and is counted.

R237, R241: an attempt that may start takes the first row still to try and is counted; the periodic self-check raises
`REFLECTOR_FAULT` when it fails and nothing else. -/
def Obligations.EpochChecksAndAttempts : Prop :=
  (∀ (s : State) (job : JobRef) (j : Job), Served s → findJob s job = some j → checkDue j = true →
      let rows := topRows j
      (j.wasSpec = false → j.spec = false → ∃ t, exec (.epochCheck job) s = .next t
        ∧ (findJob t job).map (·.out) = some ⟨rows,
            (List.range rows.length).filter fun i => rowLive j (nth rows i default)
              && !(rowPairs j j.win j.winTe (nth rows i default)).isEmpty,
            true, 0, none⟩
        ∧ SameBoard s t ∧ SameField s t ∧ SameFaults s t ∧ SameFabric s t ∧ t.rings = s.rings ∧ t.sluice = s.sluice)
      ∧ (let u := if awaitsRun s j then settleRun s else s
        findJob u job = some j → j.wasSpec = true → j.spec = true → j.restored = false →
        let good := confirmedRows u j
        (j.endAs = .none → good = [] →
          ∃ t, exec (.epochCheck job) s = .next t ∧ t.sluice.aborted = satInc u.sluice.aborted
            ∧ t.sluice.confirmed = u.sluice.confirmed ∧ (findJob t job).map (·.endAs) = some .abort
            ∧ t.motion = u.motion)
        ∧ (good ≠ [] →
          ∃ t, exec (.epochCheck job) s = .next t ∧ t.sluice.confirmed = satInc u.sluice.confirmed
            ∧ t.sluice.aborted = u.sluice.aborted ∧ (findJob t job).map (·.spec) = some false
            ∧ (findJob t job).map (·.out) = some ⟨rows, good, true, 0, none⟩ ∧ t.motion = u.motion)))
  ∧
  (∀ (s : State) (job : JobRef) (j : Job), Served s → findJob s job = some j → mayAttempt s j = true →
      (∃ t, exec (.reflectorAttempt job) s = .next t
        ∧ findJob t job = some { j with tried := true, out := { j.out with
            active := j.out.confirmed.head?, attempts := j.out.attempts + 1 } }
        ∧ SameBoard s t ∧ SameField s t ∧ SameFaults s t ∧ SameFabric s t)
      ∧ exec (.reflectorSelfCheck true) s = .next s
      ∧ exec (.reflectorSelfCheck false) s = .next (raise s .reflectorFault []))

/-- R241, R246, R286, R402: a row that the reflector passes is published and handed to the motion port, in front of the
robot's trajectories that are still to be followed; with `STOP_RELEASE` AUTO the hand-off releases STOP_REQ_N, with HOST
it does not.

R41, R241, R247, R291 to R293, R295, R296: a row that needs more than 2,048 samples, one in which the reflector finds
a collision, one whose tail fails, one whose splice point is stale and one whose candidate carries a mark is not handed
off; the next row is left to try, and a collision makes the slot a disagreement slot. -/
def Obligations.ReflectorVerdicts : Prop :=
  (∀ (s : State) (job : JobRef) (j : Job) (i : Nat) (row : BRow) (r : Recipe) (m : RobotModel) (t0 : Traj),
      Served s → findJob s job = some j → j.out.active = some i → attemptCounts j = true → j.out.rows[i]? = some row →
      j.recipe = some r → jobModel j = some m → trajOf j r m row.pay = some t0 →
      sampleCount t0 ≤ 2048 → firstHit s j r m t0 = none → tailPasses t0 m = true → spliceStale s t0 = false →
      rowLive j row = true →
      let live := liveTrajs ((s.motion.trajs.find t0.robot).getD []) (asNs s)
      ∃ t, exec (.reflectorVerdict job) s = .next t
        ∧ t.motion = { s.motion with
            trajs := s.motion.trajs.put t0.robot (t0 :: live), handedAt := s.motion.handedAt.put t0.robot (asNs s) }
        ∧ t.safety = { s.safety with handed := true }
        ∧ t.pwr = { s.pwr with stop := s.pwr.stop && stopRelHost s }
        ∧ findJob t job = some { j with
            published := some t0, confirmedRow := some row
            out := { j.out with active := none, confirmed := j.out.confirmed.drop 1 } }
        ∧ t.ember = s.ember ∧ SameFabric s t ∧ t.world = s.world ∧ t.rings = s.rings ∧ t.descs = s.descs
        ∧ t.grid = s.grid ∧ t.host = s.host ∧ t.sluice = s.sluice)
  ∧
  (∀ (s : State) (job : JobRef) (j : Job) (i : Nat) (row : BRow) (r : Recipe) (m : RobotModel) (t0 : Traj),
      Served s → findJob s job = some j → j.out.active = some i → attemptCounts j = true → j.out.rows[i]? = some row →
      j.recipe = some r → jobModel j = some m → trajOf j r m row.pay = some t0 →
      let s1 := modJob s job fun k => { k with out := { k.out with
        active := none, confirmed := k.out.confirmed.drop 1 } }
      (2048 < sampleCount t0 → exec (.reflectorVerdict job) s = .next (raise s1 .reflectorBudget []))
      ∧ (sampleCount t0 ≤ 2048 →
        (∀ h, firstHit s j r m t0 = some h → s.grid.count ∉ s.safety.disHist →
          ∃ t, exec (.reflectorVerdict job) s = .next t ∧ t.motion = s.motion ∧ t.safety.disSlots = satInc s.safety.disSlots)
        ∧ (firstHit s j r m t0 = none →
          (tailPasses t0 m = false → exec (.reflectorVerdict job) s = .next (raise s1 .reflectorTail []))
          ∧ (tailPasses t0 m = true → spliceStale s t0 = true → exec (.reflectorVerdict job) s = .next (raise s1 .spliceStale []))
          ∧ (tailPasses t0 m = true → spliceStale s t0 = false → rowLive j row = false → exec (.reflectorVerdict job) s = .next s1))))

/-- R282, R283: an event of severity 2 or 3, with fewer than 8 queued, writes the log and the fault handler's queue and
nothing else: it is handled when none is, pre-empts a lower severity, and otherwise joins the queue.

R282, R285, R305, R308, R515: an S1 event asserts STOP_REQ_N, whatever the handler does. In service, with no S1 event
in hand, it ends every job and begins a relight, or HALT after two relights within 10 s; a temperature trip is HALT. -/
def Obligations.RaisingAnEvent : Prop :=
  (∀ (s : State) (cls : EventClass) (words : List W32), cls.severity ≠ 1 → s.safety.queue.length < 8 →
      suppressed s cls = false →
      let t := raise s cls words
      SameBoard s t ∧ SameWork s t ∧ SameField s t ∧ SameFabric s t
      ∧ t.safety = match s.safety.current with
          | none => { s.safety with current := some (cls, cls.severity) }
          | some c =>
            if cls.severity < c.2 then
              { s.safety with current := some (cls, cls.severity), suspended := c :: s.safety.suspended }
            else { s.safety with queue := s.safety.queue ++ [(cls, cls.severity)] })
  ∧
  (∀ (s : State) (cls : EventClass) (words : List W32), cls.severity = 1 → suppressed s cls = false →
      let t := raise s cls words
      t.pwr.stop = true ∧ t.safety.handed = false
      ∧ (cls = .tempTrip → t.safety.state = .halt ∧ t.jobs = [])
      ∧ (cls ≠ .tempTrip → s.pwr.ready = true → s.safety.state = .service →
          (∀ c, s.safety.current = some c → 1 < c.2) →
          t.jobs = [] ∧ t.safety.state = if 2 ≤ relights10s s then .halt else .relight))

/-- R76, R235, R282, R284, R516: an event of a unit has its unit's own effect, then is raised, for the job that its source
rule fails where there is one; in a speculative slot the scores of a `DUPLICATE_MISMATCH` read 0. An event of dies in reset,
an error of a plan image among them, is suppressed and changes nothing.

R68, R100: a DRAM channel of a die in service that asks for more refreshes than its windows hold, and a retraining
module of such a die, raise their S1 events. MODEL'S CHOICE (log 86): `RILL_LATE` follows every retrain. -/
def Obligations.FaultEventsAreRaised : Prop :=
  (∀ (s : State) (cls : EventClass) (unit : Nat) (words : List W32) (r : JobRef), Live s →
      (suppressed s cls = false → cls ≠ .memEccCorr ∨ unit ≠ 0 ∨ diesReset s = false →
        exec (.faultEvent cls unit words none) s = .next (raise (unitEffect s cls unit) cls words)
        ∧ ((∀ j, findJob s r = some j → j.spec = false) →
            exec (.faultEvent cls unit words (some r)) s = .next (raiseFor (unitEffect s cls unit) cls words r))
        ∧ (∀ j, findJob s r = some j → j.spec = true → diesReset s = false → exec (.faultEvent .duplicateMismatch unit words (some r)) s =
            .next (raiseFor s .duplicateMismatch (List.replicate words.length 0) r)))
      ∧ (diesReset s = true → exec (.faultEvent .memEccCorr 0 words none) s = .next s)
      ∧ (suppressed s cls = true → ∀ job, exec (.faultEvent cls unit words job) s = .next s)
      ∧ (cls ≠ .emberEccFatal → cls ≠ .spoutEccFatal → cls ≠ .fabricEccCorr → unitEffect s cls unit = s))
  ∧
  (∀ (s : State) (c : Fin 24) (d : Fin 4), Served s →
      (diePresent s (c.val / 6) = true → exec (.ddrRefreshLimit c) s = .next (raise s .ddrRefreshLimit []))
      ∧ (diePresent s d.val = true → exec (.d2dRetrain d) s = .next (raise s .rillLate [])))

/-- R283, R284: when the handling of an event is complete, the S1 event that waits longest is taken, the overflow before it,
and begins a relight; else a pre-empted handling resumes before the queue's head is taken. -/
def Obligations.HandlingCompletes : Prop :=
  ∀ (s : State) (c : EventClass × Nat), Live s → s.safety.current = some c → s.safety.state = .service →
    (s.safety.overflow = 0 → (∀ e ∈ s.safety.queue, e.2 ≠ 1) →
      (∀ d rest, s.safety.suspended = d :: rest →
        exec .faultHandlingComplete s = .next { s with safety := { s.safety with
          current := some d, suspended := rest } })
      ∧ (s.safety.suspended = [] → ∀ e rest, s.safety.queue = e :: rest →
          exec .faultHandlingComplete s = .next { s with safety := { s.safety with current := some e, queue := rest } })
      ∧ (s.safety.suspended = [] → s.safety.queue = [] →
          exec .faultHandlingComplete s = .next { s with safety := { s.safety with current := none } }))
    ∧ (relights10s s < 2 →
      (s.safety.overflow ≠ 0 → ∃ t, exec .faultHandlingComplete s = .next t
        ∧ t.safety.current = some (.faultQueueOverflow, 1) ∧ t.safety.overflow + 1 = s.safety.overflow
        ∧ t.safety.queue = s.safety.queue ∧ t.safety.suspended = s.safety.suspended
        ∧ t.safety.state = .relight ∧ t.jobs = [])
      ∧ (∀ e, s.safety.overflow = 0 → (s.safety.queue.find? fun e => e.2 == 1) = some e →
        ∃ t, exec .faultHandlingComplete s = .next t
          ∧ t.safety.current = some e ∧ t.safety.queue = s.safety.queue.erase e
          ∧ t.safety.suspended = s.safety.suspended ∧ t.safety.state = .relight ∧ t.jobs = []))

/-- R72, R139, R305, R306: a relight whose dies train, whose reflector check passes and that leaves an active lantern returns to
service with every basin's contents lost, the filled regions of the cistern restored from their backing copies (R72), the
world's bricks and tracks cleared, the epoch kept and the slot grid restarted. No further S1 event waits that would begin
the next relight (R284), and no run waits on itself (R339).

R308, R309: a relight that leaves fewer than three memory-side dies, or whose reflector check fails, and a lockstep
mismatch end in HALT, with STOP_REQ_N asserted and no job. -/
def Obligations.RelightAndHalt : Prop :=
  (∀ (s : State) (o : RelightObs), Live s → s.safety.state = .relight → o.diesFail = 0 → o.selftestFail = [] →
      o.reflectorOk = true → 3 ≤ presentDies s → logicalMap s.fuses ≠ [] →
      ((∃ c, s.safety.current = some c ∧ c.2 = 1) ∨ (s.safety.overflow = 0 ∧ ∀ e ∈ s.safety.queue, e.2 ≠ 1)) →
      (∀ d ∈ s.descs, (tokensOf d).getLsbD 3 = true → serialLe d.ref.index (afterOf d) = false) →
      ∃ t, exec (.relight o) s = .next t
        ∧ t.safety.state = .service ∧ t.map = logicalMap s.fuses ∧ t.world.epoch = s.world.epoch
        ∧ t.world.dir = [] ∧ t.world.tracks = [] ∧ t.world.built = false ∧ t.world.waiting = []
        ∧ t.mem.cistern = restoreFills s.mem.cistern.lose s.mem.backing
        ∧ t.grid = { s.grid with running := true, base := s.grid.base + s.grid.sub / 4, sub := 0 }
        ∧ t.safety.disHist = [] ∧ t.safety.degraded = false
        ∧ (∀ p, (lant t p).basin = ⟨(lant s p).basin.gen + 1, []⟩ ∧ (lant t p).gated = true ∧ (lant t p).job = none)
        ∧ t.pwr.stop = s.pwr.stop ∧ t.motion = s.motion ∧ t.klink = s.klink ∧ t.fuses = s.fuses)
  ∧
  (∀ (s : State) (o : RelightObs), Live s →
      let halted := fun (t : State) => t.safety.state = .halt ∧ t.pwr.stop = true ∧ t.jobs = []
      (s.safety.state = .relight →
        ((∀ m, m = s.mem.present &&& ~~~ o.diesFail →
            ((List.range 4).filter fun d => m.getLsbD d).length < 3 → ∃ t, exec (.relight o) s = .next t ∧ halted t)
        ∧ (o.reflectorOk = false → ∃ t, exec (.relight o) s = .next t ∧ halted t)))
      ∧ (∃ t, exec .lockstepMismatch s = .next t ∧ halted t ∧ t.safety.current = s.safety.current
          ∧ t.descs = s.descs))

/-- R286: with `STOP_RELEASE` HOST a write of 1 after the hand-off deasserts STOP_REQ_N, an earlier one is logged as
`STOP_RELEASE_EARLY`, and one while the signal is deasserted is ignored; with AUTO every write is ignored.

R102, R301 to R304: the world age's and the diagnostic ages' first excess of 100 ms is logged and shown, and nothing
happens before it; 200 ms holds admission; the 25th passing slice ends a pass and its age, an earlier one only counts, and
a failing one blows the lantern's retirement fuse and raises its S1 event. -/
def Obligations.ReleasesAndTimers : Prop :=
  (∀ s : State, OnLink s →
      (stopRelHost s = false ∨ s.pwr.stop = false → exec .stopRelease s = .next s)
      ∧ (stopRelHost s = true → s.pwr.stop = true → s.safety.handed = true →
          exec .stopRelease s = .next { s with pwr := { s.pwr with stop := false } })
      ∧ (stopRelHost s = true → s.pwr.stop = true → s.safety.handed = false →
          exec .stopRelease s = .next (raise s .stopReleaseEarly [])))
  ∧
  (∀ (s : State) (p : Phys), Live s →
      (s.world.staleLogged = false → 3200000 < s.pwr.ticks - s.world.lastAdvance →
        exec .worldStale s = .next (raise { s with
          world := { s.world with staleLogged := true }, safety := { s.safety with stale := true } } .worldStale []))
      ∧ (s.pwr.ticks - s.world.lastAdvance ≤ 3200000 → exec .worldStale s = .next s)
      ∧ (diagnosed s p = true → (lant s p).overdue = false → 3200000 < diagAge s p →
        exec (.diagOverdue p) s = .next (raise
          { setLant s p { lant s p with overdue := true } with safety := { s.safety with degraded := true } }
          .diagOverdue []))
      ∧ (diagAge s p ≤ 3200000 → exec (.diagOverdue p) s = .next s)
      ∧ (diagnosed s p = true → 6400000 ≤ diagAge s p →
          exec (.diagAdmitHold p) s = .next (setLant s p { lant s p with diagHold := true }))
      ∧ (diagAge s p < 6400000 → exec (.diagAdmitHold p) s = .next s)
      ∧ (sliceAllowed s p = true →
          (∃ t, exec (.selftestSlice p false) s = .next t ∧ t = raise (retire s [p]) .lanternSelftestFail []
            ∧ (isDisabled s.fuses p = false → isRetired t.fuses p = true))
          ∧ ((lant s p).slices < 24 → exec (.selftestSlice p true) s =
              .next (setLant s p { lant s p with slices := (lant s p).slices + 1 }))
          ∧ (24 ≤ (lant s p).slices → ∃ t, exec (.selftestSlice p true) s = .next t
              ∧ lant t p = { lant s p with
                  slices := 0, diagStart := s.pwr.ticks, overdue := false, diagHold := false }
              ∧ ∀ q, q ≠ p → lant t q = lant s q)))

/-! ## Rings and descriptors -/

/-- R329, R345: a descriptor that completes keeps its result in its release place, an `OK` of a re-executed descriptor as
`OK_REPLAYED`; completion writes descriptors, the trace, the idle time and the wake of basins, and nothing else. -/
def Obligations.CompletionKeepsResult : Prop :=
  ∀ (s : State) (r : JobRef) (res : Result) (d : DescEntry), findDesc s r = some d →
    let t := complete s r res
    DoneAs t r { res with status := if d.replayed = true ∧ res.status = .ok then .okReplayed else res.status }
    ∧ t.jobs = s.jobs ∧ t.rings = s.rings ∧ t.host = s.host ∧ t.mem = s.mem ∧ t.world = s.world ∧ t.safety = s.safety
    ∧ t.ember = s.ember ∧ t.motion = s.motion ∧ t.klink = s.klink ∧ t.sec = s.sec ∧ t.grid = s.grid
    ∧ t.sluice.goals = s.sluice.goals ∧ t.sluice.images = s.sluice.images ∧ t.descs.length = s.descs.length

/-- R154, R318, R331, R337, R425: `GOAL_SET` stores a goal in range and completes `OK`; a goal out of range, or a record that is
none, leaves the table as it was; `SEEDS_LOAD` adds to its class, or replaces it with mode 1, within 1,024 seeds; `QUERY`
writes its list to DST, unless the ring's owner was lost (R331). An encrypted buffer is read in clear. -/
def Obligations.GoalsSeedsAndQueries : Prop :=
  ∀ (s : State) (r : RingId) (d : DescEntry) (raw : List Byte), Live s → beginable s r = some d →
    findDesc s d.ref = some d →
    let bytes := srcBytes s d raw
    (∀ src len n, d.desc.body = .goalSet src len n → ∃ t, exec (.goalSet r raw) s = .next t
      ∧ (∀ g, decodeGoal bytes = some g →
        t.sluice.goals = (if goalInRange s g then s.sluice.goals.put n g else s.sluice.goals)
        ∧ DoneAs t d.ref (if goalInRange s g then okResult d 0 else plainResult .rangeExceeded 0))
      ∧ (decodeGoal bytes = none →
        t.sluice.goals = s.sluice.goals ∧ DoneAs t d.ref (plainResult .planMismatch 0x0C)))
    ∧ (∀ src len cls mode xs, d.desc.body = .seedsLoad src len cls mode → decodeSeeds (len / 1600) bytes = some xs →
        xs.all (seedInRange s) = true →
        let all := if mode = 1 then xs else (s.sluice.libs.find cls).getD [] ++ xs
        all.length ≤ 1024 → ∃ t, exec (.seedsLoad r raw) s = .next t
          ∧ t.sluice.libs = s.sluice.libs.put cls all ∧ DoneAs t d.ref (okResult d 0))
    ∧ (∀ dst len kind, d.desc.body = .query dst len kind → ∃ t, exec (.query r) s = .next t
        ∧ t.host.mem = (if (ringGet s r).lost then s.host.mem else s.host.mem.writeN dst (queryBytes s kind))
        ∧ DoneAs t d.ref (okResult d 0))
    ∧ (d.desc.encrypted = false → bytes = raw)

/-- R72, R91, R92, R415: a `PLAN_LOAD` whose checks pass stores the image under its PLAN_ID, in place of one already there,
keeps backing copies of what it fills, has the newest recipe's tables staged that lie in its regions (R104) and extends M5; one whose first failing check refuses it completes
with that refusal and leaves the store as it was.

R258, R260, R415: a new weight set is written to its placement and extends M6; a load for a loaded set waits
behind those that wait for it already, and once every job dispatched on the old set has ended the first of them is
written in its place while the service runs. -/
def Obligations.PlanAndWeightLoads : Prop :=
  (∀ (s : State) (r : RingId) (d : DescEntry) (raw : PlanBlob) (src len : Nat) (pid : W32), Live s →
      beginable s r = some d → findDesc s d.ref = some d → d.desc.body = .planLoad src len pid →
      let b := { raw with bytes := srcBytes s d raw.bytes }
      let images := s.sluice.images.put b.img.planId.toNat b.img
      let own := (s.mem.backing.filter fun k => k.owner != .plan b.img.planId)
        ++ (imageFills b.img).map (fun f => ⟨.plan b.img.planId, f⟩)
      let tables := ((s.sluice.nextRec.or s.sluice.recipe).map
        (recipeFills { s with sluice := { s.sluice with images := images } })).getD []
      (loadRefusal s b len pid = none → ∃ t, exec (.planLoad r raw) s = .next t
        ∧ t.sluice.images = images
        ∧ t.mem.backing = own ++ (tables.map fun f => (⟨.recipe, f⟩ : Backing)).filter (fun k => !own.contains k)
        ∧ t.sec.meas.get 5 = Config.sm3 (digestBytes (s.sec.meas.get 5)
            ++ digestBytes (Config.sm3 (leBytes 4 b.img.planId.toNat ++ digestBytes b.img.bodyDigest)))
        ∧ DoneAs t d.ref (okResult d 0))
      ∧ (∀ st det, loadRefusal s b len pid = some (st, det) → ∃ t, exec (.planLoad r raw) s = .next t
        ∧ t.sluice.images = s.sluice.images ∧ t.sec = s.sec ∧ t.mem = s.mem ∧ DoneAs t d.ref (plainResult st det)))
  ∧
  (∀ (s : State) (r : RingId) (d : DescEntry) (raw : Blob) (bytes : List Byte) (src len : Nat) (id : W32), Live s →
      findDesc s d.ref = some d → d.desc.body = .weightsLoad src len id →
      let installed := fun (t : State) (bs : List Byte) (next : List (List Byte × RingId × W32)) =>
        let h := decodeBlob bs
        let body := slice bs 256 (h.blobSize - 256)
        t.sluice.weights = s.sluice.weights.put h.weightId.toNat ⟨h, next, s.pwr.ticks⟩
        ∧ (if h.placeKind = 1 then
            t.mem.dram = s.mem.dram.writeWhere (dramHas s) h.placeBase body ∧ t.mem.cistern = s.mem.cistern
          else t.mem.cistern = s.mem.cistern.writeWhere (cisternHas s) h.placeBase body ∧ t.mem.dram = s.mem.dram)
        ∧ t.sec.meas.get 6 = Config.sm3 (digestBytes (s.sec.meas.get 6)
            ++ digestBytes (Config.sm3 (leBytes 4 h.weightId.toNat ++ digestBytes h.bodyDigest)))
        ∧ DoneAs t d.ref (okResult d 0)
      (let b := { raw with bytes := srcBytes s d raw.bytes }
        let h := decodeBlob b.bytes
        beginable s r = some d → blobRefusal s b len (id == h.weightId) = none → weightHdrOk h = true →
        placeRefusal s h = none →
        (s.sluice.weights.find h.weightId.toNat = none →
          ∃ t, exec (.weightsLoad r raw) s = .next t ∧ installed t b.bytes [])
        ∧ (∀ w, s.sluice.weights.find h.weightId.toNat = some w → ∃ t, exec (.weightsLoad r raw) s = .next t
            ∧ t.mem = s.mem ∧ t.sec = s.sec
            ∧ t.sluice.weights =
                s.sluice.weights.put h.weightId.toNat { w with
                  next := waitingSets s d.ref id ++ [(b.bytes, d.ref.ring, d.ref.index)] }))
      ∧ (Served s → nextSet s id = some (d, bytes) → (∀ j ∈ s.jobs, usesWeights id j.img = false) →
          ∃ t, exec (.weightsReplaceWrite id) s = .next t
            ∧ installed t bytes (waitingSets s d.ref (decodeBlob bytes).weightId)))

/-- R107, R432, R433: a `RECIPE_LOAD` that passes the blob checks starts glow's parse; a parse in agreement installs the
tables, with the defaults of the parameters that the recipe does not carry, for the next boundary and extends M4; tables
beyond their limits are refused; glow's absence for 200 ms ends the load with `JOB_FAULT`.
In HALT accepted descriptors stay as they are (R308). -/
def Obligations.RecipesLoad : Prop :=
  ∀ (s : State) (r : RingId) (d : DescEntry) (raw : Blob) (w : RecipeWork) (p : ParseResult) (src len : Nat), Live s →
    s.safety.state ≠ .halt →
    (let b := { raw with bytes := srcBytes s d raw.bytes };
      beginable s r = some d → d.desc.body = .recipeLoad src len → blobRefusal s b len true = none →
      recipeHdrOk (decodeBlob b.bytes) = true → ∃ t, exec (.recipeLoad r raw) s = .next t
        ∧ t.sluice.parse = s.sluice.parse ++ [⟨d.ref.ring, d.ref.index, decodeBlob b.bytes, s.pwr.ticks⟩])
    ∧ (parseOn s r = some w → findDesc s ⟨w.ring, w.index⟩ = some d → glowRuns s = true → p.digestOk = true →
        (recipeOk s.motion.spWin (parsedTables p) = true → ∃ t, exec (.recipeParseDone r p) s = .next t
          ∧ t.sluice.nextRec = some { parsedTables p with bodyDigest := w.hdr.bodyDigest }
          ∧ t.sluice.recipe = s.sluice.recipe ∧ t.ember.triggers = (parsedTables p).triggers
          ∧ t.sec.meas.get 4 =
              Config.sm3 (digestBytes (s.sec.meas.get 4) ++ digestBytes w.hdr.bodyDigest)
          ∧ DoneAs t ⟨w.ring, w.index⟩ (okResult d 0))
        ∧ (recipeOk s.motion.spWin (parsedTables p) = false → ∃ t, exec (.recipeParseDone r p) s = .next t
          ∧ t.sluice.nextRec = s.sluice.nextRec ∧ t.sec = s.sec
          ∧ DoneAs t ⟨w.ring, w.index⟩ (plainResult .planMismatch 0x01)))
    ∧ (parseOn s r = some w → findDesc s ⟨w.ring, w.index⟩ = some d → glowRuns s = false →
        (w.started + 6400000 ≤ s.pwr.ticks →
          ∃ t, exec (.glowUnavailable r) s = .next t ∧ DoneAs t ⟨w.ring, w.index⟩ (plainResult .jobFault 0x48)
            ∧ t.sluice.parse = s.sluice.parse.filter fun x => x.ring != r)
        ∧ (s.pwr.ticks < w.started + 6400000 → exec (.glowUnavailable r) s = .next s))

/-- R274, R276, R277, R278, R279, R335: a context save at the head of its flow becomes ready and begins its execution, frees its weir entry and
takes a release place; when its buffer is complete the sealed context is in the host buffer, the saved job completes
`CANCELLED` with the epoch that it used, and the save `OK`. A restore whose checks pass waits for its context, and one that a
check refuses completes with the refusal, `SEAL_FAIL` first where the tag is not that of its bytes; when the context has been
verified the restored job becomes ready, unless a fence before it or a fusion run's want of frames holds it.

R274, R275: at a boundary between two slots of its target a due save is taken: the target's next slot is a save slot. A
target that has ended, or that another save holds, completes it `CANCELLED` with detail 2, an image that cannot be saved
with 3, a buffer too short with 4; a target in a speculative slot leaves it waiting. -/
def Obligations.ContextsSaveAndRestore : Prop :=
  (∀ (s : State) (r : RingId) (i : W32) (d e : DescEntry) (j : Job) (c : SavedCtx), Live s → s.safety.state ≠ .halt →
      (∀ ring index dst len, beginable s r = some d → findDesc s d.ref = some d →
        d.desc.body = .contextSave ring index dst len →
        ∃ t, exec (.contextSave r) s = .next t
          ∧ findDesc t d.ref = some { d with stage := .executing, begun := true, ever := true }
          ∧ (∀ x, x ≠ d.ref → findDesc t x = findDesc s x)
          ∧ t.pwr = { s.pwr with idleSince := s.pwr.ticks }
          ∧ t.jobs = s.jobs ∧ t.rings = s.rings ∧ t.sluice = (traceDesc s 2 d 0 0).sluice ∧ t.host = s.host ∧ SameFabric s t
          ∧ SameField s t ∧ SameFaults s t)
      ∧ (∀ ring index dst len, savingAt s r = some (d, j) → findDesc s d.ref = some d → findDesc s j.ref = some e →
          d.ref ≠ j.ref → d.desc.body = .contextSave ring index dst len →
          ∃ t, exec (.contextSaveComplete r) s = .next t
            ∧ t.host.mem = (if (ringGet s d.ref.ring).lost then s.host.mem
                else s.host.mem.writeN dst (ctxSealed s (savedCtx s j)))
            ∧ DoneAs t d.ref (okResult d 0)
            ∧ DoneAs t j.ref { plainResult .cancelled 1 with epoch := j.epoch, restored := j.restored }
            ∧ t.jobs = s.jobs ∧ t.rings = s.rings ∧ t.mem = s.mem ∧ SameField s t ∧ SameFaults s t)
      ∧ (findDesc s ⟨r, i⟩ = some d → d.stage = .entered →
          ∀ src len res rlen, d.desc.body = .contextRestore src len res rlen →
          (restoreRefusal s c = none → exec (.contextRestore r i c) s =
            .next (modDesc s ⟨r, i⟩ fun x => { x with stage := .waiting, ctx := some c }))
          ∧ (∀ st det, restoreRefusal s c = some (st, det) → st ≠ .ok →
              ∃ t, exec (.contextRestore r i c) s = .next t ∧ DoneAs t ⟨r, i⟩ (plainResult st det) ∧ t.jobs = s.jobs
                ∧ t.mem = s.mem)
          ∧ (c.tag ≠ ctxTag s c → restoreRefusal s c = some (.sealFail, 0)))
      ∧ (findDesc s ⟨r, i⟩ = some d → d.stage = .waiting → d.ctx = some c →
          ∃ t, exec (.restoreVerified r i) s = .next t ∧ (findDesc t ⟨r, i⟩).map (·.verified) = some true
            ∧ t.jobs = s.jobs ∧ t.rings = s.rings ∧ t.mem = s.mem
            ∧ (isRestore d = true → fenced s d = false → fusionWaits s d = false →
                (∀ x ∈ s.descs, x.ref = d.ref → x = d) →
                (findDesc t ⟨r, i⟩).map (·.stage) = some .ready)))
  ∧
  (∀ (s : State) (own t : JobRef) (d : DescEntry) (j : Job) (ring index : Nat) (addr len : Nat),
      findDesc s own = some d → d.desc.body = .contextSave ring index addr len → targetRef ring index = some t →
      (saveTarget s t = none → DoneAs (saveOne s own) own (plainResult .cancelled 2))
      ∧ (findJob s t = some j → j.spec = true → saveOne s own = s)
      ∧ (findJob s t = some j → j.spec = false →
          (j.kind = .save → DoneAs (saveOne s own) own (plainResult .cancelled 2))
          ∧ (j.kind ≠ .save → notSaveable j.img = true → DoneAs (saveOne s own) own (plainResult .cancelled 3))
          ∧ (j.kind ≠ .save → notSaveable j.img = false → len < ctxSize (j.seeds.length + j.pool.length + j.spent.length) →
              DoneAs (saveOne s own) own (plainResult .cancelled 4))
          ∧ (j.kind ≠ .save → notSaveable j.img = false → ctxSize (j.seeds.length + j.pool.length + j.spent.length) ≤ len →
              findJob (saveOne s own) t = some { j with kind := .save, stream := [], saver := some own, spec := false })))

/-- R192, R336, R340, R347: an accepted run with no token selected is ready at once unless a fence or a fusion run's want of
frames holds it, and one whose WORLD token lies ahead waits; a cancel ends a waiting target `CANCELLED`, ends a running
one at the next boundary with its solves interrupted, and says with DETAIL 1 that nothing accepted before it bears the name of
its target.

R340: a fence at the head of its flow completes `OK` once everything accepted before it, on its ring and on the
enabled rings of its mask, has completed; until then nothing happens. -/
def Obligations.RunsFencesAndCancels : Prop :=
  (∀ (s : State) (r : RingId) (i : W32) (d : DescEntry), Live s → s.safety.state ≠ .halt → findDesc s ⟨r, i⟩ = some d →
      d.stage = .entered →
      (∀ pid m g ss w tok a seed res len, d.desc.body = .planRun pid m g ss w tok a seed res len →
        (tok = 0 → fenced s d = false → fusionWaits s d = false →
          ∃ t, exec (.planRun r i) s = .next t ∧ (findDesc t ⟨r, i⟩).map (·.stage) = some .ready)
        ∧ (tok = 1 → d.matched = 0 → serialLe m s.world.epoch = false →
          ∃ t, exec (.planRun r i) s = .next t ∧ (findDesc t ⟨r, i⟩).map (·.stage) = some .waiting))
      ∧ (∀ ring index, d.desc.body = .cancel ring index → ∀ x, targetRef ring index = some x → x ≠ ⟨r, i⟩ →
          let before := (s.descs.takeWhile fun y => y.ref != ⟨r, i⟩).find? fun y => y.ref == x
          (before = none → ∃ t, exec (.cancel r i) s = .next t ∧ DoneAs t ⟨r, i⟩ (okResult d 1)
            ∧ t.jobs = s.jobs)
          ∧ (∀ e, before = some e → e.stage.inWeir = true → ∃ t, exec (.cancel r i) s = .next t
              ∧ DoneAs t ⟨r, i⟩ (okResult d 0) ∧ DoneAs t x (plainResult .cancelled 0) ∧ t.jobs = s.jobs)
          ∧ (∀ e j, before = some e → e.stage = .running → findJob s x = some j →
              ∃ t, exec (.cancel r i) s = .next t ∧ DoneAs t ⟨r, i⟩ (okResult d 0)
                ∧ findJob t x = some { interruptSolves j with endAs := .cancelled })))
  ∧
  (∀ (s : State) (r : RingId) (d : DescEntry) (mask : W64), Live s → beginable s r = some d →
      findDesc s d.ref = some d → d.desc.body = .fence mask →
      (fenceOpen s d mask = true → ∃ t, exec (.fence r) s = .next t ∧ DoneAs t d.ref (okResult d 0)
        ∧ t.jobs = s.jobs ∧ t.rings = s.rings)
      ∧ (fenceOpen s d mask = false → exec (.fence r) s = .next s))

/-- R324, R326, R330, R331, R335: a poll takes the rings in ring order. On a ring whose doorbell carries its owner epoch it
takes the next descriptors into the weir, those that wait for re-execution first (R330), at most 64 and at most as many as
the weir and the flow's share hold; it stops
a ring whose indices are inconsistent, and stops serving one whose owner differs, with `RING_OWNER_LOST` where it was
served before. The last three say what a poll that finds one ring to serve does. -/
def Obligations.PollServesRings : Prop :=
  (∀ (s : State) (bell : List W64) (descs : List RawDesc), Live s →
    (canPoll s = true → exec (.poll bell descs) s = .next ((List.finRange 64).foldl (pollRing bell descs) s))
    ∧ (canPoll s = false → exec (.poll bell descs) s = .next s))
  ∧
  (∀ (s : State) (r : RingId) (bell : List W64) (descs : List RawDesc),
    let g := ringGet s r
    let w := nth bell r.val 0
    let t := pollRing bell descs s r
    (g.state = .off → t = s)
    ∧ (g.state = .running ∨ g.state = .notOwner → doorbellGen w = g.owner →
      ((doorbellProd w - g.complete).toNat ≤ 2 ^ g.size → serialLt (doorbellProd w) g.accepted = false →
        let n := ((descs.filter fun y => y.ring == r).take
          (min (min (doorbellProd w - g.readTo).toNat 64) (weirFree s r))).length
        (ringGet t r).readTo = g.readTo + BitVec.ofNat 32 n ∧ (ringGet t r).state = .running
        ∧ (g.readTo = g.accepted → (ringGet t r).accepted = g.accepted + BitVec.ofNat 32 n)
        ∧ (ringGet t r).complete = g.complete
        ∧ t.descs.map (·.ref) = s.descs.map (·.ref) ++ (List.range n).map (fun k => ⟨r, g.readTo + BitVec.ofNat 32 k⟩)
        ∧ (∀ q, q ≠ r → ringGet t q = ringGet s q) ∧ t.jobs = s.jobs)
      ∧ (2 ^ g.size < (doorbellProd w - g.complete).toNat ∨ serialLt (doorbellProd w) g.accepted = true →
        (ringGet t r).state = .stopped ∧ (ringGet t r).accepted = g.accepted ∧ t.descs = s.descs)))
  ∧
  (∀ (s : State) (r : RingId) (bell : List W64) (descs : List RawDesc) (x : RawDesc), Live s → canPoll s = true →
    (∀ q, q ≠ r → (ringGet s q).state = .off) →
    (ringGet s r).state = .running → (ringGet s r).readTo = (ringGet s r).accepted →
    let g := ringGet s r
    let w := nth bell r.val 0
    (doorbellGen w = g.owner → (doorbellProd w - g.complete).toNat ≤ 2 ^ g.size → doorbellProd w = g.accepted + 1 →
      1 ≤ weirFree s r → (descs.filter fun y => y.ring == r) = [x] → g.sealed = false →
      (decodeDesc x.bytes).body ≠ .bad →
      ∃ t, exec (.poll bell descs) s = .next t
        ∧ t.descs = s.descs ++ [newEntry ⟨r, g.accepted⟩ (decodeDesc x.bytes) false
            (if (decodeDesc x.bytes).encrypted then writtenEpoch g g.accepted else none)]
        ∧ (ringGet t r).accepted = g.accepted + 1 ∧ (ringGet t r).state = .running
        ∧ ∀ q, q ≠ r → ringGet t q = ringGet s q)
    ∧ (doorbellGen w ≠ g.owner → g.served = true → exec (.poll bell descs) s =
        .next (raise (setRing s r { g with state := .notOwner, lost := true }) .ringOwnerLost []))
    ∧ (doorbellGen w ≠ g.owner → g.served = false → exec (.poll bell descs) s =
        .next (setRing s r { g with state := .notOwner })))

/-- R319, R327, R331, R344: the record that is due on a ring is released: it is in its slot of the completion ring, COMPLETE
advances by one, in the shadow entry too, and the descriptor's place is free. Where the owner was lost the record is
discarded: COMPLETE advances and host memory stays as it was. No relight and no HALT holds the release buffer (R308, R346). The completion ring and the shadow entry do not overlap.

R314: while the device is attached and a shadow base has been written, the shadow header's refresh writes the header's 64 B at
that base, with the state as it is now, and notes the fields that it wrote; without a base, detached, or while PERST_N is low (R472), it does nothing. -/
def Obligations.RecordsAndHeader : Prop :=
  (∀ (s : State) (r : RingId) (d : DescEntry) (res : Result), Live s →
      let g := ringGet s r
      let at_ := g.cq.toNat + 32 * (g.complete.toNat % 2 ^ g.size)
      findDesc s ⟨r, g.complete⟩ = some d → d.stage = .done res →
      (g.lost = false → s.rings.detached = false → g.served = true → s.pwr.perstN = true → s.safety.state ≠ .relight →
        s.safety.state ≠ .halt →
        ∃ t, exec (.recordRelease r) s = .next t ∧ (ringGet t r).complete = g.complete + 1 ∧ findDesc t d.ref = none
          ∧ (s.rings.shBase = 0 ∨ entryAddr s r + 32 ≤ at_ ∨ at_ + 32 ≤ entryAddr s r →
              t.host.mem.readN at_ 24 = recordHead s d res)
          ∧ (s.rings.shBase ≠ 0 → g.state ≠ .notOwner →
              t.host.mem.readN (entryAddr s r + 4) 4 = leBytes 4 (g.complete + 1).toNat)
          ∧ t.jobs = s.jobs ∧ t.world = s.world ∧ t.motion = s.motion ∧ SameFabric s t ∧ SameFaults s t)
      ∧ (g.lost = true → ∃ t, exec (.recordRelease r) s = .next t
          ∧ (ringGet t r).complete = g.complete + 1 ∧ findDesc t d.ref = none ∧ t.host = s.host
          ∧ t.jobs = s.jobs ∧ SameField s t ∧ SameFabric s t ∧ SameFaults s t))
  ∧
  (∀ s : State, Live s →
      (s.rings.detached = false → s.pwr.perstN = true → s.rings.shBase ≠ 0 → exec .shadowHeaderRefresh s = .next { s with
        rings := { s.rings with header := headerFields s }
        host := { s.host with mem := s.host.mem.writeN s.rings.shBase.toNat (headerBytes s) } })
      ∧ (s.rings.detached = true ∨ s.pwr.perstN = false ∨ s.rings.shBase = 0 → exec .shadowHeaderRefresh s = .next s))

/-- R322, R328, R330: enabling a ring in STATE 0 takes the other fields of `RING_CTRL`, checks the start indices of
`RING_START_ACC` and `RING_START_CMP` and runs it from them, or stops it where they are inconsistent; disabling a served
ring makes it drain, and off once nothing accepted is left.

R333, R359: a detach resets the host driver and the host secure agent, and nothing stops; the return, where every enabled
ring is still this device's, clears the detached state; in HALT accepted descriptors stay as they are (R308). -/
def Obligations.RingsAndDetachment : Prop :=
  (∀ (s : State) (r : RingId) (v : W32) (replay : List RawDesc), OnLink s →
      let g := ringGet s r
      (g.state = .off → v.getLsbD 2 = false →
        (indicesOk g g.startAcc g.startCmp = true → ∃ t, exec (.ringEnable r v replay) s = .next t
          ∧ (ringGet t r).state = .running ∧ (ringGet t r).enable = true
          ∧ (ringGet t r).accepted = g.startAcc ∧ (ringGet t r).complete = g.startCmp
          ∧ (ringGet t r).sealed = v.getLsbD 1 ∧ (ringGet t r).base = g.base ∧ (ringGet t r).owner = g.owner)
        ∧ (indicesOk g g.startAcc g.startCmp = false → ∃ t, exec (.ringEnable r v replay) s = .next t
          ∧ (ringGet t r).state = .stopped ∧ t.descs = s.descs))
      ∧ (g.state = .running ∨ g.state = .notOwner → ∃ t, exec (.ringDisable r v) s = .next t
          ∧ (ringGet t r).state = (if ringIdle s r then .off else .draining)
          ∧ (ringGet t r).accepted = g.accepted ∧ t.descs = s.descs))
  ∧
  (∀ (s : State) (c : DetachCause) (bell : List W64) (replay : List RawDesc), Live s →
      (s.rings.detached = false → exec (.deviceDetach c) s =
        .next (hostAgentReset (hostDriverReset { s with rings := { s.rings with detached := true } })))
      ∧ (s.rings.detached = true → s.safety.state ≠ .halt →
          (∀ r, (ringGet s r).state = .off ∨ doorbellGen (nth bell r.val 0) = (ringGet s r).owner) →
          ∃ t, exec (.deviceReattach bell replay) s = .next t ∧ t.rings.detached = false
            ∧ t.rings.held = false ∧ t.jobs = s.jobs ∧ t.motion = s.motion)
      ∧ (s.rings.detached = true → s.safety.state = .halt → ∃ t, exec (.deviceReattach bell replay) s = .next t
          ∧ t.rings.detached = false ∧ t.descs = s.descs ∧ t.jobs = s.jobs ∧ t.motion = s.motion))

/-! ## Slot boundaries -/

/-- R52, R80, R81, R82, R107, R248: a boundary with no job and nothing accepted counts, starts the next period, puts every
pending register and a new recipe into force, and retains the basins that have been idle for `RETAIN_SLOTS`; a boundary
that a lantern of a running job has not reached in time raises `SLOT_OVERRUN`.

R52, R80, R82: at a boundary that leaves no job dispatched, both pending registers take effect together; at any other
boundary neither does. -/
def Obligations.IdleBoundary : Prop :=
  (∀ (s : State) (late : List Phys), Served s → s.grid.running = true →
      (s.jobs = [] → s.descs = [] → s.klink.pendMap = none → ∃ t, exec (.slotBoundary late) s = .next t
        ∧ t.grid = { s.grid with
            count := s.grid.count + 1, base := s.grid.base + s.grid.period * 10000, sub := 0
            period := s.grid.regPeriod, retain := s.grid.regRetain, pending := false }
        ∧ t.mem.compat = s.mem.poolReg ∧ t.sluice.specEn = s.sluice.specReg
        ∧ t.sluice.recipe = (match s.sluice.nextRec with | some r => some r | none => s.sluice.recipe)
        ∧ t.jobs = [] ∧ t.world.epoch = s.world.epoch ∧ t.safety = s.safety
        ∧ ∀ p n, (lant s p).job = none → (lant s p).idle = some n → (lant s p).retain = .awake →
            (lant t p).retain = if s.grid.regRetain ≤ n then .retained else .awake)
      ∧ ((∃ p ∈ late, (jobOn s p).isSome = true) →
          exec (.slotBoundary late) s = .next (raise s .slotOverrun [])))
  ∧
  (∀ s : State,
      (s.jobs ≠ [] → idleApply s = s)
      ∧ (s.jobs = [] → idleApply s = { s with
          mem := { s.mem with compat := s.mem.poolReg, poolPend := false }
          grid := { s.grid with period := s.grid.regPeriod, retain := s.grid.regRetain, pending := false } }))

/-- R83, R342, R39: the walk dispatches a job that was ready when it began, that no check refuses and no hold or occupied
lantern stops, while no bank group of the cistern sleeps: it runs, its lanterns are its own and their range counters 0. A ready job that a check refuses completes with that refusal. -/
def Obligations.WalkDispatchesOrRefuses : Prop :=
  ∀ (s : State) (res : List Phys) (d : DescEntry), findDesc s d.ref = some d → d.stage = .ready →
    (∀ img, dispatchRefusal s d = none → jobImage s d = some img → waits s d img = false → held s img = false →
      canDispatch s res d img = true → (∀ g : Fin 48, (s.mem.groups.get g).asleep = false) →
      let t := (walkJob (s, res) (d.ref, true)).1
      t.jobs = s.jobs ++ [newJob s d img false] ∧ (findDesc t d.ref).map (·.stage) = some .running
      ∧ (∀ p ∈ maskPhys s img.lanternSet, (lant t p).job = some d.ref ∧ (lant t p).rangeCtr = 0)
      ∧ (walkJob (s, res) (d.ref, true)).2 = res)
    ∧ (∀ st det ev, dispatchRefusal s d = some (st, det, ev) → st ≠ .ok →
        DoneAs (walkJob (s, res) (d.ref, true)).1 d.ref (plainResult st det) ∧ (walkJob (s, res) (d.ref, true)).2 = res)

/-- R77, R211, R244, R282, R347: a job that nothing ends goes on to its next slot; one that ends does so with the status
that its end gives it. -/
def Obligations.JobsContinueOrEnd : Prop :=
  ∀ (s : State) (j : Job), j.kind = .work →
    (j.endAs = .none → j.slot + 1 < j.img.slotCount → stepJob s j = modJob s j.ref nextSlot
      ∧ (nextSlot j).slot = j.slot + 1)
    ∧ (j.endAs = .cancelled → endsNow j = true ∧ endStatus j = (.cancelled, 0))
    ∧ (∀ c, j.endAs = .faultNow c → endsNow j = true ∧ endStatus j = (.jobFault, c.number))
    ∧ (∀ c, j.endAs = .fault c → endStatus j = (.jobFault, c.number)
        ∧ (endsNow j = true ↔ j.img.slotCount ≤ j.slot + 1))
    ∧ (j.endAs = .none → j.img.publishes = false → endStatus j = (.ok, 0))
    ∧ (j.endAs = .none → j.img.publishes = true → j.restored = false →
        (j.published.isSome = true → endStatus j = (.ok, 0))
        ∧ (j.published = none → j.selected = true → endStatus j = (.noConfirmedPlan, 0))
        ∧ (j.published = none → j.selected = false → endStatus j =
            (if j.route.status = .noRoute then .noRoute else .infeasibleBest, 0)))

/-! ## Cameras, motion ports and groups -/

/-- R108, R392, R395: a start-of-frame of a participating camera opens a set where none is open, joins one within
`SYNC_TOL`, and else only counts; one of a port below state 2 is ignored. MODEL'S CHOICE (log 148): a set that has closed takes no part
in this, so a start within its tolerance opens a new one.

R17, R108: an accepted frame of an admitted camera, as the recipe's assignments let it in, enters the open set; the set completes with the last camera's frame
or at its timeout and waits for fusion, in place of the oldest where three wait; a set with no frame is dropped. Before
`SET_TIMEOUT` has passed nothing closes it. -/
def Obligations.FrameSetsForm : Prop :=
  (∀ (s : State) (p : Fin 4) (ns : Nat), Live s →
      let tol := 1000 * ((s.sluice.recipe.map (·.syncTolUs)).getD 0)
      let joins := takesPart s p = true ∧ s.pwr.pstate ≠ .doze
      ((camGet s p).state < 2 → exec (.startOfFrame p ns) s = .next s)
      ∧ (2 ≤ (camGet s p).state → ∃ t, exec (.startOfFrame p ns) s = .next t
        ∧ (camGet t p).sofs = (camGet s p).sofs + 1 ∧ (camGet t p).sofNs = ns ∧ (camGet t p).lastSof = s.pwr.ticks
        ∧ (camGet t p).early = (camGet s p).accepted.any (fun a => decide (ns < a + 16000000))
        ∧ (¬ joins → t.world = s.world)
        ∧ (joins → s.world.openSet = none →
            t.world.openSet = some ⟨ns, s.pwr.ticks, (List.finRange 4).filter (takesPart s), [p], []⟩
            ∧ (camGet t p).inSet = true)
        ∧ (∀ o, joins → s.world.openSet = some o →
            (ns ≤ o.teNs + tol → o.teNs ≤ ns + tol → p ∈ o.ports → p ∉ o.joined →
              t.world.openSet = some { o with joined := o.joined ++ [p] } ∧ (camGet t p).inSet = true)
            ∧ (o.teNs + tol < ns ∨ ns + tol < o.teNs →
              t.world.openSet = some o ∧ (camGet t p).inSet = false))
        ∧ SameFabric s t ∧ SameFaults s t ∧ SameWork s t))
  ∧
  (∀ (s : State) (p : Fin 4) (cfg : CamCfg) (f : FrameObs) (o : OpenSet), Live s → s.world.openSet = some o →
      let c := camGet s p
      let in_ := assigned cfg f
      let got := o.got ++ [setFrame s p (frameCtr c in_) in_]
      let pushed : List SetFrame → List FrameSet := fun x =>
        if s.world.waiting.length < 3 then s.world.waiting ++ [⟨o.teNs, x⟩]
        else (s.world.waiting ++ [(⟨o.teNs, x⟩ : FrameSet)]).drop 1
      (camCfg s p = some cfg → hasDepth cfg f = true → frameWhole cfg f = true → c.state = 3 → c.early = false →
        patternOk c in_ = true → c.late = false → c.inSet = true → s.pwr.pstate ≠ .doze → twoRunning false c.hist = false →
        ∃ t, exec (.frameReceived p f) s = .next t
          ∧ ((∃ q ∈ o.ports, ∀ x ∈ got, x.port ≠ q) →
              t.world.openSet = some { o with got } ∧ t.world.waiting = s.world.waiting)
          ∧ ((∀ q ∈ o.ports, ∃ x ∈ got, x.port = q) →
              t.world.openSet = none ∧ t.world.waiting = pushed got))
      ∧ (setDue s = false → exec .setTimeout s = .next s)
      ∧ (setDue s = true → o.got = [] → ∃ t, exec .setTimeout s = .next t ∧ t.world.openSet = none
          ∧ t.world.waiting = s.world.waiting)
      ∧ (setDue s = true → o.got ≠ [] → ∃ t, exec .setTimeout s = .next t ∧ t.world.openSet = none
          ∧ t.world.waiting = pushed o.got))

/-- R298, R299, R393, R394: discovery by glow on the camera's bus makes a port configuring, configuring by a glow that runs makes
it a candidate, its second passing frame admits it, a third failed attempt or a detach leaves it absent; without a glow that runs
a port stays in configuration; a frame of which a packet is bad or missing is discarded and logged; a probe comparison
notes whether the check voxels hold the table's values for the phase of the frame that filled them; an in-band event goes to glow, or asserts
WAKE_N in the pilot state. -/
def Obligations.CamerasAreAdmitted : Prop :=
  ∀ (s : State) (p : Fin 4) (cfg : CamCfg) (f : FrameObs) (bus : Fin 2) (hot : Bool), Live s →
    let c := camGet s p
    let in_ := assigned cfg f
    (camCfg s p = some cfg →
      (c.state = 0 → s.mgmt.glow = 2 ∨ s.mgmt.glow = 3 →
        exec (.cameraDiscovered p cfg.bus cfg.provId) s = .next (camSet s p { CamPort.reset with state := 1 })
        ∧ (∀ b id, b ≠ cfg.bus ∨ id ≠ cfg.provId → exec (.cameraDiscovered p b id) s = .next s))
      ∧ (c.state = 2 → hasDepth cfg f = true → frameWhole cfg f = true → c.early = false → patternOk c in_ = true →
          ∃ t, exec (.frameReceived p f) s = .next t
            ∧ (c.passRun = 0 → (camGet t p).state = 2 ∧ (camGet t p).passRun = 1)
            ∧ (1 ≤ c.passRun → (camGet t p).state = 3))
      ∧ (2 ≤ c.state → hasDepth cfg f = true → frameWhole cfg f = false → exec (.frameReceived p f) s =
          .next (raise (camSet s p { takeRef c in_ with inSet := false, late := false }) .camFrameBad [])))
    ∧ (c.state = 1 →
        (2 ≤ s.mgmt.glow → s.mgmt.glow ≤ 4 →
          exec (.cameraConfigured p true) s = .next (camSet s p { CamPort.reset with
            state := 2, lastSof := s.pwr.ticks, pattern := ((camCfg s p).map (·.pattern)).getD 0 })
          ∧ (c.cfgFails < 2 → exec (.cameraConfigured p false) s =
              .next (camSet s p { c with cfgFails := c.cfgFails + 1 }))
          ∧ (2 ≤ c.cfgFails → exec (.cameraConfigured p false) s =
              .next (raise (camSet s p CamPort.reset) .camConfigFail [])))
        ∧ (s.mgmt.glow < 2 ∨ 4 < s.mgmt.glow → ∀ ok, exec (.cameraConfigured p ok) s = .next s))
    ∧ (2 ≤ c.state → c.lastSof + 3200000 ≤ s.pwr.ticks →
        ∃ t, exec (.camDetached p .noFrames) s = .next t ∧ (camGet t p).state = 0)
    ∧ (s.pwr.ticks < c.lastSof + 3200000 → exec (.camDetached p .noFrames) s = .next s)
    ∧ (c.state ≠ 0 → ∃ t, exec (.camDetached p .i3cSilent) s = .next t ∧ (camGet t p).state = 0)
    ∧ (∀ j set r x, fusingJob s = some j → j.fusing = some set → j.recipe = some r →
        s.world.probed.get p = some x →
        ∃ t, exec (.probeCompare p) s = .next t
          ∧ (camGet t p).probeFail = !(checkValues (probeNow s p) == checkValues (probeRegion r x.1 [])))
    ∧ (s.pwr.pstate ≠ .pilot → exec (.i3cInBandEvent bus hot) s = .next { s with
        motion := { s.motion with i3c := s.motion.i3c ++ [(bus.val, hot)] } })
    ∧ (s.pwr.pstate = .pilot → exec (.i3cInBandEvent bus hot) s = .next { s with
        pwr := { s.pwr with wakeN := true } })

/-- R397, R406: a device that is configured as grandmaster is it where the best master clock algorithm, with the configured
priority1, chooses it; of any other a valid Sync sets the time and ends a loss of synchronisation, as it ends the wait after a
pilot wake; a loss ends every running publishing job at the next boundary and is logged once; a port's link state is shown.
MODEL'S CHOICE (log 161): a device that is chosen as grandmaster is synchronised from then on.

R398, R400, R401: in each cycle a port sends, in ascending node ID, one setpoint frame to each controlled drive of a
robot that has a hand-off, under that node's counter and tagged with its key; a hand-off less than 50 µs before a window is not
carried in it. -/
def Obligations.TimeBaseAndSetpoints : Prop :=
  (∀ (s : State) (ns : Nat) (y : Bool) (a : Option (Byte × Bool)) (port : Fin 2), Live s →
      let best := s.motion.gmRole = true ∧ ∀ q better, a = some (q, better) →
        s.motion.priority1.toNat < q.toNat ∨ (s.motion.priority1 = q ∧ better = true)
      let back := fun (u : State) => if s.motion.syncLost then raise u .timeSyncRestored [] else u
      exec (.ptpFrameReceived y false ns a) s = .next s
      ∧ (best → exec (.ptpFrameReceived y true ns a) s = .next (back { s with
          motion := { s.motion with gm := true, syncLost := false, awaitSync := false } }))
      ∧ (¬ best →
          exec (.ptpFrameReceived false true ns a) s = .next { s with motion := { s.motion with gm := false } }
          ∧ exec (.ptpFrameReceived true true ns a) s = .next (back { s with
              grid := { s.grid with asTime := 4 * ns }
              motion := { s.motion with
                gm := false, sync := true, syncLost := false, awaitSync := false, syncAt := s.pwr.ticks } }))
      ∧ (s.motion.gm = false → s.motion.syncLost = false → exec .timeSyncLost s = .next (raise { s with
          motion := { s.motion with sync := false, syncLost := true }
          jobs := s.jobs.map fun j =>
            if j.img.publishes then { j with endAs := j.endAs.orNow .timeSyncLost } else j }
          .timeSyncLost []))
      ∧ exec (.motionPortLinkChange port true) s = .next { s with
          motion := { s.motion with link := s.motion.link ||| BitVec.ofNat 2 (2 ^ port.val) } }
      ∧ exec (.motionPortLinkChange port false) s = .next { s with
          motion := { s.motion with link := s.motion.link &&& ~~~ BitVec.ofNat 2 (2 ^ port.val) } })
  ∧
  (∀ (s : State) (port : Fin 2), Live s →
      let mine := (List.finRange 32).filterMap fun i =>
        match (nodeTable s)[i.val]? with
        | some c => if c.kind == .drive && c.controlled && c.port == port then some (i, c) else none
        | none => none
      let inOrder := mine.insertionSort fun a b => a.2.nodeId.toNat ≤ b.2.nodeId.toNat
      ∃ t, exec (.qbvCycle port) s = .next t
        ∧ t.motion.sent = inOrder.filterMap (fun x => match carried s x.2.robot with
            | e :: es => some (setpoint s x.2 (nodeGet s x.1).tx e (e :: es))
            | [] => none)
        ∧ t.motion.wire = inOrder.filterMap (fun x => match carried s x.2.robot with
            | e :: es => some (withTag s x.2 (setpointBytes (setpoint s x.2 (nodeGet s x.1).tx e (e :: es))))
            | [] => none)
        ∧ (∀ robot h, s.motion.handedAt.find robot = some h → qbvStart s < h + 50000 →
            carried s robot = ((s.motion.trajs.find robot).getD []).drop 1)
        ∧ t.motion.trajs = s.motion.trajs ∧ t.safety = s.safety ∧ t.jobs = s.jobs)

/-- R399, R403, R404, R405: a joint state with a good tag and a later counter is taken as its node's newest; a frame of an
unknown node, or with a bad tag or a stale counter, is counted in `TAG_FAIL` and logged at most once per 10 ms; a hello that
agrees with the table makes its node present, one that disagrees is logged; a node without hellos for 30 ms is dropped, and
the running jobs that need it end at the next boundary; the device sends one hello to each node of the table under that node's
counter, tagged with that node's key.

R399, R400, R403, R404: a setpoint frame begins with the subtype, the version and the node's ID and counter and is as
long as its layout; a frame of another subtype, version or length is discarded (model's choice, log 105). -/
def Obligations.NodesComeAndGo : Prop :=
  (∀ (s : State) (hb fb : List Byte) (h : HelloFrame) (f : JointFrame) (tag : Bool) (i : Fin 32) (c : NodeCfg), Live s →
      decodeHello hb = some h → decodeJoint fb = some f →
      let n := nodeGet s i
      let count := { s with motion := { s.motion with tagFail := satInc s.motion.tagFail } }
      let counted := if s.motion.tagLog.any fun t => s.pwr.ticks < t + 320000 then count
        else raise { count with motion := { count.motion with tagLog := some s.pwr.ticks } } .motionTagFail []
      (nodeIdx s f.nodeId = some (i, c) → counterOk n f.counter = true →
        exec (.jointStateReceived fb true) s =
          .next (nodeSet s i { n with rx := some f.counter, hist := f :: n.hist }))
      ∧ (nodeIdx s f.nodeId = none ∨ (nodeIdx s f.nodeId = some (i, c) ∧ (tag && counterOk n f.counter) = false) →
          exec (.jointStateReceived fb tag) s = .next counted)
      ∧ (nodeIdx s h.nodeId = none ∨ (nodeIdx s h.nodeId = some (i, c) ∧ (tag && counterOk n h.counter) = false) →
          exec (.helloReceived hb tag) s = .next counted)
      ∧ (nodeIdx s h.nodeId = some (i, c) → counterOk n h.counter = true →
          let agrees := h.kind = (match c.kind with | .drive => 1 | .encoder => 2) ∧ h.axes.toNat = c.axes
            ∧ h.keyId = s.motion.keyId
            ∧ (c.kind = .encoder ∨ (h.robot.toNat = c.robot ∧ h.firstAxis.toNat = c.firstAxis))
          let there := nodeSet s i { n with rx := some h.counter, hello := s.pwr.ticks, present := true }
          (agrees → exec (.helloReceived hb true) s = .next (if n.present then there else raise there .driveFound []))
          ∧ (¬ agrees → exec (.helloReceived hb true) s = .next (raise s .driveMismatch [])))
      ∧ (n.present = true → n.hello + 960000 ≤ s.pwr.ticks → (nodeTable s)[i.val]? = some c →
          exec (.driveLost i) s = .next (raise { nodeSet s i { n with present := false } with
            jobs := s.jobs.map fun j =>
              if needsDrives j ∧ c.kind = .drive ∧ c.controlled ∧ c.robot = j.img.robot.toNat then
                { j with endAs := j.endAs.orNow .driveLost }
              else j } .driveLost []))
      ∧ (n.present = false ∨ s.pwr.ticks < n.hello + 960000 → exec (.driveLost i) s = .next s)
      ∧ (let table := nodeTable s
        let hellos := ((List.finRange 32).filter fun k => k.val < table.length).map fun k =>
          ((nth table k.val default).nodeId, (nodeGet s k).tx)
        exec .helloTransmit s = .next { s with motion := { s.motion with
          hellos
          wire := ((List.finRange 32).filter fun k => k.val < table.length).map fun k =>
            withTag s (nth table k.val default)
              (helloBytes ((s.sluice.recipe.map (·.deviceNode)).getD 0) (nodeGet s k).tx (asNs s) s.motion.keyId)
          nodes := Vector.ofFn fun k =>
            if k.val < table.length then { nodeGet s k with tx := (nodeGet s k).tx + 1 } else nodeGet s k } }))
  ∧
  ((∀ f : Setpoint, field (setpointBytes f) 0 1 = 1 ∧ field (setpointBytes f) 1 1 = 1
      ∧ field (setpointBytes f) 2 2 = f.nodeId.toNat ∧ field (setpointBytes f) 4 4 = f.counter.toNat)
    ∧ (∀ bs : List Byte, field bs 0 1 ≠ 2 → decodeJoint bs = none)
    ∧ (∀ bs : List Byte, field bs 0 1 ≠ 3 → decodeHello bs = none)
    ∧ (∀ (s : State) (bs : List Byte) (tag : Bool), Live s →
        (decodeJoint bs = none → exec (.jointStateReceived bs tag) s = .next s)
        ∧ (decodeHello bs = none → exec (.helloReceived bs tag) s = .next s)))

/-- R375, R389: what `KL_CTRL`, training, the certificate exchange and a loss of lock do to a port's state.

R373 to R375, R387: on an up port a good packet releases what it acknowledges from the replay buffer; in sequence it is
taken once, out of sequence it is not; the raw depth it carries reaches a receiver's bitmap with its capture time; a CRC failure is counted and the
eighth running one retrains the port. A block with another sync header is no packet header (model's choice, log 70). -/
def Obligations.KlinkPorts : Prop :=
  (∀ (s : State) (p : Fin 4) (v : W32) (key : BitVec 512) (d : Digest), Live s →
      let k := kGet s p
      (s.pwr.perstN = true → ∃ t, exec (.klPortEnable v) s = .next t ∧ t.klink.enable = BitVec.ofNat 4 v.toNat
        ∧ ∀ q, (kGet t q).state =
            if v.getLsbD q.val then (if (kGet s q).state = 0 then 1 else (kGet s q).state) else 0)
      ∧ (k.state = 1 → exec (.klinkTrained p) s = .next (kSet s p { k with state := 2, since := s.pwr.ticks }))
      ∧ (k.state = 1 → k.since + 320000 ≤ s.pwr.ticks → k.attempts < 2 → exec (.klinkTrainTimeout p) s =
          .next (kSet s p { k with attempts := k.attempts + 1, since := s.pwr.ticks }))
      ∧ (k.state = 1 → k.since + 320000 ≤ s.pwr.ticks → 2 ≤ k.attempts → exec (.klinkTrainTimeout p) s =
          .next (kSet s p { k with state := 4, partner := none, since := s.pwr.ticks }))
      ∧ (k.state = 2 → ownerKey s = some key → ∃ t, exec (.klinkCertReceived p true key d) s = .next t
          ∧ (kGet t p).state = 3 ∧ (kGet t p).partner = some d ∧ t.klink.changeAt = some s.pwr.ticks)
      ∧ (k.state = 2 → ownerKey s ≠ some key → exec (.klinkCertReceived p true key d) s =
          .next (raise (kSet s p { k with state := 4, partner := none, since := s.pwr.ticks }) .klinkCertFail []))
      ∧ (k.state = 2 → k.since + 160000 ≤ s.pwr.ticks → exec (.klinkCertTimeout p) s =
          .next (raise (kSet s p { k with state := 4, partner := none, since := s.pwr.ticks }) .klinkCertFail []))
      ∧ (s.pwr.ticks < k.since + 160000 → exec (.klinkTrainTimeout p) s = .next s
          ∧ exec (.klinkCertTimeout p) s = .next s)
      ∧ (k.state = 3 → ∃ t, exec (.klinkLockLoss p) s = .next t ∧ (kGet t p).state = 1
          ∧ (kGet t p).retrains = satInc k.retrains ∧ t.klink.changeAt = some s.pwr.ticks))
  ∧
  (∀ (s : State) (p : Fin 4) (x : KPacket), Live s → (kGet s p).state = 3 →
      let k := kGet s p
      let acked := { k with
        crcRun := 0, txAck := x.ack, replay := k.replay.filter fun e => decide (2048 ≤ (x.ack - e.1).toNat) }
      let taken := kSet s p { acked with rxSeq := k.rxSeq + 1, rxBytes := k.rxBytes + x.len }
      (x.sync ≠ 0b10 → exec (.klinkPacketReceived p x) s = .next s)
      ∧ (x.sync = 0b10 →
        (x.crcOk = true →
          (x.seq ≠ k.rxSeq → exec (.klinkPacketReceived p x) s = .next (kSet s p acked))
          ∧ (x.seq = k.rxSeq →
            (x.raw = none → exec (.klinkPacketReceived p x) s = .next taken)
            ∧ (∀ cfg set ns, x.raw = some (cfg, set, ns) → exec (.klinkPacketReceived p x) s =
                .next (if isReceiver s then applyTap taken cfg ns set.pixels else taken))))
        ∧ (x.crcOk = false →
          (k.crcRun < 7 → exec (.klinkPacketReceived p x) s =
            .next (kSet s p { k with crcErr := satInc k.crcErr, crcRun := k.crcRun + 1 }))
          ∧ (7 ≤ k.crcRun → ∃ t, exec (.klinkPacketReceived p x) s = .next t
            ∧ (kGet t p).state = 1 ∧ (kGet t p).crcErr = satInc k.crcErr ∧ (kGet t p).retrains = satInc k.retrains))))

/-- R377, R378, R379: a map that this device issues as member 0 bears the version after the highest seen, holds no device but
those of which the members or its own ports have told, and every member that does not count as unreachable, and is sent and to be
installed; a device that is not its first member, or that knows of more than 8, issues none; a received map that is signed, newer
and in agreement with the ports is to be installed, another is rejected; an unreachable member is noted once. -/
def Obligations.GroupMapsInstall : Prop :=
  ∀ (s : State) (m : GroupMap) (d : Digest), Live s →
    let g := issuedMap s m
    (g.members.head? = some s.fuses.identity → g.members.length ≤ 8 →
      ∃ t, exec (.groupMapIssue m) s = .next t
        ∧ t.klink.pendMap = some g ∧ g.version = s.klink.seen + 1 ∧ t.klink.seen = s.klink.seen + 1 ∧ t.klink.changeAt = none
        ∧ t.klink.map = s.klink.map
        ∧ (∀ x ∈ g.members, x = s.fuses.identity ∨ x ∈ m.members ∨ x ∈ s.klink.map.members
            ∨ ∃ p : Fin 4, (kGet s p).state = 3 ∧ (kGet s p).partner = some x)
        ∧ ∀ x ∈ s.klink.map.members, x ∈ g.members ∨ ∃ e ∈ s.klink.lostAt, e.1 = x)
    ∧ (g.members.head? ≠ some s.fuses.identity ∨ 8 < g.members.length → exec (.groupMapIssue m) s = .next s)
    ∧ (s.klink.map.version.toNat < m.version.toNat → linksAgree s m = true →
        ∃ t, exec (.groupMapReceived m true) s = .next t ∧ t.klink.pendMap = some m
          ∧ t.klink.seen.toNat = max s.klink.seen.toNat m.version.toNat ∧ t.klink.map = s.klink.map)
    ∧ exec (.groupMapReceived m false) s = .next (raise s .groupMapReject [])
    ∧ (d ∈ s.klink.map.members → ∃ t, exec (.deviceUnreachable d) s = .next t
        ∧ (∃ e ∈ t.klink.lostAt, e.1 = d) ∧ t.klink.changeAt = some s.pwr.ticks)

/-- R383, R384, R385: exchange data that the 16 MiB store has room for waits there until its job reads it; the read takes the
inputs of one exchange, with the member's own, and ends the job at the next boundary with `KLINK_LATE` where one is missing and
with `GROUP_EPOCH_SKEW` where one is of another epoch; data that no job read
within 64 slot periods expires with an event, and a peer's abort ends the jobs of its
plan and tag at the next boundary, those that still wait for their dispatch too.

R386, R388: a receiver writes each part of its source's world set, and takes its epoch with the last; a partner's newest
trajectory of a robot comes before those of it that can still govern. -/
def Obligations.GroupExchanges : Prop :=
  (∀ (s : State) (tag : ExchTag) (b : BList) (j : Job) (plan t0 : W32), Live s →
      (storeFits s b = true → exec (.klinkExchangeReceived tag b) s = .next { s with
        klink := { s.klink with store := s.klink.store ++ [(tag, b, s.grid.count)] } })
      ∧ ((∃ e ∈ s.klink.store, e.1 = tag ∧ e.2.2 + 64 ≤ s.grid.count) → exec (.klinkExchExpired tag) s =
          .next (raise { s with klink := { s.klink with
            store := s.klink.store.filter fun e => !decide (e.1 = tag ∧ e.2.2 + 64 ≤ s.grid.count) } }
            .klinkExchExpired []))
      ∧ ((∀ e ∈ s.klink.store, e.1 = tag → s.grid.count < e.2.2 + 64) → exec (.klinkExchExpired tag) s = .next s)
      ∧ (∀ k, findJob s j.ref = some j → s.safety.queue.length < 8 → (j.endAs = .none ∨ ∃ c, j.endAs = .fault c) →
          dueExchange j = some k →
          let inputs := (otherMembers s).map fun g => inputState s j k g
          ((∀ x ∈ inputs, x = some true) → ∃ t, exec (.klinkExchangeRead j.ref) s = .next t
            ∧ t.klink.store = s.klink.store.filter (fun e => !isInput j k e)
            ∧ findJob t j.ref = some { j with
                lists := (takenInputs s j k).foldl (fun m e => m.put e.1 e.2) j.lists, exchRead := k :: j.exchRead })
          ∧ (none ∈ inputs → ∃ t, exec (.klinkExchangeRead j.ref) s = .next t
            ∧ (findJob t j.ref).map (·.endAs) = some (.faultNow .klinkLate))
          ∧ (none ∉ inputs → some false ∈ inputs → ∃ t, exec (.klinkExchangeRead j.ref) s = .next t
            ∧ (findJob t j.ref).map (·.endAs) = some (.faultNow .groupEpochSkew)))
      ∧ (dueExchange j = none → findJob s j.ref = some j → exec (.klinkExchangeRead j.ref) s = .next s)
      ∧ (s.safety.queue.length < 8 → (∀ k ∈ s.jobs, k.img.planId = plan ∧ k.desc.tag = t0 ∧ k.img.group.isSome = true) →
          s.jobs ≠ [] → ∃ t, exec (.groupAbortReceived plan t0) s = .next t
            ∧ t.jobs = s.jobs.map fun k => { k with endAs := k.endAs.orNow .groupPeerAbort })
      ∧ (s.jobs = [] → (∃ d ∈ s.descs, isCopy s plan t0 d = true) → exec (.groupAbortReceived plan t0) s =
          .next (raise { s with klink := { s.klink with peerAborts := s.klink.peerAborts ++ [(plan, t0)] } }
            .groupPeerAbort [])))
  ∧
  (∀ (s : State) (w : WorldSet) (x : Traj), Live s →
      (sourceOk s = true → w.complete = false → exec (.worldMasterReceived w) s = .next (takeWorldSet s w))
      ∧ (sourceOk s = true → w.complete = true → ∃ t, exec (.worldMasterReceived w) s = .next t
          ∧ t.world.epoch = w.epoch ∧ t.world.teNs = w.teNs ∧ t.world.built = true
          ∧ t.mem = (takeWorldSet s w).mem ∧ t.world.lastAdvance = s.pwr.ticks)
      ∧ (∀ a b, (takeWorldSet s { w with masters := [], spec := [], route := [(a, b)] }).mem.cistern =
          (placeWrite s (.cistern (s.world.places.route + a)) [b]).mem.cistern)
      ∧ (∀ m a b, (takeWorldSet s { w with masters := [(m, [(a, b)])], spec := [], route := [] }).mem.cistern =
          (placeWrite s (.cistern (nth s.world.places.masters m.val 0 + a)) [b]).mem.cistern)
      ∧ (sourceOk s = false → exec (.worldMasterReceived w) s = .next s)
      ∧ exec (.publishedTrajReceived x) s = .next { s with klink := { s.klink with
          partners := x :: liveTrajs (s.klink.partners.filter fun t => t.robot == x.robot) (asNs s)
            ++ s.klink.partners.filter fun t => t.robot != x.robot } })

/-! ## Spouts, security and the log -/

/-- R361: what a channel's sender reset leaves.

R362: both ends of a channel reset. -/
def Obligations.ChannelResets : Prop :=
  (∀ (s : State) (ch : Chan),
      let c := chanGet s ch
      let d := chanGet (chanSendReset s ch) ch
      d.epoch = c.epoch + 1 ∧ d.dropped = false ∧ d.blocked = false
      ∧ d.ackSeq = c.ackSeq ∧ d.ackCode = c.ackCode ∧ d.full = c.full
      ∧ (c.full = true → d.buf = c.buf ∧ d.msgEpoch = c.msgEpoch ∧ (c.msgEpoch = c.epoch → d.msgEpoch ≠ d.epoch))
      ∧ (c.full = false → d.buf = Vector.replicate 64 0))
  ∧
  (∀ (s : State) (ch : Chan),
      let c := chanGet s ch
      let d := chanGet (chanBothReset s ch) ch
      d.buf = Vector.replicate 64 0 ∧ d.full = false ∧ d.dropped = c.full ∧ d.blocked = false
      ∧ d.epoch = c.epoch + 1 ∧ d.ackSeq = 0xFFFF ∧ d.ackCode = 0xFFFF)

/-- R355, R356, R357, R363, R364: a send clears the status bits to which its sender wrote 1; a message posted while FULL is 0 sets
FULL and takes SENDER_EPOCH, one posted while it is 1 is ignored and sets BLOCKED; a core of the device numbers its messages,
keeps one until it is acknowledged and sends the same one again until then; the receiver's read of the last word returns it and
clears FULL, any other read changes nothing; sconce answers, as it takes it, a message that it has acknowledged already, one of no
service that it offers there, and one with a bad LENGTH or reserved field; an acknowledgement shows SEQ and CODE and ends the
message that it names, and no receiver writes 0xFFFF. The host's accesses come over a link that is up.

R366, R367: the gate shows sconce an S0 message whose tag passes, or before the first session one of the key exchange,
and restarts its failure count; it discards one that fails, acknowledges it `SP_AUTH_FAIL`, and after the eighth failure
running discards every message for 1 s. -/
def Obligations.SpoutsCarryMessages : Prop :=
  (∀ (s : State) (ch : Chan) (w1c : BitVec 2) (m k : List Byte) (msg : Option (List Byte)) (w : Fin 16) (seq code : W16), Live s →
      (∀ x ∈ [Chan.n 0, .n 1, .s 0, .s 1], ch = x → s.pwr.perstN = true) →
      let c := chanGet s ch
      let d := { c with dropped := c.dropped && !w1c.getLsbD 0, blocked := c.blocked && !w1c.getLsbD 1 }
      let alone := fun (t : State) => ∀ x, x ≠ ch → chanGet t x = chanGet s x
      let text := c.buf.toList
      let q := BitVec.ofNat 16 (field text 0 2)
      let answer : Option W16 :=
        if sconceInbox ch = false then none
        else if ch ≠ .s 0 ∧ (ackedAs c q).isSome = true then ackedAs c q
        else if offered ch text = false then some 2
        else if badFields (if ch = .s 0 then 48 else 56) text = true then some 3
        else none
      let code1 := shedCode s ch code
      (shedsSend s ch msg = true → exec (.spoutSend ch w1c msg) s = .next (chanSet s ch d))
      ∧ (shedsSend s ch msg = false → c.full = true → ∃ t, exec (.spoutSend ch w1c msg) s = .next t
          ∧ chanGet t ch = { d with blocked := true } ∧ alone t)
      ∧ (c.full = false → ch ≠ .s 0 → c.unacked = none → ∃ t, exec (.spoutSend ch w1c none) s = .next t
          ∧ chanGet t ch = { d with full := true, msgEpoch := c.epoch } ∧ alone t)
      ∧ (c.full = false → ch ≠ .s 0 → deviceSends ch = false → ∃ t, exec (.spoutSend ch w1c (some m)) s = .next t
          ∧ (chanGet t ch).full = true ∧ (chanGet t ch).msgEpoch = c.epoch ∧ (chanGet t ch).buf.toList = slice m 0 64
          ∧ (chanGet t ch).epoch = c.epoch ∧ alone t)
      ∧ (c.full = false → ch ≠ .s 1 → deviceSends ch = true → shedsSend s ch (some m) = false →
          (c.unacked = none → ∃ t, exec (.spoutSend ch w1c (some m)) s = .next t ∧ (chanGet t ch).full = true
            ∧ (chanGet t ch).buf.toList = leBytes 2 c.nextSeq.toNat ++ slice m 2 62 ∧ (chanGet t ch).nextSeq = c.nextSeq + 1
            ∧ (chanGet t ch).unacked = some (leBytes 2 c.nextSeq.toNat ++ slice m 2 62) ∧ alone t)
          ∧ (c.unacked = some k → ∃ t, exec (.spoutSend ch w1c (some m)) s = .next t ∧ (chanGet t ch).full = true
            ∧ (chanGet t ch).buf.toList = slice k 0 64 ∧ (chanGet t ch).nextSeq = c.nextSeq
            ∧ (chanGet t ch).unacked = some k ∧ alone t))
      ∧ (c.full = true → w ≠ 15 → exec (.spoutReceive ch w) s = .next { s with host := { s.host with
          busRead := BitVec.ofNat 64 (field text (4 * w.val) 4) } })
      ∧ (c.full = true → ∃ t, exec (.spoutReceive ch 15) s = .next t ∧ (chanGet t ch).full = false
          ∧ (chanGet t ch).buf = c.buf ∧ t.host.busRead = BitVec.ofNat 64 (field text 60 4)
          ∧ (answer = none → chanGet t ch = { c with full := false })
          ∧ ∀ a, answer = some a → (chanGet t ch).ackSeq = q ∧ (chanGet t ch).ackCode = a)
      ∧ (c.full = false → exec (.spoutReceive ch w) s = .next { s with host := { s.host with busRead := 0 } })
      ∧ (code ≠ 0xFFFF → ∃ t, exec (.spoutAck ch seq code) s = .next t ∧ chanGet t ch = { c with
          ackSeq := seq, ackCode := code1, lastAck := some (c.msgEpoch, seq, code1)
          unacked := if endsMessage c seq code1 then none else c.unacked })
      ∧ (ch ≠ .n 0 ∨ (s.mgmt.glow ≠ 3 ∧ s.mgmt.glow ≠ 4) → code1 = code)
      ∧ (code = 0xFFFF → exec (.spoutAck ch seq code) s = .next s))
  ∧
  (∀ s : State, OnLink s → (chanGet s (.s 0)).full = false →
      let c := chanGet s (.s 0)
      let passes :=
        if s.spout.gateKey then
          slice c.buf.toList 56 8 = mac8 (gateKey s) (slice c.buf.toList 0 56 ++ leBytes 1 0 ++ leBytes 1 c.epoch.toNat)
        else field c.buf.toList 2 1 = 1
      let discarded := fun (t : State) => (chanGet t (.s 0)).full = false ∧ (chanGet t (.s 0)).ackCode = 4
        ∧ (chanGet t (.s 0)).ackSeq = BitVec.ofNat 16 (field c.buf.toList 0 2)
      let locked := ∃ x, s.spout.lockout = some x ∧ s.pwr.ticks < x
      (¬ locked → passes → ∃ t, exec (.spoutSend (.s 0) 0 none) s = .next t ∧ (chanGet t (.s 0)).full = true
          ∧ (chanGet t (.s 0)).msgEpoch = c.epoch ∧ t.spout.gateFail = 0)
      ∧ (¬ locked → ¬ passes → ∃ t, exec (.spoutSend (.s 0) 0 none) s = .next t ∧ discarded t
          ∧ (s.spout.gateFail < 7 → t.spout.gateFail = s.spout.gateFail + 1 ∧ t.spout.lockout = none)
          ∧ (s.spout.gateFail = 7 → t.spout.lockout = some (s.pwr.ticks + 32000000)))
      ∧ (locked → ∃ t, exec (.spoutSend (.s 0) 0 none) s = .next t ∧ discarded t)
      ∧ (¬ locked → exec .gateLockoutEnd s = .next { s with spout := { s.spout with lockout := none } })
      ∧ (locked → exec .gateLockoutEnd s = .next s))

/-- R359 to R361, R371: a party's reset empties the channels it receives on, resets the ends it sends from and frees the
locks it holds, and no others.

R369, R370: a read of a free lock acquires it and returns 0, a read of a held one returns BUSY and its owner and changes
nothing; the owner's write of 0 frees it; every other write is ignored and logged. -/
def Obligations.PartyResetsAndLocks : Prop :=
  (∀ (s : State) (p : Fin 7), Live s →
      let after := fun (t : State) (rx tx : Chan) (req : Fin 11) =>
        chanGet t rx = recvReset (chanGet s rx) ∧ chanGet t tx = sendReset (chanGet s tx)
        ∧ (∀ x, x ≠ rx → x ≠ tx → chanGet t x = chanGet s x)
        ∧ ∀ n, t.spout.locks.get n = if s.spout.locks.get n = some req then none else s.spout.locks.get n
      (s.pwr.perstN = true → ∃ t, exec .driverReset s = .next t ∧ after t (.n 1) (.n 0) 0)
      ∧ (s.pwr.perstN = true → ∃ t, exec .agentReset s = .next t ∧ after t (.s 1) (.s 0) 1)
      ∧ (∃ t, exec (.partnerResetReport p) s = .next t ∧ after t (partnerTx p) (partnerRx p) ⟨4 + p.val, by omega⟩))
  ∧
  (∀ (s : State) (r : Fin 11) (n : Fin 64) (v : W32), Live s → (r ≤ 1 → s.pwr.perstN = true) →
      let read := fun (t : State) (x : W64) => ({ t with host := { t.host with busRead := x } } : State)
      (s.spout.locks.get n = none → exec (.lockRead r n) s =
        .next (read { s with spout := { s.spout with locks := s.spout.locks.set n (some r) } } 0))
      ∧ (∀ o, s.spout.locks.get n = some o →
          exec (.lockRead r n) s = .next (read s (BitVec.ofNat 64 (0x8000_0000 + o.val))))
      ∧ (s.spout.locks.get n = some r → exec (.lockWrite r n 0) s =
          .next { s with spout := { s.spout with locks := s.spout.locks.set n none } })
      ∧ (s.spout.locks.get n ≠ some r ∨ v ≠ 0 → exec (.lockWrite r n v) s = .next (raise s .lockWrongOwner [])))

/-- R410, R411, R413, R415, R364, R363: enrolment programs the first slot without a programmed bit and enrols the key once the
read-back agrees; it is refused where a key is enrolled, the slots are damaged or the signature fails; the lock needs an
owner; a request that has been acted on is only acknowledged again, and one with a bad LENGTH or
reserved field gets `SP_BAD_LENGTH`.

R415, R417, R422, R423, R364, R363: the key exchange's three messages, the installed session, its gate key and measurement; the
second message is 160 B, which begin with the identity public key; a session of an enrolled device needs a certificate that passed,
also where the owner was enrolled during the exchange; a report is one snapshot under the next count, and a request while one is
being sent is answered `SP_BUSY`; a request that has been acted on is only acknowledged again.

R363, R364, R366, R417, R422: what sconce posts on S1 carries the next SEQ, and the channel's TAG once a session is installed;
while the key exchange's second message or a report is being sent, its next 48 bytes are posted, the same ones until they are
acknowledged; an acknowledged part of a report leaves the rest. -/
def Obligations.OwnerAndSessions : Prop :=
  (∀ (s : State) (key : BitVec 512) (sig back : Bool), Live s →
      let before := ackedAs (chanGet s (.s 0)) (svcSeq s)
      let bad := badLength (chanGet s (.s 0)).buf.toList
      (∀ k, before = some k → exec (.ownerEnrol key sig back) s = .next (svcAck s k)
        ∧ exec (.ownerLock sig) s = .next (svcAck s k))
      ∧ (before = none → bad = true → exec (.ownerEnrol key sig back) s = .next (svcAck s 3)
        ∧ exec (.ownerLock sig) s = .next (svcAck s 3))
      ∧ (before = none → bad = false → ownerKey s = none → enrolDamaged s = false →
        (∃ t, exec (.ownerEnrol key true true) s = .next t ∧ ownerKey t = some key
          ∧ t.sec.meas.get 7 = Config.sm3 (digestBytes (s.sec.meas.get 7) ++ digestBytes (Config.sm3 [1])))
        ∧ (∃ t, exec (.ownerEnrol key true false) s = .next t ∧ ownerKey t = none ∧ t.sec.meas = s.sec.meas
            ∧ (if s.fuses.owner0.anyBit then t.fuses.owner1.anyBit else t.fuses.owner0.anyBit) = true))
      ∧ (before = none → bad = false → (ownerKey s).isSome = true ∨ enrolDamaged s = true ∨ sig = false →
          exec (.ownerEnrol key sig back) s = .next (svcAck s 6))
      ∧ (before = none → bad = false → (ownerKey s).isSome = true → ∃ t, exec (.ownerLock true) s = .next t
          ∧ t.fuses = { s.fuses with lock := true }
          ∧ t.sec.meas.get 7 = Config.sm3 (digestBytes (s.sec.meas.get 7) ++ digestBytes (Config.sm3 [2])))
      ∧ (before = none → bad = false → ownerKey s = none ∨ sig = false → exec (.ownerLock sig) s = .next (svcAck s 6)))
  ∧
  (∀ (s : State) (cert ok : Bool) (pay : List Byte) (secret nonce : Digest), Live s →
      let before := ackedAs (chanGet s (.s 0)) (svcSeq s)
      let bad := badLength (chanGet s (.s 0)).buf.toList
      let dropped := { s with sec := { s.sec with ke := 0, keCert := false, kePeer := [], keOut := [] } }
      let certOk := fun (x : Bool) => ownerKey s = none ∨ x = true
      (∀ k, before = some k → exec (.keyExchange (.first cert pay)) s = .next (svcAck s k)
        ∧ exec (.keyExchange (.third ok secret)) s = .next (svcAck s k)
        ∧ exec (.attestationReport nonce) s = .next (svcAck s k))
      ∧ (before = none → bad = true → exec (.keyExchange (.first cert pay)) s = .next (svcAck s 3)
        ∧ exec (.keyExchange (.third ok secret)) s = .next (svcAck s 3)
        ∧ exec (.attestationReport nonce) s = .next (svcAck s 3))
      ∧ (s.sec.ke = 1 → exec (.keyExchange .second) s =
          .next { s with sec := { s.sec with ke := 2, keOut := secondMessage s }, free := s.free + 1 })
      ∧ (secondMessage s).length = 160 ∧ (secondMessage s).take 64 = leBytes 64 (Config.sm2Public identityKey).toNat
      ∧ (s.sec.ke ≠ 1 → exec (.keyExchange .second) s = .next s)
      ∧ (before = none → bad = false →
        (certOk cert → exec (.keyExchange (.first cert pay)) s =
          .next (svcAck { s with sec := { s.sec with ke := 1, keCert := cert, kePeer := pay, keOut := [] } } 0))
        ∧ (¬ certOk cert → exec (.keyExchange (.first cert pay)) s = .next (svcAck dropped 4))
        ∧ (s.sec.ke = 2 → certOk s.sec.keCert → installRefused s = false →
            ∃ t, exec (.keyExchange (.third true secret)) s = .next t
              ∧ t.sec.session = (if (ownerKey s).isSome then .owned else .unowned) ∧ t.sec.sessId = s.sec.sessId + 1
              ∧ t.sec.secret = secret ∧ t.sec.ke = 0 ∧ t.spout.gateKey = true
              ∧ t.sec.meas.get 7 = Config.sm3 (digestBytes (s.sec.meas.get 7) ++ digestBytes (Config.sm3 [4])))
        ∧ (s.sec.ke = 2 → ok = false ∨ ¬ certOk s.sec.keCert → exec (.keyExchange (.third ok secret)) s = .next (svcAck dropped 4))
        ∧ (s.sec.ke = 2 → certOk s.sec.keCert → installRefused s = true →
            exec (.keyExchange (.third true secret)) s = .next (svcAck dropped 6))
        ∧ (s.sec.ke ≠ 2 → exec (.keyExchange (.third ok secret)) s = .next (svcAck s 6))
        ∧ (s.sec.reporting = true → exec (.attestationReport nonce) s = .next (svcAck s 1))
        ∧ (s.sec.reporting = false → ∃ t, exec (.attestationReport nonce) s = .next t ∧ t.sec.reporting = true
          ∧ t.sec.reports = s.sec.reports + 1 ∧ ∃ sig : BitVec 512,
            t.sec.reportOut = attestBytes s nonce (s.sec.reports + 1) ++ leBytes 64 sig.toNat)))
  ∧
  (∀ (s : State) (m k : List Byte) (seq code : W16), OnLink s →
      let c := chanGet s (.s 1)
      let posted := fun (t : State) (x : List Byte) => (chanGet t (.s 1)).full = true ∧ (chanGet t (.s 1)).unacked = some x
        ∧ t.sec = s.sec
        ∧ (s.spout.gateKey = false → (chanGet t (.s 1)).buf.toList = slice x 0 64)
        ∧ (s.spout.gateKey = true → (chanGet t (.s 1)).buf.toList = slice x 0 56 ++ gateTag s x 1 c.epoch.toNat)
      (c.full = false → c.unacked = none → ∃ t x, exec (.spoutSend (.s 1) 0 (some m)) s = .next t ∧ posted t x
        ∧ (chanGet t (.s 1)).nextSeq = c.nextSeq + 1 ∧ slice x 0 2 = leBytes 2 c.nextSeq.toNat
        ∧ (s.sec.keOut ≠ [] → field x 2 1 = 1 ∧ slice x 8 48 = slice s.sec.keOut 0 48)
        ∧ (s.sec.keOut = [] → s.sec.reporting = true → field x 2 1 = 4 ∧ slice x 8 48 = slice s.sec.reportOut 0 48)
        ∧ (s.sec.keOut = [] → s.sec.reporting = false → slice x 2 62 = slice m 2 62))
      ∧ (c.full = false → c.unacked = some k → ∃ t, exec (.spoutSend (.s 1) 0 (some m)) s = .next t ∧ posted t k)
      ∧ (c.unacked = some k → field k 2 1 = 4 → seq = BitVec.ofNat 16 (field k 0 2) → code ≠ 1 → code ≠ 0xFFFF →
          ∃ t, exec (.spoutAck (.s 1) seq code) s = .next t ∧ t.sec.reportOut = s.sec.reportOut.drop 48
            ∧ (chanGet t (.s 1)).unacked = none ∧ (t.sec.reporting = true ↔ 48 < s.sec.reportOut.length)))

/-- R444 to R451: an event while recording and no write in progress takes a record at NEXT with its class, words and time,
shown in the tail, unless it repeats the last record, whose REPEAT it then raises without a new SEQ. -/
def Obligations.EventsAreRecorded : Prop :=
  ∀ (s : State) (cls : EventClass) (words : List W32) (spec : Bool),
    s.ember.online = true → s.ember.frozen = false → s.ember.writing = false →
    let snap := snapshot s cls words
    let t := emberEvent s cls words spec
    (cls = .emberCleared ∨ cls = .frozenDrops ∨ (∀ r, s.ember.last = some r → ¬ (r.cls = cls ∧ r.words = snap)) →
      t.ember.next = s.ember.next + 1 ∧ t.ember.writing = true
      ∧ t.ember.tail.find (s.ember.next.toNat % 1024) = some ⟨s.ember.next, BitVec.ofNat 48 s.pwr.ticks, cls, false,
          false, false, spec, 1, snap, min words.length 12⟩)
    ∧ (∀ r, s.ember.last = some r → r.cls = cls → r.words = snap → cls ≠ .emberCleared → cls ≠ .frozenDrops →
        r.repeat_ < 65535 → t.ember.next = s.ember.next ∧
        (t.ember.last.map (·.repeat_)) = some (r.repeat_ + 1) ∧ (t.ember.last.map (·.time)) = some r.time)

/-- R448, R452, R454, R456, R458, R459: the log's own commands: the end of a write starts the next pending one and logs a flash page
that could not be written, a flush begins and ends, with the records up to its latest trigger and the head copy in flash, and
answers the clear that waits for it, a freeze is accepted or refused, ends, the cursor moves, and a fill shows what flash held.

R457, R458, R364, R363: an accepted clear removes every record below CLEAR_SEQ from the tail and from flash; its
`EMBER_CLEARED` record is written at NEXT, after a write in progress, becomes head position 0 and C, and is flushed; a refused one
removes nothing. A group of three or
more needs the group signature, and a signature that fails is refused in any group (model's choice, log 109). -/
def Obligations.EmberCommands : Prop :=
  (∀ (s : State) (v : W32) (p : PendSlot), Live s → s.pwr.pwrGood = true →
      let e := s.ember
      let logged := fun (u : State) => if u.ember.pageFail = true then
        raise { u with ember := { u.ember with pageFail := false } } .emberFlashFail [] else u
      (e.pend = [] → exec .emberWriteComplete s = .next (logged { s with ember := { e with writing := false } }))
      ∧ (e.frozen = false → e.pend = [p] → exec .emberWriteComplete s =
          .next (logged { s with ember := emberWrite { e with writing := false, pend := [] } p }))
      ∧ (e.online = true → exec .emberFlush s = .next { s with ember := { e with flushing := true, flushTo := e.next } })
      ∧ (e.flushing = true → e.clearing = none → ∃ t, exec (.emberFlushComplete true) s = .next t
          ∧ t.ember.flashed = (if serialLt e.flashed e.flushTo then e.flushTo else e.flashed) ∧ t.ember.headCopy = e.head
          ∧ t.ember.flushing = false ∧ t.ember.tail = e.tail ∧ t.ember.next = e.next)
      ∧ (∀ q, e.flushing = true → e.clearing = some q → (∀ x ∈ e.pend, x.cls ≠ .emberCleared) →
          ∃ t, exec (.emberFlushComplete true) s = .next t ∧ t.ember.clearing = none
            ∧ (chanGet t (.s 0)).ackSeq = q ∧ (chanGet t (.s 0)).ackCode = 0)
      ∧ (e.flushing = true → exec (.emberFlushComplete false) s = .next (raise { s with
          pwr := { s.pwr with idleSince := s.pwr.ticks }
          ember := { e with flushing := false, flashFail := true, clearing := none } } .emberFlashFail []))
      ∧ (s.pwr.perstN = true →
        (e.frozen = false → (s.safety.state ≠ .service ∨ ∀ r, (ringGet s r).state ≠ .running) →
          exec .emberFreeze s = .next { s with ember := { e with
            frozen := true, frozenAt := s.pwr.ticks, frozenN := 0, frozenS2 := 0, frozenS3 := 0 } })
        ∧ (s.safety.state = .service → (∃ r, (ringGet s r).state = .running) →
          exec .emberFreeze s = .next (raise s .emberFreezeRefused []))
        ∧ exec (.emberCursorWrite v) s = .next { s with ember := { e with
          index := BitVec.ofNat 16 v.toNat, area := BitVec.ofNat 2 (v.toNat / 65536)
          winReady := v.toNat / 65536 % 4 != 2 } })
      ∧ (s.pwr.ticks < e.frozenAt + 3200000 → exec (.emberUnfreeze .timeout) s = .next s)
      ∧ (∀ c, e.frozen = true → e.writing = false →
          (c = .write ∧ s.pwr.perstN = true) ∨ (c = .timeout ∧ e.frozenAt + 3200000 ≤ s.pwr.ticks) →
          ∃ t, exec (.emberUnfreeze c) s = .next t ∧ t.ember.frozen = false
          ∧ t.ember.next = e.next + 1 ∧ t.ember.last.map (·.cls) = some .frozenDrops
          ∧ t.ember.last.map (·.words) = some (snapshot s .frozenDrops [BitVec.ofNat 32 e.frozenN, BitVec.ofNat 32 e.frozenS2,
              BitVec.ofNat 32 e.frozenS3, BitVec.ofNat 32 (s.pwr.ticks - e.frozenAt)]))
      ∧ (e.winReady = false → exec .emberFillComplete s = .next { s with ember := { e with
          winReady := true, window := (List.range 64).map fun i => e.flash.find ((e.index.toNat + i) % 65536) } })
      ∧ (e.winReady = true → exec .emberFillComplete s = .next s))
  ∧
  (∀ (s : State) (q : W32) (sg ok : Bool), Live s →
      let before := ackedAs (chanGet s (.s 0)) (svcSeq s)
      let bad := badLength (chanGet s (.s 0)).buf.toList
      let signedOk := (sg = true → ok = true) ∧ (3 ≤ groupSize s → sg = true)
      let free := s.ember.frozen = false ∧ s.ember.flushing = false ∧ s.ember.clearing = none
      (∀ k, before = some k → exec (.emberClear q sg ok) s = .next (svcAck s k))
      ∧ (before = none → bad = true → exec (.emberClear q sg ok) s = .next (svcAck s 3))
      ∧ (before = none → bad = false → s.sec.session = .owned → serialLt s.ember.next q = false →
        serialLt s.ember.clear q = true → signedOk →
        (¬ free → exec (.emberClear q sg ok) s = .next (svcAck s 1))
        ∧ (free → ∃ t, exec (.emberClear q sg ok) s = .next t ∧ t.ember.clearing = some (svcSeq s)
          ∧ (∀ r ∈ t.ember.tail, serialLt r.2.seq q = false) ∧ (∀ r ∈ t.ember.flash, serialLt r.2.seq q = false)
          ∧ (s.ember.writing = false → t.ember.clear = s.ember.next ∧ t.ember.next = s.ember.next + 1 ∧ t.ember.flushing = true
            ∧ (t.ember.head.find 0).map (·.cls) = some .emberCleared
            ∧ (t.ember.head.find 0).map (·.seq) = some s.ember.next)
          ∧ (s.ember.writing = true → ∃ x ∈ t.ember.pend, x.cls = .emberCleared)))
      ∧ (before = none → bad = false →
          s.sec.session ≠ .owned ∨ serialLt s.ember.next q = true ∨ serialLt s.ember.clear q = false ∨ ¬ signedOk →
          exec (.emberClear q sg ok) s = .next (svcAck s 6)))

/-- R431, R434 to R436, R439, R440: glow's heartbeat, its restart from a good image, its hold at the fifth restart within
10 s, its bus violations, its load windows and the verdict on a host load.

R438: glow sheds telemetry after two intervals above 90 %, then discovery after two more, and restores each after five
below 70 %. -/
def Obligations.GlowSupervision : Prop :=
  (∀ (s : State) (d : Digest) (a : W32) (w : Bool) (beat : W32) (off : BitVec 16) (data : List Byte), Live s →
      let m := s.mgmt
      (glowUp s = true → s.pwr.waitGlow = false → exec (.glowHeartbeat beat) s = .next { s with
        mgmt := { m with beat, beatAt := s.pwr.ticks, glow := if m.glow = 1 then 2 else m.glow } })
      ∧ (glowUp s = true → s.pwr.waitGlow = false → m.beatAt + 1600000 ≤ s.pwr.ticks → restarts10s s < 4 →
          ∃ t, exec (.glowRestart true w d) s = .next t ∧ t.mgmt.glow = 1 ∧ t.mgmt.restarts = satInc m.restarts
            ∧ t.mgmt.restartAt = s.pwr.ticks :: m.restartAt.take 7
            ∧ t.sec.meas.get 3 = Config.sm3 (digestBytes (s.sec.meas.get 3) ++ digestBytes m.digest)
            ∧ chanGet t (.n 0) = recvReset (chanGet s (.n 0)) ∧ chanGet t (.n 1) = sendReset (chanGet s (.n 1)))
      ∧ (s.pwr.ticks < m.beatAt + 1600000 → exec (.glowRestart true w d) s = .next s)
      ∧ (glowUp s = true → s.pwr.waitGlow = false → m.beatAt + 1600000 ≤ s.pwr.ticks → 4 ≤ restarts10s s → exec (.glowRestart true w d) s =
          .next (raise { s with
            mgmt := { m with glow := 5, high := 0, lowRun := 0 }
            motion := { s.motion with cams := s.motion.cams.map fun c => if c.state = 1 then { c with cfgFails := 0 } else c } }
            .glowHeld []))
      ∧ (∃ t, exec (.glowBusViolation a w) s = .next t ∧ t.mgmt.viol = satInc m.viol ∧ t.mem.cistern = s.mem.cistern
          ∧ t.motion = s.motion ∧ t.fuses = s.fuses ∧ t.sec = s.sec ∧ (w = false → t.host.busRead = 0))
      ∧ (s.pwr.perstN = true → data.length ≠ 4 ∧ data.length ≠ 8 ∨ off.toNat % data.length ≠ 0 →
          exec (.glowLoadWinWrite off data) s = .next { s with host := { s.host with ur := true } })
      ∧ (s.pwr.perstN = true → data.length = 4 ∨ data.length = 8 → off.toNat % data.length = 0 → loadOpen s = true → m.busy = false → exec (.glowLoadWinWrite off data) s = .next { s with
          mgmt := { m with
            image := m.image.writeN (65536 * m.page.toNat + off.toNat) data } })
      ∧ (loadOpen s = true →
          (∃ t, exec (.glowLoadGo true d) s = .next t ∧ t.mgmt.glow = 1 ∧ t.mgmt.digest = d ∧ t.mgmt.busy = false
            ∧ t.sec.hostload = true
            ∧ t.sec.meas.get 3 = Config.sm3 (digestBytes (s.sec.meas.get 3) ++ digestBytes d))
          ∧ exec (.glowLoadGo false d) s = .next (raise { s with
              mgmt := { m with busy := false, loadFail := true } } .glowLoadFail [])))
  ∧
  (∀ (s : State) (busy : Nat), Live s →
      let m := s.mgmt
      (90 < busy → m.glow = 2 ∨ m.glow = 3 → exec (.glowLoadMeasure busy) s = .next { s with
        mgmt := if 1 ≤ m.high then { m with glow := m.glow + 1, high := 0, lowRun := 0 }
          else { m with high := 1, lowRun := 0 } })
      ∧ (busy < 70 → m.glow = 3 ∨ m.glow = 4 → exec (.glowLoadMeasure busy) s = .next { s with
          mgmt := if 4 ≤ m.lowRun then { m with glow := m.glow - 1, high := 0, lowRun := 0 }
            else { m with high := 0, lowRun := m.lowRun + 1 } })
      ∧ (70 ≤ busy → busy ≤ 90 → m.glow = 2 ∨ m.glow = 3 ∨ m.glow = 4 → exec (.glowLoadMeasure busy) s =
          .next { s with mgmt := { m with high := 0, lowRun := 0 } }))

/-! ## Power -/

/-- R414, R415, R471, R473, R482: at power-on a start-up without a failure ends READY at step 10, in service, with STOP_REQ_N asserted, the
lanterns numbered, the configured slot period and nothing accepted; without a glow image step 9 is skipped, with one the
device waits at step 8 for glow's first heartbeat; bad fuses and too few dies are HALT; start-up does not go on while the
test input is high, nor while a sensor reads the warning level.

R434, R435, R471, R473: glow's first heartbeat, or its time-out with a restart of glow (from its SRAM, from flash, or held for a
host load), ends step 9: the reflector check passes and the device is READY, or it fails and the device is in HALT. -/
def Obligations.StartUp : Prop :=
  (∀ (s : State) (o : StartupObs), s.pwr.pwrGood = false → s.pwr.pwrFailN = true → s.pwr.railLow = 0 →
      (StartClean s o → o.glowOk = false → ∃ t, exec (.powerOn o) s = .next t ∧ Started t
        ∧ t.pwr.stop = true ∧ t.map = logicalMap s.fuses ∧ t.fuses = s.fuses ∧ t.grid.period = o.cfgPeriod
        ∧ t.mem.present = 0xF ∧ t.mem.dataRate = o.dataRate ∧ t.mem.capacity = mappedGib 4 o.density ∧ t.mgmt.glow = 0 ∧ t.descs = [] ∧ t.jobs = []
        ∧ t.world.built = false ∧ t.ember.next = s.ember.reserve ∧ t.rings.ring = Vector.replicate 64 .reset
        ∧ t.sec.meas.get 2 = Config.sm3 (digestBytes 0 ++ digestBytes o.cfgDigest))
      ∧ (StartClean s o → o.glowOk = true → ∃ t, exec (.powerOn o) s = .next t ∧ t.pwr.ready = false
        ∧ t.pwr.step = 8 ∧ t.pwr.waitGlow = true ∧ t.safety.state = .startup ∧ t.pwr.stop = true ∧ t.mgmt.glow = 1
        ∧ t.sec.meas.get 3 = Config.sm3 (digestBytes 0 ++ digestBytes o.glowDigest))
      ∧ (o.trimTest = true ∨ tempWarnAt s ≤ o.hottest → ∃ t, exec (.powerOn o) s = .next t ∧ t.pwr.hub = false
        ∧ t.pwr.ready = false ∧ t.pwr.step = 2 ∧ t.safety.state = .startup ∧ t.pwr.stop = true)
      ∧ (o.trimTest = false → o.hottest < tempWarnAt s → o.fusesOk = false →
        ∃ t, exec (.powerOn o) s = .next t ∧ t.safety.state = .halt ∧ t.pwr.fail = 1 ∧ t.pwr.stop = true)
      ∧ (o.trimTest = false → o.hottest < tempWarnAt s → o.fusesOk = true → o.cfgOk = true →
        o.d2dFail = 0 → ((List.range 4).filter fun d => !o.ddrFail.getLsbD d).length < 3 →
        ∃ t, exec (.powerOn o) s = .next t ∧ t.safety.state = .halt ∧ t.pwr.fail = 2 ∧ t.pwr.stop = true))
  ∧
  (∀ (s : State) (beat : W32) (ok fl : Bool) (d : Digest), Live s → s.pwr.waitGlow = true → s.safety.state = .startup → s.pwr.preS1 = [] →
      s.safety.queue.length < 7 → glowUp s = true →
      (s.pwr.reflectorOk = true →
        (∃ t, exec (.glowHeartbeat beat) s = .next t ∧ Started t ∧ t.mgmt.beat = beat ∧ t.mgmt.beatAt = s.pwr.ticks
            ∧ t.pwr.stop = s.pwr.stop)
        ∧ (s.mgmt.beatAt + 4480000 ≤ s.pwr.ticks → ∃ t, exec (.startupHeartbeatTimeout true ok fl d) s = .next t ∧ Started t
            ∧ t.mgmt.glow = (if ok || fl then 1 else 0) ∧ t.mgmt.digest = (if !ok && fl then d else s.mgmt.digest)
            ∧ t.mgmt.restarts = satInc s.mgmt.restarts ∧ t.pwr.stop = s.pwr.stop)
        ∧ (s.pwr.ticks < s.mgmt.beatAt + 4480000 → exec (.startupHeartbeatTimeout true ok fl d) s = .next s))
      ∧ (s.pwr.reflectorOk = false → ∃ t, exec (.glowHeartbeat beat) s = .next t ∧ t.safety.state = .halt
          ∧ t.pwr.ready = s.pwr.ready ∧ t.pwr.stop = true))

/-- R474, R475: a device reset asserts STOP_REQ_N, ends the jobs and holds the hub in reset, with the log's event; PERST_N's
deassertion runs start-up again, and at any other moment moves the pin alone.

R476, R487, R489: an assertion of PWR_FAIL_N, and a rail below its minimum, assert STOP_REQ_N and end the jobs; when
the last cause has gone the device relights. PWR_GOOD's end stops everything, and the fuses stay.

R497: the hottest reading is shown; below its warning level a powered device goes on, the first reading at the warning
level is logged, WARN stays until 3 °C below it, and a trip asserts STOP_REQ_N and is HALT. -/
def Obligations.SuppliesAndTemperature : Prop :=
  (∀ (s : State) (o : StartupObs), s.pwr.pwrGood = true →
      (s.pwr.perstSeen = true → s.pwr.perstN = true → s.pwr.pstate ≠ .pilot →
        ∃ t, exec .deviceReset s = .next t ∧ t.pwr.perstN = false ∧ t.pwr.stop = true ∧ t.pwr.hub = false
          ∧ t.pwr.ready = false ∧ t.pwr.resetPend = true ∧ t.safety.state = .startup ∧ t.jobs = []
          ∧ t.fuses = s.fuses ∧ t.motion = s.motion)
      ∧ (s.pwr.resetPend = true → s.pwr.powerFail = false → s.pwr.trimTest = false → StartClean s o → o.glowOk = false →
          ∃ t, exec (.perstDeassert o) s = .next t ∧ Started t ∧ t.pwr.perstN = true ∧ t.pwr.stop = s.pwr.stop
            ∧ t.fuses = s.fuses ∧ t.sec.reports = s.sec.reports ∧ t.descs = [] ∧ t.pwr.resetPend = false)
      ∧ (s.pwr.resetPend = false → exec (.perstDeassert o) s =
          .next { s with pwr := { s.pwr with perstN := true, perstSeen := true } }))
  ∧
  (∀ (s : State) (o : StartupObs) (r : Rail), s.pwr.pwrGood = true →
      let failed := fun (t : State) => t.pwr.powerFail = true ∧ t.pwr.stop = true ∧ t.jobs = [] ∧ t.safety.handed = false
        ∧ t.motion = s.motion ∧ t.world = s.world
      ((s.pwr.pwrFailN = true → ∃ t, exec .pwrFailAssert s = .next t ∧ failed t ∧ t.pwr.pwrFailN = false)
        ∧ (s.pwr.railLow &&& railBit r = 0 → ∃ t, exec (.railUndervolt r) s = .next t ∧ failed t
            ∧ t.pwr.railLow = s.pwr.railLow ||| railBit r))
      ∧ (s.pwr.powerFail = true → (s.pwr.ready = true ∨ s.pwr.pstate = .pilot) → s.safety.state = .service →
          relights10s s < 2 →
          let relit := fun (t : State) => t.pwr.powerFail = false ∧ t.safety.state = .relight
            ∧ t.safety.relights = satInc s.safety.relights
          (s.pwr.railLow = 0 → ∃ t, exec (.pwrFailDeassert o) s = .next t ∧ relit t ∧ t.pwr.pwrFailN = true)
          ∧ (s.pwr.railLow = railBit r → s.pwr.pwrFailN = true → ∃ t, exec (.railRecovery r o) s = .next t
              ∧ relit t ∧ t.pwr.railLow = 0))
      ∧ (∃ t, exec .pwrGoodDeassert s = .next t ∧ t.pwr.pwrGood = false ∧ t.pwr.stop = true ∧ t.pwr.hub = false
          ∧ t.jobs = [] ∧ t.fuses = s.fuses))
  ∧
  (∀ (s : State) (d : Fin 7) (v : Int), s.pwr.pwrGood = true → s.pwr.pstate ≠ .pilot → s.pwr.heldStart = none →
      let shown : Bool → Bool → State := fun warn low => { s with pwr := { s.pwr with
        tjMax := BitVec.ofInt 8 v, hottest := d.val, warn, low } }
      (tempLowAt s ≤ v → v ≤ tempWarnAt s - 3 → exec (.tempRead [(d, v)]) s = .next (shown false false))
      ∧ (tempWarnAt s - 3 < v → v < tempWarnAt s → exec (.tempRead [(d, v)]) s = .next (shown s.pwr.warn false))
      ∧ (tempWarnAt s ≤ v → v < tempTripAt s → exec (.tempRead [(d, v)]) s = .next
          (if s.pwr.warn then shown true false else raise (shown true false) .tempWarn []))
      ∧ (v < tempLowAt s → exec (.tempRead [(d, v)]) s = .next (if s.pwr.low then shown false true else raise (shown false true) .tempLow []))
      ∧ (tempTripAt s ≤ v → s.pwr.tripped = false → ∃ t, exec (.tempRead [(d, v)]) s = .next t ∧ t.pwr.tripped = true
          ∧ t.safety.state = .halt ∧ t.pwr.stop = true ∧ t.jobs = []))

/-- R18, R466, R467, R477: a device that is due enters doze: lanterns gated, memories retained with their contents, the slot
grid stopped; a wake leaves it for hold with the bank groups awake and the grid restarted, and wakes the lanterns of the
jobs that are ready.

R468 to R470: at L2 an armed device whose rings are off, that is in doze or hold and whose robots stand still enters the
pilot state, its hub's state saved with a digest; else it is refused and disarmed. A wake whose digest holds is READY again with
the world cleared, its epoch and the trajectories kept, waiting for synchronisation; one whose digest fails is a device reset,
whose start-up follows unless a power failure holds it. -/
def Obligations.DozeAndPilot : Prop :=
  (∀ (s : State) (c : WakeCause) (v : W32), Live s →
      (dozeDue s = false → exec .dozeEntry s = .next s)
      ∧ (dozeDue s = true → ∃ t, exec .dozeEntry s = .next t ∧ t.pwr.pstate = .doze ∧ t.grid.running = false
          ∧ t.pwr.stop = s.pwr.stop ∧ t.rings = s.rings ∧ t.mem.cistern = s.mem.cistern
          ∧ (∀ g : Fin 48, t.mem.groups.get g = .retained)
          ∧ ∀ p, (lant t p).gated = true ∧ (lant t p).retain = .retained ∧ (lant t p).basin = (lant s p).basin)
      ∧ (s.pwr.pstate ≠ .doze → exec (.dozeWake .descriptor) s = .next s ∧ exec (.dozeWake .memoryAccess) s = .next s)
      ∧ (s.pwr.pstate = .doze → ∃ t, exec (.dozeWake c) s = .next t
          ∧ ((∀ d ∈ s.descs, d.stage ≠ .ready) → t.pwr.pstate = .hold) ∧ t.pwr.pstate ≠ .doze
          ∧ (∀ d ∈ s.descs, d.stage = .ready → ∀ img, jobImage s d = some img → ∀ p ∈ maskPhys s img.lanternSet,
              (lant s p).job = none → (lant s p).retain = .retained →
              (lant t p).retain = .waking (s.pwr.ticks + 384))
          ∧ t.grid = { s.grid with running := true, base := s.grid.base + s.grid.sub / 4, sub := 0 } ∧ (∀ g : Fin 48, t.mem.groups.get g = .awake)
          ∧ t.world = s.world ∧ t.mem.cistern = s.mem.cistern ∧ t.pwr.dozeEn = (s.pwr.dozeEn && c != .dozeDisabled))
      ∧ (s.pwr.perstN = true → v.getLsbD 0 = false → ∃ t, exec (.pilotArmWrite v) s = .next t ∧ t.pwr.dozeEn = false
          ∧ t.pwr.pilotArm = v.getLsbD 1 ∧ t.pwr.pstate ≠ .doze)
      ∧ (s.pwr.perstN = true → v.getLsbD 0 = true → exec (.pilotArmWrite v) s = .next { s with pwr := { s.pwr with
          dozeEn := true, pilotArm := v.getLsbD 1
          dozeIdle := if bits v.toNat 15 8 = 0 then s.pwr.dozeIdle else BitVec.ofNat 8 (bits v.toNat 15 8) } }))
  ∧
  (∀ (s : State) (n : Nat) (o : StartupObs) (ok : Bool),
      (Live s → s.pwr.pilotArm = true →
        (pilotAllowed s = true → ∃ t, exec .pilotEntry s = .next t ∧ t.pwr.pstate = .pilot ∧ t.pwr.hub = false
          ∧ t.pwr.ready = false ∧ t.pwr.stop = true ∧ t.pwr.pilotArm = true ∧ t.grid.running = false
          ∧ t.pwr.saveDigest = some (Config.sm3 t.mem.hubSave) ∧ t.motion.trajs = s.motion.trajs
          ∧ (∀ p, (kGet t p).state = 0) ∧ (∀ p, camGet t p = .reset) ∧ t.world.epoch = s.world.epoch
          ∧ t.sec = s.sec ∧ t.sluice = s.sluice)
        ∧ (pilotAllowed s = false → exec .pilotEntry s =
            .next (raise { s with pwr := { s.pwr with pilotArm := false } } .pilotReqRefused [])))
      ∧ (s.pwr.pwrGood = true → s.pwr.pstate = .pilot → s.pwr.perstN = true →
          (s.pwr.saveDigest.isSome = true → ∃ t, exec (.pilotWake true n o) s = .next t ∧ t.pwr.pstate = .run
            ∧ t.pwr.ready = true ∧ t.pwr.hub = true ∧ t.pwr.ticks = s.pwr.ticks + n ∧ t.pwr.stop = s.pwr.stop
            ∧ t.grid.running = true ∧ t.world.epoch = s.world.epoch ∧ t.world.dir = [] ∧ t.world.built = false
            ∧ t.motion.trajs = s.motion.trajs ∧ t.motion.awaitSync = true ∧ t.sluice = { s.sluice with trace := [] }
            ∧ t.sec = s.sec ∧ ∀ p, (lant t p).slices = 0 ∧ (lant t p).diagStart = s.pwr.ticks + n)
          ∧ (ok = false ∨ s.pwr.saveDigest = none →
              (s.pwr.powerFail = true → ∃ t, exec (.pilotWake ok n o) s = .next t ∧ t.pwr.resetPend = true
                ∧ t.pwr.ready = false ∧ t.pwr.stop = true ∧ t.safety.state = .startup)
              ∧ (s.pwr.powerFail = false → s.pwr.trimTest = false → StartClean s o → o.glowOk = false →
                  ∃ t, exec (.pilotWake ok n o) s = .next t ∧ Started t ∧ t.pwr.stop = true ∧ t.world.epoch = 0
                    ∧ t.descs = []))))

/-- R139: power-on and device reset set the world epoch to 0, relight leaves it unchanged, and "epoch a is at least b" holds
exactly when a − b, modulo 2³², is below 2³¹. -/
def Obligations.EpochRule : Prop :=
  (∀ (s t : State) (o : StartupObs), s.pwr.pwrGood = false → exec (.powerOn o) s = .next t → t.world.epoch = 0)
  ∧ (∀ (s t : State) (o : StartupObs), s.pwr.pwrGood = true → s.pwr.resetPend = true → s.pwr.powerFail = false →
      exec (.perstDeassert o) s = .next t → t.world.epoch = 0)
  ∧ (∀ (s t : State) (o : RelightObs), exec (.relight o) s = .next t → t.world.epoch = s.world.epoch)
  ∧ ∀ a b : W32, serialLe b a = true ↔ (a.toNat + 2 ^ 32 - b.toNat) % 2 ^ 32 < 2 ^ 31

/-! ## Invariants and whole-machine rules -/

/-- The invariants hold at reset: the memories are in canonical form, and the rule of HALT holds. -/
def Obligations.ResetMeetsInvariants : Prop :=
  MemWf State.reset ∧ HaltStops State.reset

/-- Every step, of every command and of none, keeps the data memories in canonical form. -/
def Obligations.StepKeepsMemWf : Prop :=
  ∀ s t : State, MemWf s → step s = .next t → MemWf t

/-- R285, R308: every step keeps the rule that in HALT STOP_REQ_N is asserted with no hand-off after it. -/
def Obligations.StepKeepsHaltStops : Prop :=
  ∀ s t : State, HaltStops s → step s = .next t → HaltStops t

/-- R308: only a power-on, a device reset, the start-up that a device reset runs, and the wake from the pilot state, which
may be one, leave HALT. -/
def Obligations.HaltIsLeftByReset : Prop :=
  ∀ (s t : State) (c : Instr), s.safety.state = .halt → exec c s = .next t → t.safety.state ≠ .halt →
    (∃ o, c = .powerOn o) ∨ c = .deviceReset ∨ (∃ o, c = .perstDeassert o) ∨ ∃ ok n o, c = .pilotWake ok n o

/-- R410: an enrolled owner key stays enrolled, whatever the block is commanded. -/
def Obligations.OwnerKeyStays : Prop :=
  ∀ (s t : State) (k : BitVec 512), ownerKey s = some k → step s = .next t → ownerKey t = some k

/-- R241, R286: no command but the reflector's verdict hands a trajectory to a motion port. -/
def Obligations.OnlyVerdictsHandOff : Prop :=
  ∀ (s t : State) (c : Instr), exec c s = .next t →
    t.motion.trajs = s.motion.trajs ∨ t.motion.trajs = [] ∨ ∃ job, c = .reflectorVerdict job
end

