-- ==== Sys2Proof/Laws/State.lean ====
section
/-! SUPPORT. What each named update of the state leaves as it was, one lemma per field, and what it writes. -/

namespace Sys2Proof.Machine

open Sys2Proof

/-! ## `setLant` -/

@[simp] theorem setLant_pwr (s : State) (p : Phys) (l : Lantern) : (setLant s p l).pwr = s.pwr := rfl
@[simp] theorem setLant_fuses (s : State) (p : Phys) (l : Lantern) : (setLant s p l).fuses = s.fuses := rfl
@[simp] theorem setLant_grid (s : State) (p : Phys) (l : Lantern) : (setLant s p l).grid = s.grid := rfl
@[simp] theorem setLant_map (s : State) (p : Phys) (l : Lantern) : (setLant s p l).map = s.map := rfl
@[simp] theorem setLant_mapRetired (s : State) (p : Phys) (l : Lantern) : (setLant s p l).mapRetired = s.mapRetired := rfl
@[simp] theorem setLant_mapSet (s : State) (p : Phys) (l : Lantern) : (setLant s p l).mapSet = s.mapSet := rfl
@[simp] theorem setLant_mem (s : State) (p : Phys) (l : Lantern) : (setLant s p l).mem = s.mem := rfl
@[simp] theorem setLant_world (s : State) (p : Phys) (l : Lantern) : (setLant s p l).world = s.world := rfl
@[simp] theorem setLant_rings (s : State) (p : Phys) (l : Lantern) : (setLant s p l).rings = s.rings := rfl
@[simp] theorem setLant_host (s : State) (p : Phys) (l : Lantern) : (setLant s p l).host = s.host := rfl
@[simp] theorem setLant_sluice (s : State) (p : Phys) (l : Lantern) : (setLant s p l).sluice = s.sluice := rfl
@[simp] theorem setLant_descs (s : State) (p : Phys) (l : Lantern) : (setLant s p l).descs = s.descs := rfl
@[simp] theorem setLant_jobs (s : State) (p : Phys) (l : Lantern) : (setLant s p l).jobs = s.jobs := rfl
@[simp] theorem setLant_safety (s : State) (p : Phys) (l : Lantern) : (setLant s p l).safety = s.safety := rfl
@[simp] theorem setLant_motion (s : State) (p : Phys) (l : Lantern) : (setLant s p l).motion = s.motion := rfl
@[simp] theorem setLant_klink (s : State) (p : Phys) (l : Lantern) : (setLant s p l).klink = s.klink := rfl
@[simp] theorem setLant_spout (s : State) (p : Phys) (l : Lantern) : (setLant s p l).spout = s.spout := rfl
@[simp] theorem setLant_sec (s : State) (p : Phys) (l : Lantern) : (setLant s p l).sec = s.sec := rfl
@[simp] theorem setLant_mgmt (s : State) (p : Phys) (l : Lantern) : (setLant s p l).mgmt = s.mgmt := rfl
@[simp] theorem setLant_ember (s : State) (p : Phys) (l : Lantern) : (setLant s p l).ember = s.ember := rfl
@[simp] theorem setLant_free (s : State) (p : Phys) (l : Lantern) : (setLant s p l).free = s.free := rfl
@[simp] theorem setLant_pending (s : State) (p : Phys) (l : Lantern) : (setLant s p l).pending = s.pending := rfl

/-! ## `modLant` -/

@[simp] theorem modLant_pwr (s : State) (p : Phys) (f : Lantern → Lantern) : (modLant s p f).pwr = s.pwr := rfl
@[simp] theorem modLant_fuses (s : State) (p : Phys) (f : Lantern → Lantern) : (modLant s p f).fuses = s.fuses := rfl
@[simp] theorem modLant_grid (s : State) (p : Phys) (f : Lantern → Lantern) : (modLant s p f).grid = s.grid := rfl
@[simp] theorem modLant_map (s : State) (p : Phys) (f : Lantern → Lantern) : (modLant s p f).map = s.map := rfl
@[simp] theorem modLant_mapRetired (s : State) (p : Phys) (f : Lantern → Lantern) : (modLant s p f).mapRetired = s.mapRetired := rfl
@[simp] theorem modLant_mapSet (s : State) (p : Phys) (f : Lantern → Lantern) : (modLant s p f).mapSet = s.mapSet := rfl
@[simp] theorem modLant_mem (s : State) (p : Phys) (f : Lantern → Lantern) : (modLant s p f).mem = s.mem := rfl
@[simp] theorem modLant_world (s : State) (p : Phys) (f : Lantern → Lantern) : (modLant s p f).world = s.world := rfl
@[simp] theorem modLant_rings (s : State) (p : Phys) (f : Lantern → Lantern) : (modLant s p f).rings = s.rings := rfl
@[simp] theorem modLant_host (s : State) (p : Phys) (f : Lantern → Lantern) : (modLant s p f).host = s.host := rfl
@[simp] theorem modLant_sluice (s : State) (p : Phys) (f : Lantern → Lantern) : (modLant s p f).sluice = s.sluice := rfl
@[simp] theorem modLant_descs (s : State) (p : Phys) (f : Lantern → Lantern) : (modLant s p f).descs = s.descs := rfl
@[simp] theorem modLant_jobs (s : State) (p : Phys) (f : Lantern → Lantern) : (modLant s p f).jobs = s.jobs := rfl
@[simp] theorem modLant_safety (s : State) (p : Phys) (f : Lantern → Lantern) : (modLant s p f).safety = s.safety := rfl
@[simp] theorem modLant_motion (s : State) (p : Phys) (f : Lantern → Lantern) : (modLant s p f).motion = s.motion := rfl
@[simp] theorem modLant_klink (s : State) (p : Phys) (f : Lantern → Lantern) : (modLant s p f).klink = s.klink := rfl
@[simp] theorem modLant_spout (s : State) (p : Phys) (f : Lantern → Lantern) : (modLant s p f).spout = s.spout := rfl
@[simp] theorem modLant_sec (s : State) (p : Phys) (f : Lantern → Lantern) : (modLant s p f).sec = s.sec := rfl
@[simp] theorem modLant_mgmt (s : State) (p : Phys) (f : Lantern → Lantern) : (modLant s p f).mgmt = s.mgmt := rfl
@[simp] theorem modLant_ember (s : State) (p : Phys) (f : Lantern → Lantern) : (modLant s p f).ember = s.ember := rfl
@[simp] theorem modLant_free (s : State) (p : Phys) (f : Lantern → Lantern) : (modLant s p f).free = s.free := rfl
@[simp] theorem modLant_pending (s : State) (p : Phys) (f : Lantern → Lantern) : (modLant s p f).pending = s.pending := rfl

/-! ## `modJob` -/

@[simp] theorem modJob_pwr (s : State) (r : JobRef) (f : Job → Job) : (modJob s r f).pwr = s.pwr := rfl
@[simp] theorem modJob_fuses (s : State) (r : JobRef) (f : Job → Job) : (modJob s r f).fuses = s.fuses := rfl
@[simp] theorem modJob_grid (s : State) (r : JobRef) (f : Job → Job) : (modJob s r f).grid = s.grid := rfl
@[simp] theorem modJob_lanterns (s : State) (r : JobRef) (f : Job → Job) : (modJob s r f).lanterns = s.lanterns := rfl
@[simp] theorem modJob_map (s : State) (r : JobRef) (f : Job → Job) : (modJob s r f).map = s.map := rfl
@[simp] theorem modJob_mapRetired (s : State) (r : JobRef) (f : Job → Job) : (modJob s r f).mapRetired = s.mapRetired := rfl
@[simp] theorem modJob_mapSet (s : State) (r : JobRef) (f : Job → Job) : (modJob s r f).mapSet = s.mapSet := rfl
@[simp] theorem modJob_mem (s : State) (r : JobRef) (f : Job → Job) : (modJob s r f).mem = s.mem := rfl
@[simp] theorem modJob_world (s : State) (r : JobRef) (f : Job → Job) : (modJob s r f).world = s.world := rfl
@[simp] theorem modJob_rings (s : State) (r : JobRef) (f : Job → Job) : (modJob s r f).rings = s.rings := rfl
@[simp] theorem modJob_host (s : State) (r : JobRef) (f : Job → Job) : (modJob s r f).host = s.host := rfl
@[simp] theorem modJob_sluice (s : State) (r : JobRef) (f : Job → Job) : (modJob s r f).sluice = s.sluice := rfl
@[simp] theorem modJob_descs (s : State) (r : JobRef) (f : Job → Job) : (modJob s r f).descs = s.descs := rfl
@[simp] theorem modJob_safety (s : State) (r : JobRef) (f : Job → Job) : (modJob s r f).safety = s.safety := rfl
@[simp] theorem modJob_motion (s : State) (r : JobRef) (f : Job → Job) : (modJob s r f).motion = s.motion := rfl
@[simp] theorem modJob_klink (s : State) (r : JobRef) (f : Job → Job) : (modJob s r f).klink = s.klink := rfl
@[simp] theorem modJob_spout (s : State) (r : JobRef) (f : Job → Job) : (modJob s r f).spout = s.spout := rfl
@[simp] theorem modJob_sec (s : State) (r : JobRef) (f : Job → Job) : (modJob s r f).sec = s.sec := rfl
@[simp] theorem modJob_mgmt (s : State) (r : JobRef) (f : Job → Job) : (modJob s r f).mgmt = s.mgmt := rfl
@[simp] theorem modJob_ember (s : State) (r : JobRef) (f : Job → Job) : (modJob s r f).ember = s.ember := rfl
@[simp] theorem modJob_free (s : State) (r : JobRef) (f : Job → Job) : (modJob s r f).free = s.free := rfl
@[simp] theorem modJob_pending (s : State) (r : JobRef) (f : Job → Job) : (modJob s r f).pending = s.pending := rfl

/-! ## `delJob` -/

@[simp] theorem delJob_pwr (s : State) (r : JobRef) : (delJob s r).pwr = s.pwr := rfl
@[simp] theorem delJob_fuses (s : State) (r : JobRef) : (delJob s r).fuses = s.fuses := rfl
@[simp] theorem delJob_grid (s : State) (r : JobRef) : (delJob s r).grid = s.grid := rfl
@[simp] theorem delJob_lanterns (s : State) (r : JobRef) : (delJob s r).lanterns = s.lanterns := rfl
@[simp] theorem delJob_map (s : State) (r : JobRef) : (delJob s r).map = s.map := rfl
@[simp] theorem delJob_mapRetired (s : State) (r : JobRef) : (delJob s r).mapRetired = s.mapRetired := rfl
@[simp] theorem delJob_mapSet (s : State) (r : JobRef) : (delJob s r).mapSet = s.mapSet := rfl
@[simp] theorem delJob_mem (s : State) (r : JobRef) : (delJob s r).mem = s.mem := rfl
@[simp] theorem delJob_world (s : State) (r : JobRef) : (delJob s r).world = s.world := rfl
@[simp] theorem delJob_rings (s : State) (r : JobRef) : (delJob s r).rings = s.rings := rfl
@[simp] theorem delJob_host (s : State) (r : JobRef) : (delJob s r).host = s.host := rfl
@[simp] theorem delJob_sluice (s : State) (r : JobRef) : (delJob s r).sluice = s.sluice := rfl
@[simp] theorem delJob_descs (s : State) (r : JobRef) : (delJob s r).descs = s.descs := rfl
@[simp] theorem delJob_safety (s : State) (r : JobRef) : (delJob s r).safety = s.safety := rfl
@[simp] theorem delJob_motion (s : State) (r : JobRef) : (delJob s r).motion = s.motion := rfl
@[simp] theorem delJob_klink (s : State) (r : JobRef) : (delJob s r).klink = s.klink := rfl
@[simp] theorem delJob_spout (s : State) (r : JobRef) : (delJob s r).spout = s.spout := rfl
@[simp] theorem delJob_sec (s : State) (r : JobRef) : (delJob s r).sec = s.sec := rfl
@[simp] theorem delJob_mgmt (s : State) (r : JobRef) : (delJob s r).mgmt = s.mgmt := rfl
@[simp] theorem delJob_ember (s : State) (r : JobRef) : (delJob s r).ember = s.ember := rfl
@[simp] theorem delJob_free (s : State) (r : JobRef) : (delJob s r).free = s.free := rfl
@[simp] theorem delJob_pending (s : State) (r : JobRef) : (delJob s r).pending = s.pending := rfl

/-! ## `modDesc` -/

@[simp] theorem modDesc_pwr (s : State) (r : JobRef) (f : DescEntry → DescEntry) : (modDesc s r f).pwr = s.pwr := rfl
@[simp] theorem modDesc_fuses (s : State) (r : JobRef) (f : DescEntry → DescEntry) : (modDesc s r f).fuses = s.fuses := rfl
@[simp] theorem modDesc_grid (s : State) (r : JobRef) (f : DescEntry → DescEntry) : (modDesc s r f).grid = s.grid := rfl
@[simp] theorem modDesc_lanterns (s : State) (r : JobRef) (f : DescEntry → DescEntry) : (modDesc s r f).lanterns = s.lanterns := rfl
@[simp] theorem modDesc_map (s : State) (r : JobRef) (f : DescEntry → DescEntry) : (modDesc s r f).map = s.map := rfl
@[simp] theorem modDesc_mapRetired (s : State) (r : JobRef) (f : DescEntry → DescEntry) : (modDesc s r f).mapRetired = s.mapRetired := rfl
@[simp] theorem modDesc_mapSet (s : State) (r : JobRef) (f : DescEntry → DescEntry) : (modDesc s r f).mapSet = s.mapSet := rfl
@[simp] theorem modDesc_mem (s : State) (r : JobRef) (f : DescEntry → DescEntry) : (modDesc s r f).mem = s.mem := rfl
@[simp] theorem modDesc_world (s : State) (r : JobRef) (f : DescEntry → DescEntry) : (modDesc s r f).world = s.world := rfl
@[simp] theorem modDesc_rings (s : State) (r : JobRef) (f : DescEntry → DescEntry) : (modDesc s r f).rings = s.rings := rfl
@[simp] theorem modDesc_host (s : State) (r : JobRef) (f : DescEntry → DescEntry) : (modDesc s r f).host = s.host := rfl
@[simp] theorem modDesc_sluice (s : State) (r : JobRef) (f : DescEntry → DescEntry) : (modDesc s r f).sluice = s.sluice := rfl
@[simp] theorem modDesc_jobs (s : State) (r : JobRef) (f : DescEntry → DescEntry) : (modDesc s r f).jobs = s.jobs := rfl
@[simp] theorem modDesc_safety (s : State) (r : JobRef) (f : DescEntry → DescEntry) : (modDesc s r f).safety = s.safety := rfl
@[simp] theorem modDesc_motion (s : State) (r : JobRef) (f : DescEntry → DescEntry) : (modDesc s r f).motion = s.motion := rfl
@[simp] theorem modDesc_klink (s : State) (r : JobRef) (f : DescEntry → DescEntry) : (modDesc s r f).klink = s.klink := rfl
@[simp] theorem modDesc_spout (s : State) (r : JobRef) (f : DescEntry → DescEntry) : (modDesc s r f).spout = s.spout := rfl
@[simp] theorem modDesc_sec (s : State) (r : JobRef) (f : DescEntry → DescEntry) : (modDesc s r f).sec = s.sec := rfl
@[simp] theorem modDesc_mgmt (s : State) (r : JobRef) (f : DescEntry → DescEntry) : (modDesc s r f).mgmt = s.mgmt := rfl
@[simp] theorem modDesc_ember (s : State) (r : JobRef) (f : DescEntry → DescEntry) : (modDesc s r f).ember = s.ember := rfl
@[simp] theorem modDesc_free (s : State) (r : JobRef) (f : DescEntry → DescEntry) : (modDesc s r f).free = s.free := rfl
@[simp] theorem modDesc_pending (s : State) (r : JobRef) (f : DescEntry → DescEntry) : (modDesc s r f).pending = s.pending := rfl

/-! ## `setRing` -/

@[simp] theorem setRing_pwr (s : State) (r : RingId) (v : Ring) : (setRing s r v).pwr = s.pwr := rfl
@[simp] theorem setRing_fuses (s : State) (r : RingId) (v : Ring) : (setRing s r v).fuses = s.fuses := rfl
@[simp] theorem setRing_grid (s : State) (r : RingId) (v : Ring) : (setRing s r v).grid = s.grid := rfl
@[simp] theorem setRing_lanterns (s : State) (r : RingId) (v : Ring) : (setRing s r v).lanterns = s.lanterns := rfl
@[simp] theorem setRing_map (s : State) (r : RingId) (v : Ring) : (setRing s r v).map = s.map := rfl
@[simp] theorem setRing_mapRetired (s : State) (r : RingId) (v : Ring) : (setRing s r v).mapRetired = s.mapRetired := rfl
@[simp] theorem setRing_mapSet (s : State) (r : RingId) (v : Ring) : (setRing s r v).mapSet = s.mapSet := rfl
@[simp] theorem setRing_mem (s : State) (r : RingId) (v : Ring) : (setRing s r v).mem = s.mem := rfl
@[simp] theorem setRing_world (s : State) (r : RingId) (v : Ring) : (setRing s r v).world = s.world := rfl
@[simp] theorem setRing_host (s : State) (r : RingId) (v : Ring) : (setRing s r v).host = s.host := rfl
@[simp] theorem setRing_sluice (s : State) (r : RingId) (v : Ring) : (setRing s r v).sluice = s.sluice := rfl
@[simp] theorem setRing_descs (s : State) (r : RingId) (v : Ring) : (setRing s r v).descs = s.descs := rfl
@[simp] theorem setRing_jobs (s : State) (r : RingId) (v : Ring) : (setRing s r v).jobs = s.jobs := rfl
@[simp] theorem setRing_safety (s : State) (r : RingId) (v : Ring) : (setRing s r v).safety = s.safety := rfl
@[simp] theorem setRing_motion (s : State) (r : RingId) (v : Ring) : (setRing s r v).motion = s.motion := rfl
@[simp] theorem setRing_klink (s : State) (r : RingId) (v : Ring) : (setRing s r v).klink = s.klink := rfl
@[simp] theorem setRing_spout (s : State) (r : RingId) (v : Ring) : (setRing s r v).spout = s.spout := rfl
@[simp] theorem setRing_sec (s : State) (r : RingId) (v : Ring) : (setRing s r v).sec = s.sec := rfl
@[simp] theorem setRing_mgmt (s : State) (r : RingId) (v : Ring) : (setRing s r v).mgmt = s.mgmt := rfl
@[simp] theorem setRing_ember (s : State) (r : RingId) (v : Ring) : (setRing s r v).ember = s.ember := rfl
@[simp] theorem setRing_free (s : State) (r : RingId) (v : Ring) : (setRing s r v).free = s.free := rfl
@[simp] theorem setRing_pending (s : State) (r : RingId) (v : Ring) : (setRing s r v).pending = s.pending := rfl

/-! ## `modRing` -/

@[simp] theorem modRing_pwr (s : State) (r : RingId) (f : Ring → Ring) : (modRing s r f).pwr = s.pwr := rfl
@[simp] theorem modRing_fuses (s : State) (r : RingId) (f : Ring → Ring) : (modRing s r f).fuses = s.fuses := rfl
@[simp] theorem modRing_grid (s : State) (r : RingId) (f : Ring → Ring) : (modRing s r f).grid = s.grid := rfl
@[simp] theorem modRing_lanterns (s : State) (r : RingId) (f : Ring → Ring) : (modRing s r f).lanterns = s.lanterns := rfl
@[simp] theorem modRing_map (s : State) (r : RingId) (f : Ring → Ring) : (modRing s r f).map = s.map := rfl
@[simp] theorem modRing_mapRetired (s : State) (r : RingId) (f : Ring → Ring) : (modRing s r f).mapRetired = s.mapRetired := rfl
@[simp] theorem modRing_mapSet (s : State) (r : RingId) (f : Ring → Ring) : (modRing s r f).mapSet = s.mapSet := rfl
@[simp] theorem modRing_mem (s : State) (r : RingId) (f : Ring → Ring) : (modRing s r f).mem = s.mem := rfl
@[simp] theorem modRing_world (s : State) (r : RingId) (f : Ring → Ring) : (modRing s r f).world = s.world := rfl
@[simp] theorem modRing_host (s : State) (r : RingId) (f : Ring → Ring) : (modRing s r f).host = s.host := rfl
@[simp] theorem modRing_sluice (s : State) (r : RingId) (f : Ring → Ring) : (modRing s r f).sluice = s.sluice := rfl
@[simp] theorem modRing_descs (s : State) (r : RingId) (f : Ring → Ring) : (modRing s r f).descs = s.descs := rfl
@[simp] theorem modRing_jobs (s : State) (r : RingId) (f : Ring → Ring) : (modRing s r f).jobs = s.jobs := rfl
@[simp] theorem modRing_safety (s : State) (r : RingId) (f : Ring → Ring) : (modRing s r f).safety = s.safety := rfl
@[simp] theorem modRing_motion (s : State) (r : RingId) (f : Ring → Ring) : (modRing s r f).motion = s.motion := rfl
@[simp] theorem modRing_klink (s : State) (r : RingId) (f : Ring → Ring) : (modRing s r f).klink = s.klink := rfl
@[simp] theorem modRing_spout (s : State) (r : RingId) (f : Ring → Ring) : (modRing s r f).spout = s.spout := rfl
@[simp] theorem modRing_sec (s : State) (r : RingId) (f : Ring → Ring) : (modRing s r f).sec = s.sec := rfl
@[simp] theorem modRing_mgmt (s : State) (r : RingId) (f : Ring → Ring) : (modRing s r f).mgmt = s.mgmt := rfl
@[simp] theorem modRing_ember (s : State) (r : RingId) (f : Ring → Ring) : (modRing s r f).ember = s.ember := rfl
@[simp] theorem modRing_free (s : State) (r : RingId) (f : Ring → Ring) : (modRing s r f).free = s.free := rfl
@[simp] theorem modRing_pending (s : State) (r : RingId) (f : Ring → Ring) : (modRing s r f).pending = s.pending := rfl

/-! ## `hostWrite` -/

@[simp] theorem hostWrite_pwr (s : State) (a : Nat) (bs : List Byte) : (hostWrite s a bs).pwr = s.pwr := rfl
@[simp] theorem hostWrite_fuses (s : State) (a : Nat) (bs : List Byte) : (hostWrite s a bs).fuses = s.fuses := rfl
@[simp] theorem hostWrite_grid (s : State) (a : Nat) (bs : List Byte) : (hostWrite s a bs).grid = s.grid := rfl
@[simp] theorem hostWrite_lanterns (s : State) (a : Nat) (bs : List Byte) : (hostWrite s a bs).lanterns = s.lanterns := rfl
@[simp] theorem hostWrite_map (s : State) (a : Nat) (bs : List Byte) : (hostWrite s a bs).map = s.map := rfl
@[simp] theorem hostWrite_mapRetired (s : State) (a : Nat) (bs : List Byte) : (hostWrite s a bs).mapRetired = s.mapRetired := rfl
@[simp] theorem hostWrite_mapSet (s : State) (a : Nat) (bs : List Byte) : (hostWrite s a bs).mapSet = s.mapSet := rfl
@[simp] theorem hostWrite_mem (s : State) (a : Nat) (bs : List Byte) : (hostWrite s a bs).mem = s.mem := rfl
@[simp] theorem hostWrite_world (s : State) (a : Nat) (bs : List Byte) : (hostWrite s a bs).world = s.world := rfl
@[simp] theorem hostWrite_rings (s : State) (a : Nat) (bs : List Byte) : (hostWrite s a bs).rings = s.rings := rfl
@[simp] theorem hostWrite_sluice (s : State) (a : Nat) (bs : List Byte) : (hostWrite s a bs).sluice = s.sluice := rfl
@[simp] theorem hostWrite_descs (s : State) (a : Nat) (bs : List Byte) : (hostWrite s a bs).descs = s.descs := rfl
@[simp] theorem hostWrite_jobs (s : State) (a : Nat) (bs : List Byte) : (hostWrite s a bs).jobs = s.jobs := rfl
@[simp] theorem hostWrite_safety (s : State) (a : Nat) (bs : List Byte) : (hostWrite s a bs).safety = s.safety := rfl
@[simp] theorem hostWrite_motion (s : State) (a : Nat) (bs : List Byte) : (hostWrite s a bs).motion = s.motion := rfl
@[simp] theorem hostWrite_klink (s : State) (a : Nat) (bs : List Byte) : (hostWrite s a bs).klink = s.klink := rfl
@[simp] theorem hostWrite_spout (s : State) (a : Nat) (bs : List Byte) : (hostWrite s a bs).spout = s.spout := rfl
@[simp] theorem hostWrite_sec (s : State) (a : Nat) (bs : List Byte) : (hostWrite s a bs).sec = s.sec := rfl
@[simp] theorem hostWrite_mgmt (s : State) (a : Nat) (bs : List Byte) : (hostWrite s a bs).mgmt = s.mgmt := rfl
@[simp] theorem hostWrite_ember (s : State) (a : Nat) (bs : List Byte) : (hostWrite s a bs).ember = s.ember := rfl
@[simp] theorem hostWrite_free (s : State) (a : Nat) (bs : List Byte) : (hostWrite s a bs).free = s.free := rfl
@[simp] theorem hostWrite_pending (s : State) (a : Nat) (bs : List Byte) : (hostWrite s a bs).pending = s.pending := rfl

/-! ## `raiseIrq` -/

@[simp] theorem raiseIrq_pwr (s : State) (v : Nat) : (raiseIrq s v).pwr = s.pwr := rfl
@[simp] theorem raiseIrq_fuses (s : State) (v : Nat) : (raiseIrq s v).fuses = s.fuses := rfl
@[simp] theorem raiseIrq_grid (s : State) (v : Nat) : (raiseIrq s v).grid = s.grid := rfl
@[simp] theorem raiseIrq_lanterns (s : State) (v : Nat) : (raiseIrq s v).lanterns = s.lanterns := rfl
@[simp] theorem raiseIrq_map (s : State) (v : Nat) : (raiseIrq s v).map = s.map := rfl
@[simp] theorem raiseIrq_mapRetired (s : State) (v : Nat) : (raiseIrq s v).mapRetired = s.mapRetired := rfl
@[simp] theorem raiseIrq_mapSet (s : State) (v : Nat) : (raiseIrq s v).mapSet = s.mapSet := rfl
@[simp] theorem raiseIrq_mem (s : State) (v : Nat) : (raiseIrq s v).mem = s.mem := rfl
@[simp] theorem raiseIrq_world (s : State) (v : Nat) : (raiseIrq s v).world = s.world := rfl
@[simp] theorem raiseIrq_rings (s : State) (v : Nat) : (raiseIrq s v).rings = s.rings := rfl
@[simp] theorem raiseIrq_sluice (s : State) (v : Nat) : (raiseIrq s v).sluice = s.sluice := rfl
@[simp] theorem raiseIrq_descs (s : State) (v : Nat) : (raiseIrq s v).descs = s.descs := rfl
@[simp] theorem raiseIrq_jobs (s : State) (v : Nat) : (raiseIrq s v).jobs = s.jobs := rfl
@[simp] theorem raiseIrq_safety (s : State) (v : Nat) : (raiseIrq s v).safety = s.safety := rfl
@[simp] theorem raiseIrq_motion (s : State) (v : Nat) : (raiseIrq s v).motion = s.motion := rfl
@[simp] theorem raiseIrq_klink (s : State) (v : Nat) : (raiseIrq s v).klink = s.klink := rfl
@[simp] theorem raiseIrq_spout (s : State) (v : Nat) : (raiseIrq s v).spout = s.spout := rfl
@[simp] theorem raiseIrq_sec (s : State) (v : Nat) : (raiseIrq s v).sec = s.sec := rfl
@[simp] theorem raiseIrq_mgmt (s : State) (v : Nat) : (raiseIrq s v).mgmt = s.mgmt := rfl
@[simp] theorem raiseIrq_ember (s : State) (v : Nat) : (raiseIrq s v).ember = s.ember := rfl
@[simp] theorem raiseIrq_free (s : State) (v : Nat) : (raiseIrq s v).free = s.free := rfl
@[simp] theorem raiseIrq_pending (s : State) (v : Nat) : (raiseIrq s v).pending = s.pending := rfl

/-! ## `setBus` -/

@[simp] theorem setBus_pwr (s : State) (v : Nat) : (setBus s v).pwr = s.pwr := rfl
@[simp] theorem setBus_fuses (s : State) (v : Nat) : (setBus s v).fuses = s.fuses := rfl
@[simp] theorem setBus_grid (s : State) (v : Nat) : (setBus s v).grid = s.grid := rfl
@[simp] theorem setBus_lanterns (s : State) (v : Nat) : (setBus s v).lanterns = s.lanterns := rfl
@[simp] theorem setBus_map (s : State) (v : Nat) : (setBus s v).map = s.map := rfl
@[simp] theorem setBus_mapRetired (s : State) (v : Nat) : (setBus s v).mapRetired = s.mapRetired := rfl
@[simp] theorem setBus_mapSet (s : State) (v : Nat) : (setBus s v).mapSet = s.mapSet := rfl
@[simp] theorem setBus_mem (s : State) (v : Nat) : (setBus s v).mem = s.mem := rfl
@[simp] theorem setBus_world (s : State) (v : Nat) : (setBus s v).world = s.world := rfl
@[simp] theorem setBus_rings (s : State) (v : Nat) : (setBus s v).rings = s.rings := rfl
@[simp] theorem setBus_sluice (s : State) (v : Nat) : (setBus s v).sluice = s.sluice := rfl
@[simp] theorem setBus_descs (s : State) (v : Nat) : (setBus s v).descs = s.descs := rfl
@[simp] theorem setBus_jobs (s : State) (v : Nat) : (setBus s v).jobs = s.jobs := rfl
@[simp] theorem setBus_safety (s : State) (v : Nat) : (setBus s v).safety = s.safety := rfl
@[simp] theorem setBus_motion (s : State) (v : Nat) : (setBus s v).motion = s.motion := rfl
@[simp] theorem setBus_klink (s : State) (v : Nat) : (setBus s v).klink = s.klink := rfl
@[simp] theorem setBus_spout (s : State) (v : Nat) : (setBus s v).spout = s.spout := rfl
@[simp] theorem setBus_sec (s : State) (v : Nat) : (setBus s v).sec = s.sec := rfl
@[simp] theorem setBus_mgmt (s : State) (v : Nat) : (setBus s v).mgmt = s.mgmt := rfl
@[simp] theorem setBus_ember (s : State) (v : Nat) : (setBus s v).ember = s.ember := rfl
@[simp] theorem setBus_free (s : State) (v : Nat) : (setBus s v).free = s.free := rfl
@[simp] theorem setBus_pending (s : State) (v : Nat) : (setBus s v).pending = s.pending := rfl

/-! ## `writeHeader` -/

@[simp] theorem writeHeader_pwr (s : State) : (writeHeader s).pwr = s.pwr := rfl
@[simp] theorem writeHeader_fuses (s : State) : (writeHeader s).fuses = s.fuses := rfl
@[simp] theorem writeHeader_grid (s : State) : (writeHeader s).grid = s.grid := rfl
@[simp] theorem writeHeader_lanterns (s : State) : (writeHeader s).lanterns = s.lanterns := rfl
@[simp] theorem writeHeader_map (s : State) : (writeHeader s).map = s.map := rfl
@[simp] theorem writeHeader_mapRetired (s : State) : (writeHeader s).mapRetired = s.mapRetired := rfl
@[simp] theorem writeHeader_mapSet (s : State) : (writeHeader s).mapSet = s.mapSet := rfl
@[simp] theorem writeHeader_mem (s : State) : (writeHeader s).mem = s.mem := rfl
@[simp] theorem writeHeader_world (s : State) : (writeHeader s).world = s.world := rfl
@[simp] theorem writeHeader_sluice (s : State) : (writeHeader s).sluice = s.sluice := rfl
@[simp] theorem writeHeader_descs (s : State) : (writeHeader s).descs = s.descs := rfl
@[simp] theorem writeHeader_jobs (s : State) : (writeHeader s).jobs = s.jobs := rfl
@[simp] theorem writeHeader_safety (s : State) : (writeHeader s).safety = s.safety := rfl
@[simp] theorem writeHeader_motion (s : State) : (writeHeader s).motion = s.motion := rfl
@[simp] theorem writeHeader_klink (s : State) : (writeHeader s).klink = s.klink := rfl
@[simp] theorem writeHeader_spout (s : State) : (writeHeader s).spout = s.spout := rfl
@[simp] theorem writeHeader_sec (s : State) : (writeHeader s).sec = s.sec := rfl
@[simp] theorem writeHeader_mgmt (s : State) : (writeHeader s).mgmt = s.mgmt := rfl
@[simp] theorem writeHeader_ember (s : State) : (writeHeader s).ember = s.ember := rfl
@[simp] theorem writeHeader_free (s : State) : (writeHeader s).free = s.free := rfl
@[simp] theorem writeHeader_pending (s : State) : (writeHeader s).pending = s.pending := rfl

/-! ## `busyNow` -/

@[simp] theorem busyNow_fuses (s : State) : (busyNow s).fuses = s.fuses := rfl
@[simp] theorem busyNow_grid (s : State) : (busyNow s).grid = s.grid := rfl
@[simp] theorem busyNow_lanterns (s : State) : (busyNow s).lanterns = s.lanterns := rfl
@[simp] theorem busyNow_map (s : State) : (busyNow s).map = s.map := rfl
@[simp] theorem busyNow_mapRetired (s : State) : (busyNow s).mapRetired = s.mapRetired := rfl
@[simp] theorem busyNow_mapSet (s : State) : (busyNow s).mapSet = s.mapSet := rfl
@[simp] theorem busyNow_mem (s : State) : (busyNow s).mem = s.mem := rfl
@[simp] theorem busyNow_world (s : State) : (busyNow s).world = s.world := rfl
@[simp] theorem busyNow_rings (s : State) : (busyNow s).rings = s.rings := rfl
@[simp] theorem busyNow_host (s : State) : (busyNow s).host = s.host := rfl
@[simp] theorem busyNow_sluice (s : State) : (busyNow s).sluice = s.sluice := rfl
@[simp] theorem busyNow_descs (s : State) : (busyNow s).descs = s.descs := rfl
@[simp] theorem busyNow_jobs (s : State) : (busyNow s).jobs = s.jobs := rfl
@[simp] theorem busyNow_safety (s : State) : (busyNow s).safety = s.safety := rfl
@[simp] theorem busyNow_motion (s : State) : (busyNow s).motion = s.motion := rfl
@[simp] theorem busyNow_klink (s : State) : (busyNow s).klink = s.klink := rfl
@[simp] theorem busyNow_spout (s : State) : (busyNow s).spout = s.spout := rfl
@[simp] theorem busyNow_sec (s : State) : (busyNow s).sec = s.sec := rfl
@[simp] theorem busyNow_mgmt (s : State) : (busyNow s).mgmt = s.mgmt := rfl
@[simp] theorem busyNow_ember (s : State) : (busyNow s).ember = s.ember := rfl
@[simp] theorem busyNow_free (s : State) : (busyNow s).free = s.free := rfl
@[simp] theorem busyNow_pending (s : State) : (busyNow s).pending = s.pending := rfl

/-! ## `beginExec` -/

@[simp] theorem beginExec_fuses (s : State) (d : DescEntry) : (beginExec s d).fuses = s.fuses := rfl
@[simp] theorem beginExec_grid (s : State) (d : DescEntry) : (beginExec s d).grid = s.grid := rfl
@[simp] theorem beginExec_lanterns (s : State) (d : DescEntry) : (beginExec s d).lanterns = s.lanterns := rfl
@[simp] theorem beginExec_map (s : State) (d : DescEntry) : (beginExec s d).map = s.map := rfl
@[simp] theorem beginExec_mapRetired (s : State) (d : DescEntry) : (beginExec s d).mapRetired = s.mapRetired := rfl
@[simp] theorem beginExec_mapSet (s : State) (d : DescEntry) : (beginExec s d).mapSet = s.mapSet := rfl
@[simp] theorem beginExec_mem (s : State) (d : DescEntry) : (beginExec s d).mem = s.mem := rfl
@[simp] theorem beginExec_world (s : State) (d : DescEntry) : (beginExec s d).world = s.world := rfl
@[simp] theorem beginExec_rings (s : State) (d : DescEntry) : (beginExec s d).rings = s.rings := rfl
@[simp] theorem beginExec_host (s : State) (d : DescEntry) : (beginExec s d).host = s.host := rfl
@[simp] theorem beginExec_sluice (s : State) (d : DescEntry) : (beginExec s d).sluice = (traceDesc s 2 d 0 0).sluice := rfl
@[simp] theorem beginExec_jobs (s : State) (d : DescEntry) : (beginExec s d).jobs = s.jobs := rfl
@[simp] theorem beginExec_safety (s : State) (d : DescEntry) : (beginExec s d).safety = s.safety := rfl
@[simp] theorem beginExec_motion (s : State) (d : DescEntry) : (beginExec s d).motion = s.motion := rfl
@[simp] theorem beginExec_klink (s : State) (d : DescEntry) : (beginExec s d).klink = s.klink := rfl
@[simp] theorem beginExec_spout (s : State) (d : DescEntry) : (beginExec s d).spout = s.spout := rfl
@[simp] theorem beginExec_sec (s : State) (d : DescEntry) : (beginExec s d).sec = s.sec := rfl
@[simp] theorem beginExec_mgmt (s : State) (d : DescEntry) : (beginExec s d).mgmt = s.mgmt := rfl
@[simp] theorem beginExec_ember (s : State) (d : DescEntry) : (beginExec s d).ember = s.ember := rfl
@[simp] theorem beginExec_free (s : State) (d : DescEntry) : (beginExec s d).free = s.free := rfl
@[simp] theorem beginExec_pending (s : State) (d : DescEntry) : (beginExec s d).pending = s.pending := rfl

/-! ## `camSet` -/

@[simp] theorem camSet_pwr (s : State) (p : Fin 4) (c : CamPort) : (camSet s p c).pwr = s.pwr := rfl
@[simp] theorem camSet_fuses (s : State) (p : Fin 4) (c : CamPort) : (camSet s p c).fuses = s.fuses := rfl
@[simp] theorem camSet_grid (s : State) (p : Fin 4) (c : CamPort) : (camSet s p c).grid = s.grid := rfl
@[simp] theorem camSet_lanterns (s : State) (p : Fin 4) (c : CamPort) : (camSet s p c).lanterns = s.lanterns := rfl
@[simp] theorem camSet_map (s : State) (p : Fin 4) (c : CamPort) : (camSet s p c).map = s.map := rfl
@[simp] theorem camSet_mapRetired (s : State) (p : Fin 4) (c : CamPort) : (camSet s p c).mapRetired = s.mapRetired := rfl
@[simp] theorem camSet_mapSet (s : State) (p : Fin 4) (c : CamPort) : (camSet s p c).mapSet = s.mapSet := rfl
@[simp] theorem camSet_mem (s : State) (p : Fin 4) (c : CamPort) : (camSet s p c).mem = s.mem := rfl
@[simp] theorem camSet_world (s : State) (p : Fin 4) (c : CamPort) : (camSet s p c).world = s.world := rfl
@[simp] theorem camSet_rings (s : State) (p : Fin 4) (c : CamPort) : (camSet s p c).rings = s.rings := rfl
@[simp] theorem camSet_host (s : State) (p : Fin 4) (c : CamPort) : (camSet s p c).host = s.host := rfl
@[simp] theorem camSet_sluice (s : State) (p : Fin 4) (c : CamPort) : (camSet s p c).sluice = s.sluice := rfl
@[simp] theorem camSet_descs (s : State) (p : Fin 4) (c : CamPort) : (camSet s p c).descs = s.descs := rfl
@[simp] theorem camSet_jobs (s : State) (p : Fin 4) (c : CamPort) : (camSet s p c).jobs = s.jobs := rfl
@[simp] theorem camSet_safety (s : State) (p : Fin 4) (c : CamPort) : (camSet s p c).safety = s.safety := rfl
@[simp] theorem camSet_klink (s : State) (p : Fin 4) (c : CamPort) : (camSet s p c).klink = s.klink := rfl
@[simp] theorem camSet_spout (s : State) (p : Fin 4) (c : CamPort) : (camSet s p c).spout = s.spout := rfl
@[simp] theorem camSet_sec (s : State) (p : Fin 4) (c : CamPort) : (camSet s p c).sec = s.sec := rfl
@[simp] theorem camSet_mgmt (s : State) (p : Fin 4) (c : CamPort) : (camSet s p c).mgmt = s.mgmt := rfl
@[simp] theorem camSet_ember (s : State) (p : Fin 4) (c : CamPort) : (camSet s p c).ember = s.ember := rfl
@[simp] theorem camSet_free (s : State) (p : Fin 4) (c : CamPort) : (camSet s p c).free = s.free := rfl
@[simp] theorem camSet_pending (s : State) (p : Fin 4) (c : CamPort) : (camSet s p c).pending = s.pending := rfl

/-! ## `nodeSet` -/

@[simp] theorem nodeSet_pwr (s : State) (i : Fin 32) (n : NodeState) : (nodeSet s i n).pwr = s.pwr := rfl
@[simp] theorem nodeSet_fuses (s : State) (i : Fin 32) (n : NodeState) : (nodeSet s i n).fuses = s.fuses := rfl
@[simp] theorem nodeSet_grid (s : State) (i : Fin 32) (n : NodeState) : (nodeSet s i n).grid = s.grid := rfl
@[simp] theorem nodeSet_lanterns (s : State) (i : Fin 32) (n : NodeState) : (nodeSet s i n).lanterns = s.lanterns := rfl
@[simp] theorem nodeSet_map (s : State) (i : Fin 32) (n : NodeState) : (nodeSet s i n).map = s.map := rfl
@[simp] theorem nodeSet_mapRetired (s : State) (i : Fin 32) (n : NodeState) : (nodeSet s i n).mapRetired = s.mapRetired := rfl
@[simp] theorem nodeSet_mapSet (s : State) (i : Fin 32) (n : NodeState) : (nodeSet s i n).mapSet = s.mapSet := rfl
@[simp] theorem nodeSet_mem (s : State) (i : Fin 32) (n : NodeState) : (nodeSet s i n).mem = s.mem := rfl
@[simp] theorem nodeSet_world (s : State) (i : Fin 32) (n : NodeState) : (nodeSet s i n).world = s.world := rfl
@[simp] theorem nodeSet_rings (s : State) (i : Fin 32) (n : NodeState) : (nodeSet s i n).rings = s.rings := rfl
@[simp] theorem nodeSet_host (s : State) (i : Fin 32) (n : NodeState) : (nodeSet s i n).host = s.host := rfl
@[simp] theorem nodeSet_sluice (s : State) (i : Fin 32) (n : NodeState) : (nodeSet s i n).sluice = s.sluice := rfl
@[simp] theorem nodeSet_descs (s : State) (i : Fin 32) (n : NodeState) : (nodeSet s i n).descs = s.descs := rfl
@[simp] theorem nodeSet_jobs (s : State) (i : Fin 32) (n : NodeState) : (nodeSet s i n).jobs = s.jobs := rfl
@[simp] theorem nodeSet_safety (s : State) (i : Fin 32) (n : NodeState) : (nodeSet s i n).safety = s.safety := rfl
@[simp] theorem nodeSet_klink (s : State) (i : Fin 32) (n : NodeState) : (nodeSet s i n).klink = s.klink := rfl
@[simp] theorem nodeSet_spout (s : State) (i : Fin 32) (n : NodeState) : (nodeSet s i n).spout = s.spout := rfl
@[simp] theorem nodeSet_sec (s : State) (i : Fin 32) (n : NodeState) : (nodeSet s i n).sec = s.sec := rfl
@[simp] theorem nodeSet_mgmt (s : State) (i : Fin 32) (n : NodeState) : (nodeSet s i n).mgmt = s.mgmt := rfl
@[simp] theorem nodeSet_ember (s : State) (i : Fin 32) (n : NodeState) : (nodeSet s i n).ember = s.ember := rfl
@[simp] theorem nodeSet_free (s : State) (i : Fin 32) (n : NodeState) : (nodeSet s i n).free = s.free := rfl
@[simp] theorem nodeSet_pending (s : State) (i : Fin 32) (n : NodeState) : (nodeSet s i n).pending = s.pending := rfl

/-! ## `kSet` -/

@[simp] theorem kSet_pwr (s : State) (p : Fin 4) (k : KPort) : (kSet s p k).pwr = s.pwr := rfl
@[simp] theorem kSet_fuses (s : State) (p : Fin 4) (k : KPort) : (kSet s p k).fuses = s.fuses := rfl
@[simp] theorem kSet_grid (s : State) (p : Fin 4) (k : KPort) : (kSet s p k).grid = s.grid := rfl
@[simp] theorem kSet_lanterns (s : State) (p : Fin 4) (k : KPort) : (kSet s p k).lanterns = s.lanterns := rfl
@[simp] theorem kSet_map (s : State) (p : Fin 4) (k : KPort) : (kSet s p k).map = s.map := rfl
@[simp] theorem kSet_mapRetired (s : State) (p : Fin 4) (k : KPort) : (kSet s p k).mapRetired = s.mapRetired := rfl
@[simp] theorem kSet_mapSet (s : State) (p : Fin 4) (k : KPort) : (kSet s p k).mapSet = s.mapSet := rfl
@[simp] theorem kSet_mem (s : State) (p : Fin 4) (k : KPort) : (kSet s p k).mem = s.mem := rfl
@[simp] theorem kSet_world (s : State) (p : Fin 4) (k : KPort) : (kSet s p k).world = s.world := rfl
@[simp] theorem kSet_rings (s : State) (p : Fin 4) (k : KPort) : (kSet s p k).rings = s.rings := rfl
@[simp] theorem kSet_host (s : State) (p : Fin 4) (k : KPort) : (kSet s p k).host = s.host := rfl
@[simp] theorem kSet_sluice (s : State) (p : Fin 4) (k : KPort) : (kSet s p k).sluice = s.sluice := rfl
@[simp] theorem kSet_descs (s : State) (p : Fin 4) (k : KPort) : (kSet s p k).descs = s.descs := rfl
@[simp] theorem kSet_jobs (s : State) (p : Fin 4) (k : KPort) : (kSet s p k).jobs = s.jobs := rfl
@[simp] theorem kSet_safety (s : State) (p : Fin 4) (k : KPort) : (kSet s p k).safety = s.safety := rfl
@[simp] theorem kSet_motion (s : State) (p : Fin 4) (k : KPort) : (kSet s p k).motion = s.motion := rfl
@[simp] theorem kSet_spout (s : State) (p : Fin 4) (k : KPort) : (kSet s p k).spout = s.spout := rfl
@[simp] theorem kSet_sec (s : State) (p : Fin 4) (k : KPort) : (kSet s p k).sec = s.sec := rfl
@[simp] theorem kSet_mgmt (s : State) (p : Fin 4) (k : KPort) : (kSet s p k).mgmt = s.mgmt := rfl
@[simp] theorem kSet_ember (s : State) (p : Fin 4) (k : KPort) : (kSet s p k).ember = s.ember := rfl
@[simp] theorem kSet_free (s : State) (p : Fin 4) (k : KPort) : (kSet s p k).free = s.free := rfl
@[simp] theorem kSet_pending (s : State) (p : Fin 4) (k : KPort) : (kSet s p k).pending = s.pending := rfl

/-! ## `modMgmt` -/

@[simp] theorem modMgmt_pwr (s : State) (f : Mgmt → Mgmt) : (modMgmt s f).pwr = s.pwr := rfl
@[simp] theorem modMgmt_fuses (s : State) (f : Mgmt → Mgmt) : (modMgmt s f).fuses = s.fuses := rfl
@[simp] theorem modMgmt_grid (s : State) (f : Mgmt → Mgmt) : (modMgmt s f).grid = s.grid := rfl
@[simp] theorem modMgmt_lanterns (s : State) (f : Mgmt → Mgmt) : (modMgmt s f).lanterns = s.lanterns := rfl
@[simp] theorem modMgmt_map (s : State) (f : Mgmt → Mgmt) : (modMgmt s f).map = s.map := rfl
@[simp] theorem modMgmt_mapRetired (s : State) (f : Mgmt → Mgmt) : (modMgmt s f).mapRetired = s.mapRetired := rfl
@[simp] theorem modMgmt_mapSet (s : State) (f : Mgmt → Mgmt) : (modMgmt s f).mapSet = s.mapSet := rfl
@[simp] theorem modMgmt_mem (s : State) (f : Mgmt → Mgmt) : (modMgmt s f).mem = s.mem := rfl
@[simp] theorem modMgmt_world (s : State) (f : Mgmt → Mgmt) : (modMgmt s f).world = s.world := rfl
@[simp] theorem modMgmt_rings (s : State) (f : Mgmt → Mgmt) : (modMgmt s f).rings = s.rings := rfl
@[simp] theorem modMgmt_host (s : State) (f : Mgmt → Mgmt) : (modMgmt s f).host = s.host := rfl
@[simp] theorem modMgmt_sluice (s : State) (f : Mgmt → Mgmt) : (modMgmt s f).sluice = s.sluice := rfl
@[simp] theorem modMgmt_descs (s : State) (f : Mgmt → Mgmt) : (modMgmt s f).descs = s.descs := rfl
@[simp] theorem modMgmt_jobs (s : State) (f : Mgmt → Mgmt) : (modMgmt s f).jobs = s.jobs := rfl
@[simp] theorem modMgmt_safety (s : State) (f : Mgmt → Mgmt) : (modMgmt s f).safety = s.safety := rfl
@[simp] theorem modMgmt_motion (s : State) (f : Mgmt → Mgmt) : (modMgmt s f).motion = s.motion := rfl
@[simp] theorem modMgmt_klink (s : State) (f : Mgmt → Mgmt) : (modMgmt s f).klink = s.klink := rfl
@[simp] theorem modMgmt_spout (s : State) (f : Mgmt → Mgmt) : (modMgmt s f).spout = s.spout := rfl
@[simp] theorem modMgmt_sec (s : State) (f : Mgmt → Mgmt) : (modMgmt s f).sec = s.sec := rfl
@[simp] theorem modMgmt_ember (s : State) (f : Mgmt → Mgmt) : (modMgmt s f).ember = s.ember := rfl
@[simp] theorem modMgmt_free (s : State) (f : Mgmt → Mgmt) : (modMgmt s f).free = s.free := rfl
@[simp] theorem modMgmt_pending (s : State) (f : Mgmt → Mgmt) : (modMgmt s f).pending = s.pending := rfl

/-! ## `extend` -/

@[simp] theorem extend_pwr (s : State) (i : Fin 8) (d : Digest) : (extend s i d).pwr = s.pwr := rfl
@[simp] theorem extend_fuses (s : State) (i : Fin 8) (d : Digest) : (extend s i d).fuses = s.fuses := rfl
@[simp] theorem extend_grid (s : State) (i : Fin 8) (d : Digest) : (extend s i d).grid = s.grid := rfl
@[simp] theorem extend_lanterns (s : State) (i : Fin 8) (d : Digest) : (extend s i d).lanterns = s.lanterns := rfl
@[simp] theorem extend_map (s : State) (i : Fin 8) (d : Digest) : (extend s i d).map = s.map := rfl
@[simp] theorem extend_mapRetired (s : State) (i : Fin 8) (d : Digest) : (extend s i d).mapRetired = s.mapRetired := rfl
@[simp] theorem extend_mapSet (s : State) (i : Fin 8) (d : Digest) : (extend s i d).mapSet = s.mapSet := rfl
@[simp] theorem extend_mem (s : State) (i : Fin 8) (d : Digest) : (extend s i d).mem = s.mem := rfl
@[simp] theorem extend_world (s : State) (i : Fin 8) (d : Digest) : (extend s i d).world = s.world := rfl
@[simp] theorem extend_rings (s : State) (i : Fin 8) (d : Digest) : (extend s i d).rings = s.rings := rfl
@[simp] theorem extend_host (s : State) (i : Fin 8) (d : Digest) : (extend s i d).host = s.host := rfl
@[simp] theorem extend_sluice (s : State) (i : Fin 8) (d : Digest) : (extend s i d).sluice = s.sluice := rfl
@[simp] theorem extend_descs (s : State) (i : Fin 8) (d : Digest) : (extend s i d).descs = s.descs := rfl
@[simp] theorem extend_jobs (s : State) (i : Fin 8) (d : Digest) : (extend s i d).jobs = s.jobs := rfl
@[simp] theorem extend_safety (s : State) (i : Fin 8) (d : Digest) : (extend s i d).safety = s.safety := rfl
@[simp] theorem extend_motion (s : State) (i : Fin 8) (d : Digest) : (extend s i d).motion = s.motion := rfl
@[simp] theorem extend_klink (s : State) (i : Fin 8) (d : Digest) : (extend s i d).klink = s.klink := rfl
@[simp] theorem extend_spout (s : State) (i : Fin 8) (d : Digest) : (extend s i d).spout = s.spout := rfl
@[simp] theorem extend_mgmt (s : State) (i : Fin 8) (d : Digest) : (extend s i d).mgmt = s.mgmt := rfl
@[simp] theorem extend_ember (s : State) (i : Fin 8) (d : Digest) : (extend s i d).ember = s.ember := rfl
@[simp] theorem extend_free (s : State) (i : Fin 8) (d : Digest) : (extend s i d).free = s.free := rfl
@[simp] theorem extend_pending (s : State) (i : Fin 8) (d : Digest) : (extend s i d).pending = s.pending := rfl

/-! ## `assertStop` -/

@[simp] theorem assertStop_fuses (s : State) : (assertStop s).fuses = s.fuses := rfl
@[simp] theorem assertStop_grid (s : State) : (assertStop s).grid = s.grid := rfl
@[simp] theorem assertStop_lanterns (s : State) : (assertStop s).lanterns = s.lanterns := rfl
@[simp] theorem assertStop_map (s : State) : (assertStop s).map = s.map := rfl
@[simp] theorem assertStop_mapRetired (s : State) : (assertStop s).mapRetired = s.mapRetired := rfl
@[simp] theorem assertStop_mapSet (s : State) : (assertStop s).mapSet = s.mapSet := rfl
@[simp] theorem assertStop_mem (s : State) : (assertStop s).mem = s.mem := rfl
@[simp] theorem assertStop_world (s : State) : (assertStop s).world = s.world := rfl
@[simp] theorem assertStop_rings (s : State) : (assertStop s).rings = s.rings := rfl
@[simp] theorem assertStop_host (s : State) : (assertStop s).host = s.host := rfl
@[simp] theorem assertStop_sluice (s : State) : (assertStop s).sluice = s.sluice := rfl
@[simp] theorem assertStop_descs (s : State) : (assertStop s).descs = s.descs := rfl
@[simp] theorem assertStop_jobs (s : State) : (assertStop s).jobs = s.jobs := rfl
@[simp] theorem assertStop_motion (s : State) : (assertStop s).motion = s.motion := rfl
@[simp] theorem assertStop_klink (s : State) : (assertStop s).klink = s.klink := rfl
@[simp] theorem assertStop_spout (s : State) : (assertStop s).spout = s.spout := rfl
@[simp] theorem assertStop_sec (s : State) : (assertStop s).sec = s.sec := rfl
@[simp] theorem assertStop_mgmt (s : State) : (assertStop s).mgmt = s.mgmt := rfl
@[simp] theorem assertStop_ember (s : State) : (assertStop s).ember = s.ember := rfl
@[simp] theorem assertStop_free (s : State) : (assertStop s).free = s.free := rfl
@[simp] theorem assertStop_pending (s : State) : (assertStop s).pending = s.pending := rfl

/-! ## `startGrid` -/

@[simp] theorem startGrid_pwr (s : State) : (startGrid s).pwr = s.pwr := rfl
@[simp] theorem startGrid_fuses (s : State) : (startGrid s).fuses = s.fuses := rfl
@[simp] theorem startGrid_lanterns (s : State) : (startGrid s).lanterns = s.lanterns := rfl
@[simp] theorem startGrid_map (s : State) : (startGrid s).map = s.map := rfl
@[simp] theorem startGrid_mapRetired (s : State) : (startGrid s).mapRetired = s.mapRetired := rfl
@[simp] theorem startGrid_mapSet (s : State) : (startGrid s).mapSet = s.mapSet := rfl
@[simp] theorem startGrid_mem (s : State) : (startGrid s).mem = s.mem := rfl
@[simp] theorem startGrid_world (s : State) : (startGrid s).world = s.world := rfl
@[simp] theorem startGrid_rings (s : State) : (startGrid s).rings = s.rings := rfl
@[simp] theorem startGrid_host (s : State) : (startGrid s).host = s.host := rfl
@[simp] theorem startGrid_sluice (s : State) : (startGrid s).sluice = s.sluice := rfl
@[simp] theorem startGrid_descs (s : State) : (startGrid s).descs = s.descs := rfl
@[simp] theorem startGrid_jobs (s : State) : (startGrid s).jobs = s.jobs := rfl
@[simp] theorem startGrid_safety (s : State) : (startGrid s).safety = s.safety := rfl
@[simp] theorem startGrid_motion (s : State) : (startGrid s).motion = s.motion := rfl
@[simp] theorem startGrid_klink (s : State) : (startGrid s).klink = s.klink := rfl
@[simp] theorem startGrid_spout (s : State) : (startGrid s).spout = s.spout := rfl
@[simp] theorem startGrid_sec (s : State) : (startGrid s).sec = s.sec := rfl
@[simp] theorem startGrid_mgmt (s : State) : (startGrid s).mgmt = s.mgmt := rfl
@[simp] theorem startGrid_ember (s : State) : (startGrid s).ember = s.ember := rfl
@[simp] theorem startGrid_free (s : State) : (startGrid s).free = s.free := rfl
@[simp] theorem startGrid_pending (s : State) : (startGrid s).pending = s.pending := rfl

/-! ## `stopGrid` -/

@[simp] theorem stopGrid_pwr (s : State) : (stopGrid s).pwr = s.pwr := rfl
@[simp] theorem stopGrid_fuses (s : State) : (stopGrid s).fuses = s.fuses := rfl
@[simp] theorem stopGrid_lanterns (s : State) : (stopGrid s).lanterns = s.lanterns := rfl
@[simp] theorem stopGrid_map (s : State) : (stopGrid s).map = s.map := rfl
@[simp] theorem stopGrid_mapRetired (s : State) : (stopGrid s).mapRetired = s.mapRetired := rfl
@[simp] theorem stopGrid_mapSet (s : State) : (stopGrid s).mapSet = s.mapSet := rfl
@[simp] theorem stopGrid_mem (s : State) : (stopGrid s).mem = s.mem := rfl
@[simp] theorem stopGrid_world (s : State) : (stopGrid s).world = s.world := rfl
@[simp] theorem stopGrid_rings (s : State) : (stopGrid s).rings = s.rings := rfl
@[simp] theorem stopGrid_host (s : State) : (stopGrid s).host = s.host := rfl
@[simp] theorem stopGrid_sluice (s : State) : (stopGrid s).sluice = s.sluice := rfl
@[simp] theorem stopGrid_descs (s : State) : (stopGrid s).descs = s.descs := rfl
@[simp] theorem stopGrid_jobs (s : State) : (stopGrid s).jobs = s.jobs := rfl
@[simp] theorem stopGrid_safety (s : State) : (stopGrid s).safety = s.safety := rfl
@[simp] theorem stopGrid_motion (s : State) : (stopGrid s).motion = s.motion := rfl
@[simp] theorem stopGrid_klink (s : State) : (stopGrid s).klink = s.klink := rfl
@[simp] theorem stopGrid_spout (s : State) : (stopGrid s).spout = s.spout := rfl
@[simp] theorem stopGrid_sec (s : State) : (stopGrid s).sec = s.sec := rfl
@[simp] theorem stopGrid_mgmt (s : State) : (stopGrid s).mgmt = s.mgmt := rfl
@[simp] theorem stopGrid_ember (s : State) : (stopGrid s).ember = s.ember := rfl
@[simp] theorem stopGrid_free (s : State) : (stopGrid s).free = s.free := rfl
@[simp] theorem stopGrid_pending (s : State) : (stopGrid s).pending = s.pending := rfl

/-! ## What the setters write -/

@[simp] theorem lant_setLant (s : State) (p q : Phys) (l : Lantern) :
    lant (setLant s p l) q = if p = q then l else lant s q := by
  simp [lant, setLant, Vector.get_eq_getElem, Vector.getElem_set, Fin.ext_iff]

@[simp] theorem lant_modLant (s : State) (p q : Phys) (f : Lantern → Lantern) :
    lant (modLant s p f) q = if p = q then f (lant s p) else lant s q := lant_setLant s p q _

@[simp] theorem ringGet_setRing (s : State) (r q : RingId) (v : Ring) :
    ringGet (setRing s r v) q = if r = q then v else ringGet s q := by
  simp [ringGet, setRing, Vector.get_eq_getElem, Vector.getElem_set, Fin.ext_iff]

@[simp] theorem ringGet_modRing (s : State) (r q : RingId) (f : Ring → Ring) :
    ringGet (modRing s r f) q = if r = q then f (ringGet s r) else ringGet s q := ringGet_setRing s r q _

@[simp] theorem camGet_camSet (s : State) (p q : Fin 4) (c : CamPort) :
    camGet (camSet s p c) q = if p = q then c else camGet s q := by
  simp [camGet, camSet, Vector.get_eq_getElem, Vector.getElem_set, Fin.ext_iff]

@[simp] theorem nodeGet_nodeSet (s : State) (i j : Fin 32) (n : NodeState) :
    nodeGet (nodeSet s i n) j = if i = j then n else nodeGet s j := by
  simp [nodeGet, nodeSet, Vector.get_eq_getElem, Vector.getElem_set, Fin.ext_iff]

@[simp] theorem kGet_kSet (s : State) (p q : Fin 4) (k : KPort) :
    kGet (kSet s p k) q = if p = q then k else kGet s q := by
  simp [kGet, kSet, Vector.get_eq_getElem, Vector.getElem_set, Fin.ext_iff]

/-! ## Jobs and descriptors -/

/-- A modified job is found where the job was, modified. -/
theorem findJob_modJob (s : State) (r : JobRef) (f : Job → Job) (j : Job) (h : findJob s r = some j)
    (hf : (f j).ref = j.ref) : findJob (modJob s r f) r = some (f j) := by
  simp only [findJob, modJob] at h ⊢
  generalize s.jobs = l at h ⊢
  induction l with
  | nil => simp at h
  | cons a t ih =>
    by_cases ha : a.ref = r
    · have : a = j := by simpa [ha] using h
      subst this
      simp [ha, hf]
    · have : (a.ref == r) = false := by simpa using ha
      simp only [List.find?_cons, this, List.map_cons, Bool.false_eq_true, ↓reduceIte] at h ⊢
      exact ih h

/-- A modified descriptor is found where the descriptor was, modified. -/
theorem findDesc_modDesc (s : State) (r : JobRef) (f : DescEntry → DescEntry) (d : DescEntry)
    (h : findDesc s r = some d) (hf : (f d).ref = d.ref) : findDesc (modDesc s r f) r = some (f d) := by
  simp only [findDesc, modDesc] at h ⊢
  generalize s.descs = l at h ⊢
  induction l with
  | nil => simp at h
  | cons a t ih =>
    by_cases ha : a.ref = r
    · have : a = d := by simpa [ha] using h
      subst this
      simp [ha, hf]
    · have : (a.ref == r) = false := by simpa using ha
      simp only [List.find?_cons, this, List.map_cons, Bool.false_eq_true, ↓reduceIte] at h ⊢
      exact ih h

/-- A job that is found carries the reference that found it. -/
theorem findJob_ref {s : State} {r : JobRef} {j : Job} (h : findJob s r = some j) : j.ref = r := by
  simpa using List.find?_some h

theorem findDesc_ref {s : State} {r : JobRef} {d : DescEntry} (h : findDesc s r = some d) : d.ref = r := by
  simpa using List.find?_some h

/-! ## Commands reach powered units -/

theorem live_of_hub {s : State} (h : s.pwr.hub = true) (f : State → State) : live s f = .next (f s) := by
  simp [live, h]

theorem pilotLive_of_good {s : State} (h : s.pwr.pwrGood = true) (f : State → State) : pilotLive s f = .next (f s) := by
  simp [pilotLive, h]

theorem serve_of_service {s : State} (h : s.pwr.hub = true) (hr : s.pwr.ready = true) (hs : s.safety.state = .service)
    (f : State → State) : serve s f = .next (f s) := by
  simp [serve, live, h, hr, hs]

/-- A hub command never faults. -/
theorem live_next (s : State) (f : State → State) : ∃ t, live s f = .next t := ⟨_, rfl⟩

/-! ## Sending over the links -/

/-- A port that sends writes its sequence number and its replay buffer, and nothing else. -/
theorem KPort.send_frame (p : KPort) (m : KMsg) : ∃ q r, p.send m = { p with txSeq := q, replay := r } := by
  unfold KPort.send
  split
  · exact ⟨_, _, rfl⟩
  · exact ⟨p.txSeq, p.replay, rfl⟩

/-- A message over given routes writes the ports and the list of what was sent, and nothing else of the unit. -/
theorem Klink.sendOver_frame (k : Klink) (routes : List (Option (Nat × Nat))) (m : KMsg) :
    ∃ ps l, k.sendOver routes m = { k with ports := ps, sent := l } := by
  unfold Klink.sendOver
  split
  · exact ⟨k.ports, k.sent, rfl⟩
  · have sends : ∀ (rs : List (Option (Nat × Nat))) (k0 : Klink), ∃ ps, rs.foldl (fun k r => match r with
        | some x => { k with ports := k.ports.set (Fin.ofNat 4 x.2) ((k.ports.get (Fin.ofNat 4 x.2)).send m) }
        | none => k) k0 = { k0 with ports := ps } := by
      intro rs
      induction rs with
      | nil => exact fun k0 => ⟨k0.ports, rfl⟩
      | cons r t ih =>
        intro k0
        cases r with
        | none => exact ih k0
        | some x =>
          obtain ⟨ps, h⟩ := ih { k0 with ports := k0.ports.set (Fin.ofNat 4 x.2) ((k0.ports.get (Fin.ofNat 4 x.2)).send m) }
          exact ⟨ps, h⟩
    obtain ⟨ps, h⟩ := sends routes { k with sent := k.sent ++ [m] }
    exact ⟨ps, _, h⟩

/-- A message to the other members writes the ports and the list of what was sent, and nothing else of the unit. -/
theorem Klink.send_frame (k : Klink) (m : KMsg) : ∃ ps l, k.send m = { k with ports := ps, sent := l } :=
  k.sendOver_frame k.routes m

/-- An abort for a group image writes the K-link unit only. -/
theorem sendAbort_frame (s : State) (img : PlanImage) (tag : W32) : ∃ k, sendAbort s img tag = { s with klink := k } := by
  unfold sendAbort
  split
  · exact ⟨_, rfl⟩
  · exact ⟨s.klink, rfl⟩

/-- An S2 event ends a job at the next boundary, or leaves a cancel or an abort standing. -/
theorem JobEnd.orNow_cases (e : JobEnd) (c : EventClass) : e.orNow c = .faultNow c ∨ e.orNow c = e := by
  cases e <;> simp [JobEnd.orNow]

end Sys2Proof.Machine
end

