-- ==== Sys2Proof/Laws/Memory.lean ====
section
/-! SUPPORT. Sparse tables and byte memories: what is read after a write, and that every memory operation keeps the
canonical form; and what the updates of planned transfers leave as they were. -/

namespace Sys2Proof.Machine

open Sys2Proof

/-! ## Sparse tables -/

theorem SMap.find_put {α : Type} (m : SMap α) (k j : Nat) (v : α) :
    (SMap.put m k v).find j = if k = j then some v else SMap.find m j := by
  induction m with
  | nil => simp [SMap.put, SMap.find]
  | cons e t ih =>
    obtain ⟨i, w⟩ := e
    simp only [SMap.put]
    split
    · by_cases h : k = j <;> simp [SMap.find, h]
    · split
      · rename_i hk
        subst hk
        by_cases h : k = j <;> simp [SMap.find, h]
      · by_cases h : k = j
        · subst h; simp [SMap.find, ih]; omega
        · simp [SMap.find, ih, h]

theorem SMap.find_del {α : Type} (m : SMap α) (k j : Nat) :
    (SMap.del m k).find j = if k = j then none else SMap.find m j := by
  induction m with
  | nil => simp [SMap.del, SMap.find]
  | cons e t ih =>
    obtain ⟨i, w⟩ := e
    simp only [SMap.del] at ih ⊢
    by_cases hi : i = k
    · subst hi
      simp only [List.filter_cons, bne_self_eq_false, Bool.false_eq_true, ↓reduceIte, ih, SMap.find]
      by_cases h : i = j <;> simp [h]
    · have : (i != k) = true := by simpa using hi
      simp only [List.filter_cons, this, ↓reduceIte, SMap.find, ih]
      by_cases h : k = j
      · subst h; simp [hi]
      · simp [h]

/-- Every key of a table after `put` is an old key or the one put. -/
theorem SMap.mem_put {α : Type} (m : SMap α) (k : Nat) (v : α) (e : Nat × α) (h : e ∈ SMap.put m k v) :
    e = (k, v) ∨ e ∈ m := by
  induction m with
  | nil => simpa [SMap.put] using h
  | cons a t ih =>
    obtain ⟨i, w⟩ := a
    simp only [SMap.put] at h
    split at h
    · simpa using h
    · split at h
      · rcases List.mem_cons.mp h with h | h
        · exact .inl h
        · exact .inr (List.mem_cons_of_mem _ h)
      · rcases List.mem_cons.mp h with h | h
        · exact .inr (h ▸ List.mem_cons_self)
        · exact (ih h).imp id (List.mem_cons_of_mem _)

theorem SMap.wf_put {α : Type} (m : SMap α) (k : Nat) (v : α) (h : SMap.wf m) : SMap.wf (SMap.put m k v) := by
  induction m with
  | nil => simp [SMap.put, SMap.wf]
  | cons a t ih =>
    obtain ⟨i, w⟩ := a
    have h2 : SMap.wf t ∧ ∀ e ∈ t, i < e.1 := by
      simp only [SMap.wf, List.map_cons, List.pairwise_cons] at h
      exact ⟨h.2, fun e he => h.1 _ (List.mem_map_of_mem he)⟩
    simp only [SMap.put]
    split
    · simp only [SMap.wf, List.map_cons, List.pairwise_cons] at h ⊢
      refine ⟨?_, h⟩
      intro x hx
      rcases List.mem_cons.mp hx with hx | hx
      · omega
      · have := h.1 x hx; omega
    · split
      · subst_vars; exact h
      · simp only [SMap.wf, List.map_cons, List.pairwise_cons]
        refine ⟨?_, ih h2.1⟩
        intro x hx
        obtain ⟨e, he, rfl⟩ := List.mem_map.mp hx
        rcases SMap.mem_put t k v e he with rfl | he
        · simp; omega
        · exact h2.2 e he

/-- Any part of a table in canonical form is in canonical form. -/
theorem SMap.wf_filter {α : Type} (m : SMap α) (p : Nat × α → Bool) (h : SMap.wf m) : SMap.wf (m.filter p) :=
  h.sublist ((List.filter_sublist).map _)

theorem SMap.wf_del {α : Type} (m : SMap α) (k : Nat) (h : SMap.wf m) : SMap.wf (SMap.del m k) :=
  SMap.wf_filter m _ h

/-! ## Byte memories -/

/-- A read after a write of one byte: the byte at its address, the old byte elsewhere. -/
theorem Ram.read_write (r : Ram) (a b : Nat) (v : Byte) :
    (r.write a v).read b = if a = b then v else r.read b := by
  by_cases h : r.gen = 0 ∧ v = 0
  · have e : (r.write a v).cells = SMap.del r.cells a ∧ (r.write a v).gen = r.gen := by simp [Ram.write, h]
    rw [Ram.read, e.1, e.2, SMap.find_del]
    by_cases hb : a = b
    · simp [hb, h.1, h.2]
    · simp [hb, Ram.read]
  · have e : (r.write a v).cells = SMap.put r.cells a v ∧ (r.write a v).gen = r.gen := by
      rw [Ram.write, if_neg h]; exact ⟨rfl, rfl⟩
    rw [Ram.read, e.1, e.2, SMap.find_put]
    by_cases hb : a = b <;> simp [hb, Ram.read]

theorem Ram.wf_write (r : Ram) (a : Nat) (v : Byte) (h : r.wf) : (r.write a v).wf := by
  unfold Ram.write
  split
  · exact ⟨SMap.wf_del _ _ h.1, fun hg c hc => h.2 hg c (List.mem_of_mem_filter hc)⟩
  · rename_i hv
    refine ⟨SMap.wf_put _ _ _ h.1, fun hg c hc => ?_⟩
    rcases SMap.mem_put _ _ _ _ hc with rfl | hc
    · exact fun h0 => hv ⟨hg, h0⟩
    · exact h.2 hg c hc

/-- A write of any number of bytes keeps the canonical form. -/
theorem Ram.wf_writeN (r : Ram) (a : Nat) (bs : List Byte) (h : r.wf) : (r.writeN a bs).wf := by
  induction bs generalizing r a with
  | nil => exact h
  | cons b t ih => exact ih (r.write a b) (a + 1) (Ram.wf_write r a b h)

/-- A write to the addresses that exist keeps the canonical form. -/
theorem Ram.wf_writeWhere (r : Ram) (ok : Nat → Bool) (a : Nat) (bs : List Byte) (h : r.wf) :
    (r.writeWhere ok a bs).wf := by
  induction bs generalizing r a with
  | nil => exact h
  | cons b t ih =>
    refine ih _ _ ?_
    split
    · exact Ram.wf_write r a b h
    · exact h

/-- Keys moved by a map that keeps their order stay in order. -/
theorem SMap.wf_map {α : Type} (m : SMap α) (f : Nat → Nat) (h : SMap.wf m)
    (hf : ∀ e ∈ m, ∀ e' ∈ m, e.1 < e'.1 → f e.1 < f e'.1) : SMap.wf (m.map fun e => (f e.1, e.2)) := by
  simp only [SMap.wf, List.map_map, List.pairwise_map] at h ⊢
  exact h.imp_of_mem fun ha hb hab => hf _ ha _ hb hab

/-- A part of a memory, moved down to address 0, is in canonical form. -/
theorem wf_cisternCopy (s : State) (base len : Nat) (h : s.mem.cistern.wf) : (cisternCopy s base len).wf := by
  refine ⟨SMap.wf_map _ (· - base) (SMap.wf_filter _ _ h.1) ?_, fun hg c hc => ?_⟩
  · intro e he e' he' hlt
    have h1 := (List.mem_filter.mp he).2
    simp only [decide_eq_true_eq] at h1
    omega
  · obtain ⟨d, hd, rfl⟩ := List.mem_map.mp hc
    exact h.2 hg d (List.mem_of_mem_filter hd)

/-- A copy laid over a memory keeps the canonical form. -/
theorem Ram.wf_overlay (dst src : Ram) (base len : Nat) (hd : dst.wf) (hs : src.wf) :
    (dst.overlay src base len).wf := by
  refine ⟨?_, fun hg c hc => ?_⟩
  · have h2 := SMap.wf_map _ (· + base) (SMap.wf_filter src.cells (fun c => decide (c.1 < len)) hs.1)
      (fun _ _ _ _ h => by omega)
    have h1 := SMap.wf_filter dst.cells (fun c => decide (c.1 < base)) hd.1
    have h3 := SMap.wf_filter dst.cells (fun c => decide (base + len ≤ c.1)) hd.1
    simp only [SMap.wf, Ram.overlay, List.map_append, List.pairwise_append] at h1 h2 h3 ⊢
    refine ⟨⟨h1, h2, ?_⟩, h3, ?_⟩
    · intro a ha b hb
      simp only [List.mem_map, List.mem_filter, decide_eq_true_eq] at ha hb
      obtain ⟨x, hx, rfl⟩ := ha
      obtain ⟨y, ⟨z, hz, rfl⟩, rfl⟩ := hb
      simp; omega
    · intro a ha b hb
      simp only [List.mem_append, List.mem_map, List.mem_filter, decide_eq_true_eq] at ha hb
      obtain ⟨y, hy, rfl⟩ := hb
      rcases ha with ⟨x, hx, rfl⟩ | ⟨x, ⟨z, hz, rfl⟩, rfl⟩
      · omega
      · simp; omega
  · have h0 : dst.gen = 0 ∧ src.gen = 0 := by simp only [Ram.overlay] at hg; omega
    simp only [Ram.overlay, List.mem_append, List.mem_map, List.mem_filter] at hc
    rcases hc with (hc | ⟨x, hx, rfl⟩) | hc
    · exact hd.2 h0.1 c hc.1
    · exact hs.2 h0.2 x hx.1
    · exact hd.2 h0.1 c hc.1

/-- A loss of contents, in whole or in part, keeps the canonical form. -/
theorem Ram.wf_loseExcept (r : Ram) (keep : Nat → Bool) (h : r.wf) : (r.loseExcept keep).wf :=
  ⟨SMap.wf_filter _ _ h.1, fun hg => absurd hg (Nat.succ_ne_zero _)⟩

theorem Ram.wf_lose (r : Ram) (h : r.wf) : r.lose.wf := Ram.wf_loseExcept r _ h

theorem Ram.wf_empty : Ram.empty.wf := by decide

@[simp] theorem Ram.writeN_nil (r : Ram) (a : Nat) : r.writeN a [] = r := rfl

@[simp] theorem Ram.readN_length (r : Ram) (a n : Nat) : (r.readN a n).length = n := by simp [Ram.readN]

@[simp] theorem leBytes_length (n v : Nat) : (leBytes n v).length = n := by
  induction n generalizing v with
  | zero => rfl
  | succ n ih => simp [leBytes, ih]

/-- Bytes spell the number that they were made from, as far as they reach. -/
theorem leNat_leBytes (n v : Nat) : leNat (leBytes n v) = v % 256 ^ n := by
  induction n generalizing v with
  | zero => simp [leBytes, leNat, Nat.mod_one]
  | succ n ih =>
    simp only [leBytes, leNat, ih, BitVec.toNat_ofNat]
    rw [show (256 : Nat) ^ (n + 1) = 256 * 256 ^ n by rw [Nat.pow_succ, Nat.mul_comm], Nat.mod_mul]

/-! ## `noteSpec` -/

@[simp] theorem noteSpec_pwr (s : State) (k : Nat) (e : W32) : (noteSpec s k e).pwr = s.pwr := rfl
@[simp] theorem noteSpec_fuses (s : State) (k : Nat) (e : W32) : (noteSpec s k e).fuses = s.fuses := rfl
@[simp] theorem noteSpec_grid (s : State) (k : Nat) (e : W32) : (noteSpec s k e).grid = s.grid := rfl
@[simp] theorem noteSpec_lanterns (s : State) (k : Nat) (e : W32) : (noteSpec s k e).lanterns = s.lanterns := rfl
@[simp] theorem noteSpec_map (s : State) (k : Nat) (e : W32) : (noteSpec s k e).map = s.map := rfl
@[simp] theorem noteSpec_mapRetired (s : State) (k : Nat) (e : W32) : (noteSpec s k e).mapRetired = s.mapRetired := rfl
@[simp] theorem noteSpec_mem (s : State) (k : Nat) (e : W32) : (noteSpec s k e).mem = s.mem := rfl
@[simp] theorem noteSpec_rings (s : State) (k : Nat) (e : W32) : (noteSpec s k e).rings = s.rings := rfl
@[simp] theorem noteSpec_host (s : State) (k : Nat) (e : W32) : (noteSpec s k e).host = s.host := rfl
@[simp] theorem noteSpec_sluice (s : State) (k : Nat) (e : W32) : (noteSpec s k e).sluice = s.sluice := rfl
@[simp] theorem noteSpec_descs (s : State) (k : Nat) (e : W32) : (noteSpec s k e).descs = s.descs := rfl
@[simp] theorem noteSpec_jobs (s : State) (k : Nat) (e : W32) : (noteSpec s k e).jobs = s.jobs := rfl
@[simp] theorem noteSpec_safety (s : State) (k : Nat) (e : W32) : (noteSpec s k e).safety = s.safety := rfl
@[simp] theorem noteSpec_motion (s : State) (k : Nat) (e : W32) : (noteSpec s k e).motion = s.motion := rfl
@[simp] theorem noteSpec_klink (s : State) (k : Nat) (e : W32) : (noteSpec s k e).klink = s.klink := rfl
@[simp] theorem noteSpec_spout (s : State) (k : Nat) (e : W32) : (noteSpec s k e).spout = s.spout := rfl
@[simp] theorem noteSpec_sec (s : State) (k : Nat) (e : W32) : (noteSpec s k e).sec = s.sec := rfl
@[simp] theorem noteSpec_mgmt (s : State) (k : Nat) (e : W32) : (noteSpec s k e).mgmt = s.mgmt := rfl
@[simp] theorem noteSpec_ember (s : State) (k : Nat) (e : W32) : (noteSpec s k e).ember = s.ember := rfl
@[simp] theorem noteSpec_free (s : State) (k : Nat) (e : W32) : (noteSpec s k e).free = s.free := rfl
@[simp] theorem noteSpec_pending (s : State) (k : Nat) (e : W32) : (noteSpec s k e).pending = s.pending := rfl

/-! ## `popStream` -/

@[simp] theorem popStream_pwr (s : State) (r : JobRef) : (popStream s r).pwr = s.pwr := rfl
@[simp] theorem popStream_fuses (s : State) (r : JobRef) : (popStream s r).fuses = s.fuses := rfl
@[simp] theorem popStream_grid (s : State) (r : JobRef) : (popStream s r).grid = s.grid := rfl
@[simp] theorem popStream_lanterns (s : State) (r : JobRef) : (popStream s r).lanterns = s.lanterns := rfl
@[simp] theorem popStream_map (s : State) (r : JobRef) : (popStream s r).map = s.map := rfl
@[simp] theorem popStream_mapRetired (s : State) (r : JobRef) : (popStream s r).mapRetired = s.mapRetired := rfl
@[simp] theorem popStream_mem (s : State) (r : JobRef) : (popStream s r).mem = s.mem := rfl
@[simp] theorem popStream_world (s : State) (r : JobRef) : (popStream s r).world = s.world := rfl
@[simp] theorem popStream_rings (s : State) (r : JobRef) : (popStream s r).rings = s.rings := rfl
@[simp] theorem popStream_host (s : State) (r : JobRef) : (popStream s r).host = s.host := rfl
@[simp] theorem popStream_sluice (s : State) (r : JobRef) : (popStream s r).sluice = s.sluice := rfl
@[simp] theorem popStream_descs (s : State) (r : JobRef) : (popStream s r).descs = s.descs := rfl
@[simp] theorem popStream_safety (s : State) (r : JobRef) : (popStream s r).safety = s.safety := rfl
@[simp] theorem popStream_motion (s : State) (r : JobRef) : (popStream s r).motion = s.motion := rfl
@[simp] theorem popStream_klink (s : State) (r : JobRef) : (popStream s r).klink = s.klink := rfl
@[simp] theorem popStream_spout (s : State) (r : JobRef) : (popStream s r).spout = s.spout := rfl
@[simp] theorem popStream_sec (s : State) (r : JobRef) : (popStream s r).sec = s.sec := rfl
@[simp] theorem popStream_mgmt (s : State) (r : JobRef) : (popStream s r).mgmt = s.mgmt := rfl
@[simp] theorem popStream_ember (s : State) (r : JobRef) : (popStream s r).ember = s.ember := rfl
@[simp] theorem popStream_free (s : State) (r : JobRef) : (popStream s r).free = s.free := rfl
@[simp] theorem popStream_pending (s : State) (r : JobRef) : (popStream s r).pending = s.pending := rfl

/-! ## `launch` -/

@[simp] theorem launch_pwr (s : State) (f : Flight) : (launch s f).pwr = s.pwr := rfl
@[simp] theorem launch_fuses (s : State) (f : Flight) : (launch s f).fuses = s.fuses := rfl
@[simp] theorem launch_grid (s : State) (f : Flight) : (launch s f).grid = s.grid := rfl
@[simp] theorem launch_lanterns (s : State) (f : Flight) : (launch s f).lanterns = s.lanterns := rfl
@[simp] theorem launch_map (s : State) (f : Flight) : (launch s f).map = s.map := rfl
@[simp] theorem launch_mapRetired (s : State) (f : Flight) : (launch s f).mapRetired = s.mapRetired := rfl
@[simp] theorem launch_world (s : State) (f : Flight) : (launch s f).world = s.world := rfl
@[simp] theorem launch_rings (s : State) (f : Flight) : (launch s f).rings = s.rings := rfl
@[simp] theorem launch_host (s : State) (f : Flight) : (launch s f).host = s.host := rfl
@[simp] theorem launch_sluice (s : State) (f : Flight) : (launch s f).sluice = s.sluice := rfl
@[simp] theorem launch_descs (s : State) (f : Flight) : (launch s f).descs = s.descs := rfl
@[simp] theorem launch_jobs (s : State) (f : Flight) : (launch s f).jobs = s.jobs := rfl
@[simp] theorem launch_safety (s : State) (f : Flight) : (launch s f).safety = s.safety := rfl
@[simp] theorem launch_motion (s : State) (f : Flight) : (launch s f).motion = s.motion := rfl
@[simp] theorem launch_klink (s : State) (f : Flight) : (launch s f).klink = s.klink := rfl
@[simp] theorem launch_spout (s : State) (f : Flight) : (launch s f).spout = s.spout := rfl
@[simp] theorem launch_sec (s : State) (f : Flight) : (launch s f).sec = s.sec := rfl
@[simp] theorem launch_mgmt (s : State) (f : Flight) : (launch s f).mgmt = s.mgmt := rfl
@[simp] theorem launch_ember (s : State) (f : Flight) : (launch s f).ember = s.ember := rfl
@[simp] theorem launch_pending (s : State) (f : Flight) : (launch s f).pending = s.pending := rfl

/-! ## `noteWrite` -/

@[simp] theorem noteWrite_pwr (s : State) (isDram : Bool) (start len now until_ : Nat) (src : Place) : (noteWrite s isDram start len now until_ src).pwr = s.pwr := rfl
@[simp] theorem noteWrite_fuses (s : State) (isDram : Bool) (start len now until_ : Nat) (src : Place) : (noteWrite s isDram start len now until_ src).fuses = s.fuses := rfl
@[simp] theorem noteWrite_grid (s : State) (isDram : Bool) (start len now until_ : Nat) (src : Place) : (noteWrite s isDram start len now until_ src).grid = s.grid := rfl
@[simp] theorem noteWrite_lanterns (s : State) (isDram : Bool) (start len now until_ : Nat) (src : Place) : (noteWrite s isDram start len now until_ src).lanterns = s.lanterns := rfl
@[simp] theorem noteWrite_map (s : State) (isDram : Bool) (start len now until_ : Nat) (src : Place) : (noteWrite s isDram start len now until_ src).map = s.map := rfl
@[simp] theorem noteWrite_mapRetired (s : State) (isDram : Bool) (start len now until_ : Nat) (src : Place) : (noteWrite s isDram start len now until_ src).mapRetired = s.mapRetired := rfl
@[simp] theorem noteWrite_world (s : State) (isDram : Bool) (start len now until_ : Nat) (src : Place) : (noteWrite s isDram start len now until_ src).world = s.world := rfl
@[simp] theorem noteWrite_rings (s : State) (isDram : Bool) (start len now until_ : Nat) (src : Place) : (noteWrite s isDram start len now until_ src).rings = s.rings := rfl
@[simp] theorem noteWrite_host (s : State) (isDram : Bool) (start len now until_ : Nat) (src : Place) : (noteWrite s isDram start len now until_ src).host = s.host := rfl
@[simp] theorem noteWrite_sluice (s : State) (isDram : Bool) (start len now until_ : Nat) (src : Place) : (noteWrite s isDram start len now until_ src).sluice = s.sluice := rfl
@[simp] theorem noteWrite_descs (s : State) (isDram : Bool) (start len now until_ : Nat) (src : Place) : (noteWrite s isDram start len now until_ src).descs = s.descs := rfl
@[simp] theorem noteWrite_jobs (s : State) (isDram : Bool) (start len now until_ : Nat) (src : Place) : (noteWrite s isDram start len now until_ src).jobs = s.jobs := rfl
@[simp] theorem noteWrite_safety (s : State) (isDram : Bool) (start len now until_ : Nat) (src : Place) : (noteWrite s isDram start len now until_ src).safety = s.safety := rfl
@[simp] theorem noteWrite_motion (s : State) (isDram : Bool) (start len now until_ : Nat) (src : Place) : (noteWrite s isDram start len now until_ src).motion = s.motion := rfl
@[simp] theorem noteWrite_klink (s : State) (isDram : Bool) (start len now until_ : Nat) (src : Place) : (noteWrite s isDram start len now until_ src).klink = s.klink := rfl
@[simp] theorem noteWrite_spout (s : State) (isDram : Bool) (start len now until_ : Nat) (src : Place) : (noteWrite s isDram start len now until_ src).spout = s.spout := rfl
@[simp] theorem noteWrite_sec (s : State) (isDram : Bool) (start len now until_ : Nat) (src : Place) : (noteWrite s isDram start len now until_ src).sec = s.sec := rfl
@[simp] theorem noteWrite_mgmt (s : State) (isDram : Bool) (start len now until_ : Nat) (src : Place) : (noteWrite s isDram start len now until_ src).mgmt = s.mgmt := rfl
@[simp] theorem noteWrite_ember (s : State) (isDram : Bool) (start len now until_ : Nat) (src : Place) : (noteWrite s isDram start len now until_ src).ember = s.ember := rfl
@[simp] theorem noteWrite_free (s : State) (isDram : Bool) (start len now until_ : Nat) (src : Place) : (noteWrite s isDram start len now until_ src).free = s.free := rfl
@[simp] theorem noteWrite_pending (s : State) (isDram : Bool) (start len now until_ : Nat) (src : Place) : (noteWrite s isDram start len now until_ src).pending = s.pending := rfl

end Sys2Proof.Machine
end

