-- ==== Sys2Proof/Laws/Events.lean ====
section
/-! SUPPORT. Everything that raising an event can touch: the log, the fault handler, STOP_REQ_N and, for severity 1, the
jobs, the aborts sent to a group, the shadow header and the host accesses to DRAM that waited for the jobs' end (R67). All
else is kept. -/

namespace Sys2Proof.Machine

open Sys2Proof

/-- The parts of the state that no event touches. -/
structure Kept (s t : State) : Prop where
  fuses : t.fuses = s.fuses
  grid : t.grid = s.grid
  lant : ∀ p, ∃ g, lant t p = { lant s p with gated := g }
  map : t.map = s.map
  mapRetired : t.mapRetired = s.mapRetired
  mapSet : t.mapSet = s.mapSet
  cistern : t.mem.cistern = s.mem.cistern
  groups : t.mem.groups = s.mem.groups
  compat : t.mem.compat = s.mem.compat
  poolReg : t.mem.poolReg = s.mem.poolReg
  poolPend : t.mem.poolPend = s.mem.poolPend
  memWin : t.mem.memWin = s.mem.memWin
  present : t.mem.present = s.mem.present
  ddrFail : t.mem.ddrFail = s.mem.ddrFail
  d2dFail : t.mem.d2dFail = s.mem.d2dFail
  hostWin : t.mem.hostWin = s.mem.hostWin
  dataRate : t.mem.dataRate = s.mem.dataRate
  capacity : t.mem.capacity = s.mem.capacity
  density : t.mem.density = s.mem.density
  dma : t.mem.dma = s.mem.dma
  flights : t.mem.flights = s.mem.flights
  nextId : t.mem.nextId = s.mem.nextId
  dramKey : t.mem.dramKey = s.mem.dramKey
  recent : t.mem.recent = s.mem.recent
  backing : t.mem.backing = s.mem.backing
  hubIn : t.mem.hubIn = s.mem.hubIn
  hubSave : t.mem.hubSave = s.mem.hubSave
  dramWf : s.mem.dram.wf → t.mem.dram.wf
  memIdle : s.mem.waits = [] → t.mem = s.mem
  world : t.world = s.world
  sluice : t.sluice = s.sluice
  descs : t.descs = s.descs
  motion : t.motion = s.motion
  spout : t.spout = s.spout
  sec : t.sec = s.sec
  mgmt : t.mgmt = s.mgmt
  free : t.free = s.free
  pending : t.pending = s.pending
  ring : t.rings.ring = s.rings.ring
  hub : t.pwr.hub = s.pwr.hub
  ready : t.pwr.ready = s.pwr.ready
  ticks : t.pwr.ticks = s.pwr.ticks
  pstate : t.pwr.pstate = s.pwr.pstate
  pwrGood : t.pwr.pwrGood = s.pwr.pwrGood
  stop : s.pwr.stop = true → t.pwr.stop = true

theorem Kept.refl (s : State) : Kept s s := by constructor <;> first | rfl | exact id | exact fun _ => rfl | exact fun p => ⟨_, rfl⟩

theorem Kept.trans {a b c : State} (h : Kept a b) (k : Kept b c) : Kept a c := by
  constructor
  case stop => exact fun x => k.stop (h.stop x)
  case lant => intro p; obtain ⟨g, hg⟩ := h.lant p; obtain ⟨g', hg'⟩ := k.lant p; exact ⟨g', by rw [hg', hg]⟩
  case dramWf => exact fun x => k.dramWf (h.dramWf x)
  case memIdle => exact fun x => (k.memIdle (by rw [h.memIdle x]; exact x)).trans (h.memIdle x)
  all_goals first
    | exact k.fuses.trans h.fuses
    | exact k.grid.trans h.grid
    | exact k.map.trans h.map
    | exact k.mapRetired.trans h.mapRetired
    | exact k.mapSet.trans h.mapSet
    | exact k.cistern.trans h.cistern
    | exact k.groups.trans h.groups
    | exact k.compat.trans h.compat
    | exact k.poolReg.trans h.poolReg
    | exact k.poolPend.trans h.poolPend
    | exact k.memWin.trans h.memWin
    | exact k.present.trans h.present
    | exact k.ddrFail.trans h.ddrFail
    | exact k.d2dFail.trans h.d2dFail
    | exact k.hostWin.trans h.hostWin
    | exact k.dataRate.trans h.dataRate
    | exact k.capacity.trans h.capacity
    | exact k.density.trans h.density
    | exact k.dma.trans h.dma
    | exact k.flights.trans h.flights
    | exact k.nextId.trans h.nextId
    | exact k.dramKey.trans h.dramKey
    | exact k.recent.trans h.recent
    | exact k.backing.trans h.backing
    | exact k.hubIn.trans h.hubIn
    | exact k.hubSave.trans h.hubSave
    | exact k.world.trans h.world
    | exact k.sluice.trans h.sluice
    | exact k.descs.trans h.descs
    | exact k.motion.trans h.motion
    | exact k.spout.trans h.spout
    | exact k.sec.trans h.sec
    | exact k.mgmt.trans h.mgmt
    | exact k.free.trans h.free
    | exact k.pending.trans h.pending
    | exact k.ring.trans h.ring
    | exact k.hub.trans h.hub
    | exact k.ready.trans h.ready
    | exact k.ticks.trans h.ticks
    | exact k.pstate.trans h.pstate
    | exact k.pwrGood.trans h.pwrGood

theorem refreshHeader_kept (s : State) : Kept s (refreshHeader s) := by
  unfold refreshHeader
  dsimp only
  split
  · split <;> (constructor <;> first | rfl | exact id | exact fun _ => rfl | exact fun p => ⟨_, rfl⟩)
  · exact .refl s

/-- The log is all that an event's record touches. -/
theorem emberEvent_eq (s : State) (cls : EventClass) (words : List W32) (spec : Bool) :
    ∃ e, emberEvent s cls words spec = { s with ember := e } := by
  unfold emberEvent
  dsimp only
  split
  · split <;> exact ⟨_, rfl⟩
  · split
    · exact ⟨_, rfl⟩
    · split
      · exact ⟨_, rfl⟩
      · exact ⟨_, rfl⟩

theorem emberFlushStart_eq (s : State) : ∃ e, emberFlushStart s = { s with ember := e } := by
  unfold emberFlushStart
  split
  · exact ⟨_, rfl⟩
  · exact ⟨_, rfl⟩

theorem emberEvent_kept (s : State) (cls : EventClass) (words : List W32) (spec : Bool) :
    Kept s (emberEvent s cls words spec) := by
  obtain ⟨e, h⟩ := emberEvent_eq s cls words spec
  rw [h]; constructor <;> first | rfl | exact id | exact fun _ => rfl | exact fun p => ⟨_, rfl⟩

theorem emberFlushStart_kept (s : State) : Kept s (emberFlushStart s) := by
  obtain ⟨e, h⟩ := emberFlushStart_eq s
  rw [h]; constructor <;> first | rfl | exact id | exact fun _ => rfl | exact fun p => ⟨_, rfl⟩

theorem assertStop_kept (s : State) : Kept s (assertStop s) := by constructor <;> first | rfl | exact id | exact fun _ => rfl | exact fun p => ⟨_, rfl⟩

/-- One host access to DRAM writes DRAM, or what the host reads. -/
theorem hostDram_eq (s : State) (h : HostAcc) :
    ∃ r v, hostDram s h = { s with mem := { s.mem with dram := r }, host := { s.host with busRead := v } }
      ∧ (s.mem.dram.wf → r.wf) := by
  unfold hostDram
  split
  · exact ⟨_, s.host.busRead, rfl, Ram.wf_writeWhere _ _ _ _⟩
  · exact ⟨s.mem.dram, _, rfl, id⟩

theorem hostDrams_eq (l : List HostAcc) (s : State) :
    ∃ r v, l.foldl hostDram s = { s with mem := { s.mem with dram := r }, host := { s.host with busRead := v } }
      ∧ (s.mem.dram.wf → r.wf) := by
  induction l generalizing s with
  | nil => exact ⟨s.mem.dram, s.host.busRead, rfl, id⟩
  | cons a t ih =>
    obtain ⟨r, v, h, hw⟩ := hostDram_eq s a
    obtain ⟨r', v', h', hw'⟩ := ih (hostDram s a)
    refine ⟨r', v', ?_, fun x => hw' (by rw [h]; exact hw x)⟩
    rw [List.foldl_cons, h', h]

/-- The accesses that waited write DRAM and what the host reads, and none waits afterwards unless all go on waiting. -/
theorem drainWaits_eq (s : State) :
    ∃ r w v, drainWaits s = { s with
        mem := { s.mem with dram := r, waits := w }, host := { s.host with busRead := v } }
      ∧ (s.mem.dram.wf → r.wf) ∧ (s.mem.waits = [] → r = s.mem.dram ∧ w = [] ∧ v = s.host.busRead) := by
  unfold drainWaits
  split
  · exact ⟨s.mem.dram, s.mem.waits, s.host.busRead, rfl, id, fun h => ⟨rfl, h, rfl⟩⟩
  · by_cases hw : s.mem.waits = []
    · exact ⟨s.mem.dram, [], s.host.busRead, by rw [hw]; rfl, id, fun _ => ⟨rfl, rfl, rfl⟩⟩
    · obtain ⟨r, v, h, hr⟩ := hostDrams_eq s.mem.waits { s with mem := { s.mem with waits := [] } }
      exact ⟨r, [], v, h, hr, fun x => absurd x hw⟩

/-- The end of every job empties the job list, tells a group's members, and lets the waiting host accesses go. -/
theorem endJobs_eq (s : State) :
    ∃ r w v a, endJobs s = { s with
        jobs := [], klink := a
        mem := { s.mem with dram := r, waits := w }, host := { s.host with busRead := v } }
      ∧ (s.mem.dram.wf → r.wf) ∧ (s.mem.waits = [] → r = s.mem.dram ∧ w = [] ∧ v = s.host.busRead) := by
  unfold endJobs
  obtain ⟨r, w, v, h, h1, h2⟩ := drainWaits_eq { s with
    jobs := []
    klink := (s.jobs.filter fun j => j.img.group.isSome).foldl (fun k j => k.send (.abort j.img.planId j.desc.tag)) s.klink }
  exact ⟨r, w, v, _, h, h1, h2⟩

theorem drainWaits_kept (s : State) : Kept s (drainWaits s) := by
  obtain ⟨r, w, v, h, h1, h2⟩ := drainWaits_eq s
  rw [h]
  constructor
  case dramWf => exact h1
  case memIdle => intro x; obtain ⟨rfl, rfl, -⟩ := h2 x; rw [← x]
  all_goals first | rfl | exact id | exact fun p => ⟨_, rfl⟩

theorem endJobs_kept (s : State) : Kept s (endJobs s) := by
  obtain ⟨r, w, v, a, h, h1, h2⟩ := endJobs_eq s
  rw [h]
  constructor
  case dramWf => exact h1
  case memIdle => intro x; obtain ⟨rfl, rfl, -⟩ := h2 x; rw [← x]
  all_goals first | rfl | exact id | exact fun p => ⟨_, rfl⟩

@[simp] theorem endJobs_jobs (s : State) : (endJobs s).jobs = [] := by
  obtain ⟨r, w, v, a, h, -⟩ := endJobs_eq s; rw [h]

@[simp] theorem endJobs_pwr (s : State) : (endJobs s).pwr = s.pwr := by
  obtain ⟨r, w, v, a, h, -⟩ := endJobs_eq s; rw [h]

@[simp] theorem endJobs_safety (s : State) : (endJobs s).safety = s.safety := by
  obtain ⟨r, w, v, a, h, -⟩ := endJobs_eq s; rw [h]

@[simp] theorem endJobs_ember (s : State) : (endJobs s).ember = s.ember := by
  obtain ⟨r, w, v, a, h, -⟩ := endJobs_eq s; rw [h]

@[simp] theorem endJobs_rings (s : State) : (endJobs s).rings = s.rings := by
  obtain ⟨r, w, v, a, h, -⟩ := endJobs_eq s; rw [h]

/-- The gates that stay as shown are all that a lantern keeps otherwise than it was. -/
theorem keepGates_eq (s : State) :
    ∃ v : Vector Lantern 34, keepGates s = { s with lanterns := v } ∧ ∀ p, ∃ g, v.get p = { lant s p with gated := g } := by
  refine ⟨_, rfl, fun p => ⟨(lant s p).gated || restsInSlot s p, ?_⟩⟩
  rw [Vector.get_eq_getElem, Vector.getElem_ofFn]

theorem keepGates_kept (s : State) : Kept s (keepGates s) := by
  obtain ⟨v, h, hv⟩ := keepGates_eq s
  rw [h]
  constructor
  case lant => exact hv
  all_goals first | rfl | exact id | exact fun _ => rfl

theorem enterHalt_kept (s : State) : Kept s (enterHalt s) := by
  unfold enterHalt
  refine (((assertStop_kept s).trans (keepGates_kept _)).trans (endJobs_kept _)).trans (.trans ?_ (refreshHeader_kept _))
  constructor <;> first | rfl | exact id | exact fun _ => rfl | exact fun p => ⟨_, rfl⟩

theorem beginRelight_kept (s : State) : Kept s (beginRelight s) := by
  unfold beginRelight
  split
  · exact .refl s
  · split
    · exact enterHalt_kept s
    · refine (((assertStop_kept s).trans (keepGates_kept _)).trans (endJobs_kept _)).trans (.trans ?_ (refreshHeader_kept _))
      constructor <;> first | rfl | exact id | exact fun _ => rfl | exact fun p => ⟨_, rfl⟩

/-- The fault handler's registers may be rewritten before an operation that keeps the rest. -/
theorem kept_safety (s : State) (f : Safety) : Kept s { s with safety := f } := by
  constructor <;> first | rfl | exact id | exact fun _ => rfl | exact fun p => ⟨_, rfl⟩

theorem kept_pwr_preS1 (s : State) (l : List EventClass) : Kept s { s with pwr := { s.pwr with preS1 := l } } := by
  constructor <;> first | rfl | exact id | exact fun _ => rfl | exact fun p => ⟨_, rfl⟩

theorem handleNow_kept (s : State) (e : EventClass × Nat) : Kept s (handleNow s e) := by
  unfold handleNow
  dsimp only
  split
  · exact (kept_safety s _).trans (beginRelight_kept _)
  · exact kept_safety s _

theorem queueOverflow_kept (s : State) : Kept s (queueOverflow s) := by
  have h := ((emberEvent_kept s .faultQueueOverflow [] false).trans (assertStop_kept _)).trans (emberFlushStart_kept _)
  unfold queueOverflow
  dsimp only
  split
  · exact h.trans (kept_pwr_preS1 _ _)
  · split
    · exact h.trans (kept_safety _ _)
    · exact h.trans (handleNow_kept _ _)

theorem handlerArrive_kept (s : State) (cls : EventClass) : Kept s (handlerArrive s cls) := by
  unfold handlerArrive
  extract_lets e now
  split
  · exact handleNow_kept s _
  · split
    · exact kept_safety s _
    · exact queueOverflow_kept s

theorem nextS1_kept (s t : State) (h : nextS1 s = some t) : Kept s t := by
  unfold nextS1 at h
  dsimp only at h
  split at h
  · obtain rfl := (Option.some.inj h).symm
    exact (kept_safety s _).trans (handleNow_kept _ _)
  · obtain ⟨e, -, rfl⟩ := Option.map_eq_some_iff.mp h
    exact (kept_safety s _).trans (handleNow_kept _ _)

theorem handlerDone_kept (s : State) : Kept s (handlerDone s) := by
  unfold handlerDone
  dsimp only
  split
  · rename_i t h
    split at h
    · cases h
    · exact (kept_safety s _).trans (nextS1_kept _ _ h)
  · exact kept_safety s _
  · exact (kept_safety s _).trans (handleNow_kept _ _)
  · exact kept_safety s _

theorem respondS1_kept (s : State) (cls : EventClass) : Kept s (respondS1 s cls) := by
  have h := (assertStop_kept s).trans (emberFlushStart_kept _)
  unfold respondS1
  dsimp only
  split
  · exact h.trans (enterHalt_kept _)
  · split
    · exact h.trans (kept_pwr_preS1 _ _)
    · exact h.trans (handlerArrive_kept _ _)

theorem raiseEv_kept (s : State) (cls : EventClass) (words : List W32) (spec : Bool) :
    Kept s (raiseEv s cls words spec) := by
  unfold raiseEv
  dsimp only
  split
  · exact .refl s
  · split
    · exact (emberEvent_kept s cls words spec).trans (respondS1_kept _ _)
    · exact (emberEvent_kept s cls words spec).trans (handlerArrive_kept _ _)

/-- Raising an event keeps everything but the log, the handler, STOP_REQ_N, jobs, group aborts and shadow header. -/
theorem raise_kept (s : State) (cls : EventClass) (words : List W32) : Kept s (raise s cls words) :=
  raiseEv_kept s cls words false

theorem modJob_kept (s : State) (r : JobRef) (f : Job → Job) : Kept s (modJob s r f) := by
  constructor <;> first | rfl | exact id | exact fun _ => rfl | exact fun p => ⟨_, rfl⟩

theorem raiseFor_kept (s : State) (cls : EventClass) (words : List W32) (r : JobRef) :
    Kept s (raiseFor s cls words r) := by
  unfold raiseFor failJob
  dsimp only
  split
  · exact (raiseEv_kept s cls words _).trans (modJob_kept _ _ _)
  · exact raiseEv_kept s cls words _

/-! ## The frames as rewriting rules -/

@[simp] theorem refreshHeader_fuses (s : State) : (refreshHeader s).fuses = s.fuses := (refreshHeader_kept s).fuses
@[simp] theorem refreshHeader_grid (s : State) : (refreshHeader s).grid = s.grid := (refreshHeader_kept s).grid
@[simp] theorem refreshHeader_lanterns (s : State) : (refreshHeader s).lanterns = s.lanterns := by
  unfold refreshHeader; dsimp only; split
  · split <;> rfl
  · rfl
@[simp] theorem refreshHeader_map (s : State) : (refreshHeader s).map = s.map := (refreshHeader_kept s).map
@[simp] theorem refreshHeader_mapRetired (s : State) : (refreshHeader s).mapRetired = s.mapRetired := (refreshHeader_kept s).mapRetired
@[simp] theorem refreshHeader_mapSet (s : State) : (refreshHeader s).mapSet = s.mapSet := (refreshHeader_kept s).mapSet
@[simp] theorem refreshHeader_mem (s : State) : (refreshHeader s).mem = s.mem := by
  unfold refreshHeader; dsimp only; split
  · split <;> rfl
  · rfl
@[simp] theorem refreshHeader_world (s : State) : (refreshHeader s).world = s.world := (refreshHeader_kept s).world
@[simp] theorem refreshHeader_sluice (s : State) : (refreshHeader s).sluice = s.sluice := (refreshHeader_kept s).sluice
@[simp] theorem refreshHeader_descs (s : State) : (refreshHeader s).descs = s.descs := (refreshHeader_kept s).descs
@[simp] theorem refreshHeader_motion (s : State) : (refreshHeader s).motion = s.motion := (refreshHeader_kept s).motion
@[simp] theorem refreshHeader_spout (s : State) : (refreshHeader s).spout = s.spout := (refreshHeader_kept s).spout
@[simp] theorem refreshHeader_sec (s : State) : (refreshHeader s).sec = s.sec := (refreshHeader_kept s).sec
@[simp] theorem refreshHeader_mgmt (s : State) : (refreshHeader s).mgmt = s.mgmt := (refreshHeader_kept s).mgmt
@[simp] theorem refreshHeader_free (s : State) : (refreshHeader s).free = s.free := (refreshHeader_kept s).free
@[simp] theorem refreshHeader_pending (s : State) : (refreshHeader s).pending = s.pending := (refreshHeader_kept s).pending
@[simp] theorem refreshHeader_pwr_hub (s : State) : (refreshHeader s).pwr.hub = s.pwr.hub := (refreshHeader_kept s).hub
@[simp] theorem refreshHeader_pwr_ready (s : State) : (refreshHeader s).pwr.ready = s.pwr.ready := (refreshHeader_kept s).ready
@[simp] theorem refreshHeader_pwr_ticks (s : State) : (refreshHeader s).pwr.ticks = s.pwr.ticks := (refreshHeader_kept s).ticks
@[simp] theorem refreshHeader_pwr_pstate (s : State) : (refreshHeader s).pwr.pstate = s.pwr.pstate := (refreshHeader_kept s).pstate

@[simp] theorem raise_fuses (s : State) (cls : EventClass) (words : List W32) : (raise s cls words).fuses = s.fuses := (raise_kept s cls words).fuses
@[simp] theorem raise_grid (s : State) (cls : EventClass) (words : List W32) : (raise s cls words).grid = s.grid := (raise_kept s cls words).grid
theorem raise_lant (s : State) (cls : EventClass) (words : List W32) (p : Phys) : ∃ g, lant (raise s cls words) p = { lant s p with gated := g } := (raise_kept s cls words).lant p
@[simp] theorem raise_map (s : State) (cls : EventClass) (words : List W32) : (raise s cls words).map = s.map := (raise_kept s cls words).map
@[simp] theorem raise_mapRetired (s : State) (cls : EventClass) (words : List W32) : (raise s cls words).mapRetired = s.mapRetired := (raise_kept s cls words).mapRetired
@[simp] theorem raise_mapSet (s : State) (cls : EventClass) (words : List W32) : (raise s cls words).mapSet = s.mapSet := (raise_kept s cls words).mapSet
@[simp] theorem raise_mem_cistern (s : State) (cls : EventClass) (words : List W32) : (raise s cls words).mem.cistern = s.mem.cistern := (raise_kept s cls words).cistern
@[simp] theorem raise_mem_groups (s : State) (cls : EventClass) (words : List W32) : (raise s cls words).mem.groups = s.mem.groups := (raise_kept s cls words).groups
@[simp] theorem raise_mem_compat (s : State) (cls : EventClass) (words : List W32) : (raise s cls words).mem.compat = s.mem.compat := (raise_kept s cls words).compat
@[simp] theorem raise_mem_poolReg (s : State) (cls : EventClass) (words : List W32) : (raise s cls words).mem.poolReg = s.mem.poolReg := (raise_kept s cls words).poolReg
@[simp] theorem raise_mem_poolPend (s : State) (cls : EventClass) (words : List W32) : (raise s cls words).mem.poolPend = s.mem.poolPend := (raise_kept s cls words).poolPend
@[simp] theorem raise_mem_memWin (s : State) (cls : EventClass) (words : List W32) : (raise s cls words).mem.memWin = s.mem.memWin := (raise_kept s cls words).memWin
@[simp] theorem raise_mem_present (s : State) (cls : EventClass) (words : List W32) : (raise s cls words).mem.present = s.mem.present := (raise_kept s cls words).present
@[simp] theorem raise_mem_ddrFail (s : State) (cls : EventClass) (words : List W32) : (raise s cls words).mem.ddrFail = s.mem.ddrFail := (raise_kept s cls words).ddrFail
@[simp] theorem raise_mem_d2dFail (s : State) (cls : EventClass) (words : List W32) : (raise s cls words).mem.d2dFail = s.mem.d2dFail := (raise_kept s cls words).d2dFail
@[simp] theorem raise_mem_hostWin (s : State) (cls : EventClass) (words : List W32) : (raise s cls words).mem.hostWin = s.mem.hostWin := (raise_kept s cls words).hostWin
@[simp] theorem raise_mem_dataRate (s : State) (cls : EventClass) (words : List W32) : (raise s cls words).mem.dataRate = s.mem.dataRate := (raise_kept s cls words).dataRate
@[simp] theorem raise_mem_capacity (s : State) (cls : EventClass) (words : List W32) : (raise s cls words).mem.capacity = s.mem.capacity := (raise_kept s cls words).capacity
@[simp] theorem raise_mem_density (s : State) (cls : EventClass) (words : List W32) : (raise s cls words).mem.density = s.mem.density := (raise_kept s cls words).density
@[simp] theorem raise_mem_dma (s : State) (cls : EventClass) (words : List W32) : (raise s cls words).mem.dma = s.mem.dma := (raise_kept s cls words).dma
@[simp] theorem raise_mem_flights (s : State) (cls : EventClass) (words : List W32) : (raise s cls words).mem.flights = s.mem.flights := (raise_kept s cls words).flights
@[simp] theorem raise_mem_nextId (s : State) (cls : EventClass) (words : List W32) : (raise s cls words).mem.nextId = s.mem.nextId := (raise_kept s cls words).nextId
@[simp] theorem raise_mem_dramKey (s : State) (cls : EventClass) (words : List W32) : (raise s cls words).mem.dramKey = s.mem.dramKey := (raise_kept s cls words).dramKey
@[simp] theorem raise_mem_recent (s : State) (cls : EventClass) (words : List W32) : (raise s cls words).mem.recent = s.mem.recent := (raise_kept s cls words).recent
@[simp] theorem raise_mem_backing (s : State) (cls : EventClass) (words : List W32) : (raise s cls words).mem.backing = s.mem.backing := (raise_kept s cls words).backing
@[simp] theorem raise_mem_hubIn (s : State) (cls : EventClass) (words : List W32) : (raise s cls words).mem.hubIn = s.mem.hubIn := (raise_kept s cls words).hubIn
@[simp] theorem raise_mem_hubSave (s : State) (cls : EventClass) (words : List W32) : (raise s cls words).mem.hubSave = s.mem.hubSave := (raise_kept s cls words).hubSave
@[simp] theorem raise_world (s : State) (cls : EventClass) (words : List W32) : (raise s cls words).world = s.world := (raise_kept s cls words).world
@[simp] theorem raise_sluice (s : State) (cls : EventClass) (words : List W32) : (raise s cls words).sluice = s.sluice := (raise_kept s cls words).sluice
@[simp] theorem raise_descs (s : State) (cls : EventClass) (words : List W32) : (raise s cls words).descs = s.descs := (raise_kept s cls words).descs
@[simp] theorem raise_motion (s : State) (cls : EventClass) (words : List W32) : (raise s cls words).motion = s.motion := (raise_kept s cls words).motion
@[simp] theorem raise_spout (s : State) (cls : EventClass) (words : List W32) : (raise s cls words).spout = s.spout := (raise_kept s cls words).spout
@[simp] theorem raise_sec (s : State) (cls : EventClass) (words : List W32) : (raise s cls words).sec = s.sec := (raise_kept s cls words).sec
@[simp] theorem raise_mgmt (s : State) (cls : EventClass) (words : List W32) : (raise s cls words).mgmt = s.mgmt := (raise_kept s cls words).mgmt
@[simp] theorem raise_free (s : State) (cls : EventClass) (words : List W32) : (raise s cls words).free = s.free := (raise_kept s cls words).free
@[simp] theorem raise_pending (s : State) (cls : EventClass) (words : List W32) : (raise s cls words).pending = s.pending := (raise_kept s cls words).pending
@[simp] theorem raise_pwr_hub (s : State) (cls : EventClass) (words : List W32) : (raise s cls words).pwr.hub = s.pwr.hub := (raise_kept s cls words).hub
@[simp] theorem raise_pwr_ready (s : State) (cls : EventClass) (words : List W32) : (raise s cls words).pwr.ready = s.pwr.ready := (raise_kept s cls words).ready
@[simp] theorem raise_pwr_ticks (s : State) (cls : EventClass) (words : List W32) : (raise s cls words).pwr.ticks = s.pwr.ticks := (raise_kept s cls words).ticks
@[simp] theorem raise_pwr_pstate (s : State) (cls : EventClass) (words : List W32) : (raise s cls words).pwr.pstate = s.pwr.pstate := (raise_kept s cls words).pstate

@[simp] theorem raiseFor_fuses (s : State) (cls : EventClass) (words : List W32) (r : JobRef) : (raiseFor s cls words r).fuses = s.fuses := (raiseFor_kept s cls words r).fuses
@[simp] theorem raiseFor_grid (s : State) (cls : EventClass) (words : List W32) (r : JobRef) : (raiseFor s cls words r).grid = s.grid := (raiseFor_kept s cls words r).grid
theorem raiseFor_lant (s : State) (cls : EventClass) (words : List W32) (r : JobRef) (p : Phys) : ∃ g, lant (raiseFor s cls words r) p = { lant s p with gated := g } := (raiseFor_kept s cls words r).lant p
@[simp] theorem raiseFor_map (s : State) (cls : EventClass) (words : List W32) (r : JobRef) : (raiseFor s cls words r).map = s.map := (raiseFor_kept s cls words r).map
@[simp] theorem raiseFor_mapRetired (s : State) (cls : EventClass) (words : List W32) (r : JobRef) : (raiseFor s cls words r).mapRetired = s.mapRetired := (raiseFor_kept s cls words r).mapRetired
@[simp] theorem raiseFor_mapSet (s : State) (cls : EventClass) (words : List W32) (r : JobRef) : (raiseFor s cls words r).mapSet = s.mapSet := (raiseFor_kept s cls words r).mapSet
@[simp] theorem raiseFor_mem_cistern (s : State) (cls : EventClass) (words : List W32) (r : JobRef) : (raiseFor s cls words r).mem.cistern = s.mem.cistern := (raiseFor_kept s cls words r).cistern
@[simp] theorem raiseFor_mem_groups (s : State) (cls : EventClass) (words : List W32) (r : JobRef) : (raiseFor s cls words r).mem.groups = s.mem.groups := (raiseFor_kept s cls words r).groups
@[simp] theorem raiseFor_mem_compat (s : State) (cls : EventClass) (words : List W32) (r : JobRef) : (raiseFor s cls words r).mem.compat = s.mem.compat := (raiseFor_kept s cls words r).compat
@[simp] theorem raiseFor_mem_poolReg (s : State) (cls : EventClass) (words : List W32) (r : JobRef) : (raiseFor s cls words r).mem.poolReg = s.mem.poolReg := (raiseFor_kept s cls words r).poolReg
@[simp] theorem raiseFor_mem_poolPend (s : State) (cls : EventClass) (words : List W32) (r : JobRef) : (raiseFor s cls words r).mem.poolPend = s.mem.poolPend := (raiseFor_kept s cls words r).poolPend
@[simp] theorem raiseFor_mem_memWin (s : State) (cls : EventClass) (words : List W32) (r : JobRef) : (raiseFor s cls words r).mem.memWin = s.mem.memWin := (raiseFor_kept s cls words r).memWin
@[simp] theorem raiseFor_mem_present (s : State) (cls : EventClass) (words : List W32) (r : JobRef) : (raiseFor s cls words r).mem.present = s.mem.present := (raiseFor_kept s cls words r).present
@[simp] theorem raiseFor_mem_ddrFail (s : State) (cls : EventClass) (words : List W32) (r : JobRef) : (raiseFor s cls words r).mem.ddrFail = s.mem.ddrFail := (raiseFor_kept s cls words r).ddrFail
@[simp] theorem raiseFor_mem_d2dFail (s : State) (cls : EventClass) (words : List W32) (r : JobRef) : (raiseFor s cls words r).mem.d2dFail = s.mem.d2dFail := (raiseFor_kept s cls words r).d2dFail
@[simp] theorem raiseFor_mem_hostWin (s : State) (cls : EventClass) (words : List W32) (r : JobRef) : (raiseFor s cls words r).mem.hostWin = s.mem.hostWin := (raiseFor_kept s cls words r).hostWin
@[simp] theorem raiseFor_mem_dataRate (s : State) (cls : EventClass) (words : List W32) (r : JobRef) : (raiseFor s cls words r).mem.dataRate = s.mem.dataRate := (raiseFor_kept s cls words r).dataRate
@[simp] theorem raiseFor_mem_capacity (s : State) (cls : EventClass) (words : List W32) (r : JobRef) : (raiseFor s cls words r).mem.capacity = s.mem.capacity := (raiseFor_kept s cls words r).capacity
@[simp] theorem raiseFor_mem_density (s : State) (cls : EventClass) (words : List W32) (r : JobRef) : (raiseFor s cls words r).mem.density = s.mem.density := (raiseFor_kept s cls words r).density
@[simp] theorem raiseFor_mem_dma (s : State) (cls : EventClass) (words : List W32) (r : JobRef) : (raiseFor s cls words r).mem.dma = s.mem.dma := (raiseFor_kept s cls words r).dma
@[simp] theorem raiseFor_mem_flights (s : State) (cls : EventClass) (words : List W32) (r : JobRef) : (raiseFor s cls words r).mem.flights = s.mem.flights := (raiseFor_kept s cls words r).flights
@[simp] theorem raiseFor_mem_nextId (s : State) (cls : EventClass) (words : List W32) (r : JobRef) : (raiseFor s cls words r).mem.nextId = s.mem.nextId := (raiseFor_kept s cls words r).nextId
@[simp] theorem raiseFor_mem_dramKey (s : State) (cls : EventClass) (words : List W32) (r : JobRef) : (raiseFor s cls words r).mem.dramKey = s.mem.dramKey := (raiseFor_kept s cls words r).dramKey
@[simp] theorem raiseFor_mem_recent (s : State) (cls : EventClass) (words : List W32) (r : JobRef) : (raiseFor s cls words r).mem.recent = s.mem.recent := (raiseFor_kept s cls words r).recent
@[simp] theorem raiseFor_mem_backing (s : State) (cls : EventClass) (words : List W32) (r : JobRef) : (raiseFor s cls words r).mem.backing = s.mem.backing := (raiseFor_kept s cls words r).backing
@[simp] theorem raiseFor_mem_hubIn (s : State) (cls : EventClass) (words : List W32) (r : JobRef) : (raiseFor s cls words r).mem.hubIn = s.mem.hubIn := (raiseFor_kept s cls words r).hubIn
@[simp] theorem raiseFor_mem_hubSave (s : State) (cls : EventClass) (words : List W32) (r : JobRef) : (raiseFor s cls words r).mem.hubSave = s.mem.hubSave := (raiseFor_kept s cls words r).hubSave
@[simp] theorem raiseFor_world (s : State) (cls : EventClass) (words : List W32) (r : JobRef) : (raiseFor s cls words r).world = s.world := (raiseFor_kept s cls words r).world
@[simp] theorem raiseFor_sluice (s : State) (cls : EventClass) (words : List W32) (r : JobRef) : (raiseFor s cls words r).sluice = s.sluice := (raiseFor_kept s cls words r).sluice
@[simp] theorem raiseFor_descs (s : State) (cls : EventClass) (words : List W32) (r : JobRef) : (raiseFor s cls words r).descs = s.descs := (raiseFor_kept s cls words r).descs
@[simp] theorem raiseFor_motion (s : State) (cls : EventClass) (words : List W32) (r : JobRef) : (raiseFor s cls words r).motion = s.motion := (raiseFor_kept s cls words r).motion
@[simp] theorem raiseFor_spout (s : State) (cls : EventClass) (words : List W32) (r : JobRef) : (raiseFor s cls words r).spout = s.spout := (raiseFor_kept s cls words r).spout
@[simp] theorem raiseFor_sec (s : State) (cls : EventClass) (words : List W32) (r : JobRef) : (raiseFor s cls words r).sec = s.sec := (raiseFor_kept s cls words r).sec
@[simp] theorem raiseFor_mgmt (s : State) (cls : EventClass) (words : List W32) (r : JobRef) : (raiseFor s cls words r).mgmt = s.mgmt := (raiseFor_kept s cls words r).mgmt
@[simp] theorem raiseFor_free (s : State) (cls : EventClass) (words : List W32) (r : JobRef) : (raiseFor s cls words r).free = s.free := (raiseFor_kept s cls words r).free
@[simp] theorem raiseFor_pending (s : State) (cls : EventClass) (words : List W32) (r : JobRef) : (raiseFor s cls words r).pending = s.pending := (raiseFor_kept s cls words r).pending
@[simp] theorem raiseFor_pwr_hub (s : State) (cls : EventClass) (words : List W32) (r : JobRef) : (raiseFor s cls words r).pwr.hub = s.pwr.hub := (raiseFor_kept s cls words r).hub
@[simp] theorem raiseFor_pwr_ready (s : State) (cls : EventClass) (words : List W32) (r : JobRef) : (raiseFor s cls words r).pwr.ready = s.pwr.ready := (raiseFor_kept s cls words r).ready
@[simp] theorem raiseFor_pwr_ticks (s : State) (cls : EventClass) (words : List W32) (r : JobRef) : (raiseFor s cls words r).pwr.ticks = s.pwr.ticks := (raiseFor_kept s cls words r).ticks
@[simp] theorem raiseFor_pwr_pstate (s : State) (cls : EventClass) (words : List W32) (r : JobRef) : (raiseFor s cls words r).pwr.pstate = s.pwr.pstate := (raiseFor_kept s cls words r).pstate

@[simp] theorem emberEvent_fuses (s : State) (cls : EventClass) (words : List W32) (spec : Bool) : (emberEvent s cls words spec).fuses = s.fuses := (emberEvent_kept s cls words spec).fuses
@[simp] theorem emberEvent_grid (s : State) (cls : EventClass) (words : List W32) (spec : Bool) : (emberEvent s cls words spec).grid = s.grid := (emberEvent_kept s cls words spec).grid
@[simp] theorem emberEvent_lanterns (s : State) (cls : EventClass) (words : List W32) (spec : Bool) : (emberEvent s cls words spec).lanterns = s.lanterns := by
  obtain ⟨e, h⟩ := emberEvent_eq s cls words spec; rw [h]
@[simp] theorem emberEvent_map (s : State) (cls : EventClass) (words : List W32) (spec : Bool) : (emberEvent s cls words spec).map = s.map := (emberEvent_kept s cls words spec).map
@[simp] theorem emberEvent_mapRetired (s : State) (cls : EventClass) (words : List W32) (spec : Bool) : (emberEvent s cls words spec).mapRetired = s.mapRetired := (emberEvent_kept s cls words spec).mapRetired
@[simp] theorem emberEvent_mapSet (s : State) (cls : EventClass) (words : List W32) (spec : Bool) : (emberEvent s cls words spec).mapSet = s.mapSet := (emberEvent_kept s cls words spec).mapSet
@[simp] theorem emberEvent_mem (s : State) (cls : EventClass) (words : List W32) (spec : Bool) : (emberEvent s cls words spec).mem = s.mem := by
  obtain ⟨e, h⟩ := emberEvent_eq s cls words spec; rw [h]
@[simp] theorem emberEvent_world (s : State) (cls : EventClass) (words : List W32) (spec : Bool) : (emberEvent s cls words spec).world = s.world := (emberEvent_kept s cls words spec).world
@[simp] theorem emberEvent_sluice (s : State) (cls : EventClass) (words : List W32) (spec : Bool) : (emberEvent s cls words spec).sluice = s.sluice := (emberEvent_kept s cls words spec).sluice
@[simp] theorem emberEvent_descs (s : State) (cls : EventClass) (words : List W32) (spec : Bool) : (emberEvent s cls words spec).descs = s.descs := (emberEvent_kept s cls words spec).descs
@[simp] theorem emberEvent_motion (s : State) (cls : EventClass) (words : List W32) (spec : Bool) : (emberEvent s cls words spec).motion = s.motion := (emberEvent_kept s cls words spec).motion
@[simp] theorem emberEvent_spout (s : State) (cls : EventClass) (words : List W32) (spec : Bool) : (emberEvent s cls words spec).spout = s.spout := (emberEvent_kept s cls words spec).spout
@[simp] theorem emberEvent_sec (s : State) (cls : EventClass) (words : List W32) (spec : Bool) : (emberEvent s cls words spec).sec = s.sec := (emberEvent_kept s cls words spec).sec
@[simp] theorem emberEvent_mgmt (s : State) (cls : EventClass) (words : List W32) (spec : Bool) : (emberEvent s cls words spec).mgmt = s.mgmt := (emberEvent_kept s cls words spec).mgmt
@[simp] theorem emberEvent_free (s : State) (cls : EventClass) (words : List W32) (spec : Bool) : (emberEvent s cls words spec).free = s.free := (emberEvent_kept s cls words spec).free
@[simp] theorem emberEvent_pending (s : State) (cls : EventClass) (words : List W32) (spec : Bool) : (emberEvent s cls words spec).pending = s.pending := (emberEvent_kept s cls words spec).pending
@[simp] theorem emberEvent_pwr_hub (s : State) (cls : EventClass) (words : List W32) (spec : Bool) : (emberEvent s cls words spec).pwr.hub = s.pwr.hub := (emberEvent_kept s cls words spec).hub
@[simp] theorem emberEvent_pwr_ready (s : State) (cls : EventClass) (words : List W32) (spec : Bool) : (emberEvent s cls words spec).pwr.ready = s.pwr.ready := (emberEvent_kept s cls words spec).ready
@[simp] theorem emberEvent_pwr_ticks (s : State) (cls : EventClass) (words : List W32) (spec : Bool) : (emberEvent s cls words spec).pwr.ticks = s.pwr.ticks := (emberEvent_kept s cls words spec).ticks
@[simp] theorem emberEvent_pwr_pstate (s : State) (cls : EventClass) (words : List W32) (spec : Bool) : (emberEvent s cls words spec).pwr.pstate = s.pwr.pstate := (emberEvent_kept s cls words spec).pstate

@[simp] theorem emberFlushStart_fuses (s : State) : (emberFlushStart s).fuses = s.fuses := (emberFlushStart_kept s).fuses
@[simp] theorem emberFlushStart_grid (s : State) : (emberFlushStart s).grid = s.grid := (emberFlushStart_kept s).grid
@[simp] theorem emberFlushStart_lanterns (s : State) : (emberFlushStart s).lanterns = s.lanterns := by
  obtain ⟨e, h⟩ := emberFlushStart_eq s; rw [h]
@[simp] theorem emberFlushStart_map (s : State) : (emberFlushStart s).map = s.map := (emberFlushStart_kept s).map
@[simp] theorem emberFlushStart_mapRetired (s : State) : (emberFlushStart s).mapRetired = s.mapRetired := (emberFlushStart_kept s).mapRetired
@[simp] theorem emberFlushStart_mapSet (s : State) : (emberFlushStart s).mapSet = s.mapSet := (emberFlushStart_kept s).mapSet
@[simp] theorem emberFlushStart_mem (s : State) : (emberFlushStart s).mem = s.mem := by
  obtain ⟨e, h⟩ := emberFlushStart_eq s; rw [h]
@[simp] theorem emberFlushStart_world (s : State) : (emberFlushStart s).world = s.world := (emberFlushStart_kept s).world
@[simp] theorem emberFlushStart_sluice (s : State) : (emberFlushStart s).sluice = s.sluice := (emberFlushStart_kept s).sluice
@[simp] theorem emberFlushStart_descs (s : State) : (emberFlushStart s).descs = s.descs := (emberFlushStart_kept s).descs
@[simp] theorem emberFlushStart_motion (s : State) : (emberFlushStart s).motion = s.motion := (emberFlushStart_kept s).motion
@[simp] theorem emberFlushStart_spout (s : State) : (emberFlushStart s).spout = s.spout := (emberFlushStart_kept s).spout
@[simp] theorem emberFlushStart_sec (s : State) : (emberFlushStart s).sec = s.sec := (emberFlushStart_kept s).sec
@[simp] theorem emberFlushStart_mgmt (s : State) : (emberFlushStart s).mgmt = s.mgmt := (emberFlushStart_kept s).mgmt
@[simp] theorem emberFlushStart_free (s : State) : (emberFlushStart s).free = s.free := (emberFlushStart_kept s).free
@[simp] theorem emberFlushStart_pending (s : State) : (emberFlushStart s).pending = s.pending := (emberFlushStart_kept s).pending
@[simp] theorem emberFlushStart_pwr_hub (s : State) : (emberFlushStart s).pwr.hub = s.pwr.hub := (emberFlushStart_kept s).hub
@[simp] theorem emberFlushStart_pwr_ready (s : State) : (emberFlushStart s).pwr.ready = s.pwr.ready := (emberFlushStart_kept s).ready
@[simp] theorem emberFlushStart_pwr_ticks (s : State) : (emberFlushStart s).pwr.ticks = s.pwr.ticks := (emberFlushStart_kept s).ticks
@[simp] theorem emberFlushStart_pwr_pstate (s : State) : (emberFlushStart s).pwr.pstate = s.pwr.pstate := (emberFlushStart_kept s).pstate

@[simp] theorem enterHalt_fuses (s : State) : (enterHalt s).fuses = s.fuses := (enterHalt_kept s).fuses
@[simp] theorem enterHalt_grid (s : State) : (enterHalt s).grid = s.grid := (enterHalt_kept s).grid
theorem enterHalt_lant (s : State) (p : Phys) : ∃ g, lant (enterHalt s) p = { lant s p with gated := g } := (enterHalt_kept s).lant p
@[simp] theorem enterHalt_map (s : State) : (enterHalt s).map = s.map := (enterHalt_kept s).map
@[simp] theorem enterHalt_mapRetired (s : State) : (enterHalt s).mapRetired = s.mapRetired := (enterHalt_kept s).mapRetired
@[simp] theorem enterHalt_mapSet (s : State) : (enterHalt s).mapSet = s.mapSet := (enterHalt_kept s).mapSet
@[simp] theorem enterHalt_mem_cistern (s : State) : (enterHalt s).mem.cistern = s.mem.cistern := (enterHalt_kept s).cistern
@[simp] theorem enterHalt_mem_groups (s : State) : (enterHalt s).mem.groups = s.mem.groups := (enterHalt_kept s).groups
@[simp] theorem enterHalt_mem_compat (s : State) : (enterHalt s).mem.compat = s.mem.compat := (enterHalt_kept s).compat
@[simp] theorem enterHalt_mem_poolReg (s : State) : (enterHalt s).mem.poolReg = s.mem.poolReg := (enterHalt_kept s).poolReg
@[simp] theorem enterHalt_mem_poolPend (s : State) : (enterHalt s).mem.poolPend = s.mem.poolPend := (enterHalt_kept s).poolPend
@[simp] theorem enterHalt_mem_memWin (s : State) : (enterHalt s).mem.memWin = s.mem.memWin := (enterHalt_kept s).memWin
@[simp] theorem enterHalt_mem_present (s : State) : (enterHalt s).mem.present = s.mem.present := (enterHalt_kept s).present
@[simp] theorem enterHalt_mem_ddrFail (s : State) : (enterHalt s).mem.ddrFail = s.mem.ddrFail := (enterHalt_kept s).ddrFail
@[simp] theorem enterHalt_mem_d2dFail (s : State) : (enterHalt s).mem.d2dFail = s.mem.d2dFail := (enterHalt_kept s).d2dFail
@[simp] theorem enterHalt_mem_hostWin (s : State) : (enterHalt s).mem.hostWin = s.mem.hostWin := (enterHalt_kept s).hostWin
@[simp] theorem enterHalt_mem_dataRate (s : State) : (enterHalt s).mem.dataRate = s.mem.dataRate := (enterHalt_kept s).dataRate
@[simp] theorem enterHalt_mem_capacity (s : State) : (enterHalt s).mem.capacity = s.mem.capacity := (enterHalt_kept s).capacity
@[simp] theorem enterHalt_mem_density (s : State) : (enterHalt s).mem.density = s.mem.density := (enterHalt_kept s).density
@[simp] theorem enterHalt_mem_dma (s : State) : (enterHalt s).mem.dma = s.mem.dma := (enterHalt_kept s).dma
@[simp] theorem enterHalt_mem_flights (s : State) : (enterHalt s).mem.flights = s.mem.flights := (enterHalt_kept s).flights
@[simp] theorem enterHalt_mem_nextId (s : State) : (enterHalt s).mem.nextId = s.mem.nextId := (enterHalt_kept s).nextId
@[simp] theorem enterHalt_mem_dramKey (s : State) : (enterHalt s).mem.dramKey = s.mem.dramKey := (enterHalt_kept s).dramKey
@[simp] theorem enterHalt_mem_recent (s : State) : (enterHalt s).mem.recent = s.mem.recent := (enterHalt_kept s).recent
@[simp] theorem enterHalt_mem_backing (s : State) : (enterHalt s).mem.backing = s.mem.backing := (enterHalt_kept s).backing
@[simp] theorem enterHalt_mem_hubIn (s : State) : (enterHalt s).mem.hubIn = s.mem.hubIn := (enterHalt_kept s).hubIn
@[simp] theorem enterHalt_mem_hubSave (s : State) : (enterHalt s).mem.hubSave = s.mem.hubSave := (enterHalt_kept s).hubSave
@[simp] theorem enterHalt_world (s : State) : (enterHalt s).world = s.world := (enterHalt_kept s).world
@[simp] theorem enterHalt_sluice (s : State) : (enterHalt s).sluice = s.sluice := (enterHalt_kept s).sluice
@[simp] theorem enterHalt_descs (s : State) : (enterHalt s).descs = s.descs := (enterHalt_kept s).descs
@[simp] theorem enterHalt_motion (s : State) : (enterHalt s).motion = s.motion := (enterHalt_kept s).motion
@[simp] theorem enterHalt_spout (s : State) : (enterHalt s).spout = s.spout := (enterHalt_kept s).spout
@[simp] theorem enterHalt_sec (s : State) : (enterHalt s).sec = s.sec := (enterHalt_kept s).sec
@[simp] theorem enterHalt_mgmt (s : State) : (enterHalt s).mgmt = s.mgmt := (enterHalt_kept s).mgmt
@[simp] theorem enterHalt_free (s : State) : (enterHalt s).free = s.free := (enterHalt_kept s).free
@[simp] theorem enterHalt_pending (s : State) : (enterHalt s).pending = s.pending := (enterHalt_kept s).pending
@[simp] theorem enterHalt_pwr_hub (s : State) : (enterHalt s).pwr.hub = s.pwr.hub := (enterHalt_kept s).hub
@[simp] theorem enterHalt_pwr_ready (s : State) : (enterHalt s).pwr.ready = s.pwr.ready := (enterHalt_kept s).ready
@[simp] theorem enterHalt_pwr_ticks (s : State) : (enterHalt s).pwr.ticks = s.pwr.ticks := (enterHalt_kept s).ticks
@[simp] theorem enterHalt_pwr_pstate (s : State) : (enterHalt s).pwr.pstate = s.pwr.pstate := (enterHalt_kept s).pstate

@[simp] theorem beginRelight_fuses (s : State) : (beginRelight s).fuses = s.fuses := (beginRelight_kept s).fuses
@[simp] theorem beginRelight_grid (s : State) : (beginRelight s).grid = s.grid := (beginRelight_kept s).grid
theorem beginRelight_lant (s : State) (p : Phys) : ∃ g, lant (beginRelight s) p = { lant s p with gated := g } := (beginRelight_kept s).lant p
@[simp] theorem beginRelight_map (s : State) : (beginRelight s).map = s.map := (beginRelight_kept s).map
@[simp] theorem beginRelight_mapRetired (s : State) : (beginRelight s).mapRetired = s.mapRetired := (beginRelight_kept s).mapRetired
@[simp] theorem beginRelight_mapSet (s : State) : (beginRelight s).mapSet = s.mapSet := (beginRelight_kept s).mapSet
@[simp] theorem beginRelight_mem_cistern (s : State) : (beginRelight s).mem.cistern = s.mem.cistern := (beginRelight_kept s).cistern
@[simp] theorem beginRelight_mem_groups (s : State) : (beginRelight s).mem.groups = s.mem.groups := (beginRelight_kept s).groups
@[simp] theorem beginRelight_mem_compat (s : State) : (beginRelight s).mem.compat = s.mem.compat := (beginRelight_kept s).compat
@[simp] theorem beginRelight_mem_poolReg (s : State) : (beginRelight s).mem.poolReg = s.mem.poolReg := (beginRelight_kept s).poolReg
@[simp] theorem beginRelight_mem_poolPend (s : State) : (beginRelight s).mem.poolPend = s.mem.poolPend := (beginRelight_kept s).poolPend
@[simp] theorem beginRelight_mem_memWin (s : State) : (beginRelight s).mem.memWin = s.mem.memWin := (beginRelight_kept s).memWin
@[simp] theorem beginRelight_mem_present (s : State) : (beginRelight s).mem.present = s.mem.present := (beginRelight_kept s).present
@[simp] theorem beginRelight_mem_ddrFail (s : State) : (beginRelight s).mem.ddrFail = s.mem.ddrFail := (beginRelight_kept s).ddrFail
@[simp] theorem beginRelight_mem_d2dFail (s : State) : (beginRelight s).mem.d2dFail = s.mem.d2dFail := (beginRelight_kept s).d2dFail
@[simp] theorem beginRelight_mem_hostWin (s : State) : (beginRelight s).mem.hostWin = s.mem.hostWin := (beginRelight_kept s).hostWin
@[simp] theorem beginRelight_mem_dataRate (s : State) : (beginRelight s).mem.dataRate = s.mem.dataRate := (beginRelight_kept s).dataRate
@[simp] theorem beginRelight_mem_capacity (s : State) : (beginRelight s).mem.capacity = s.mem.capacity := (beginRelight_kept s).capacity
@[simp] theorem beginRelight_mem_density (s : State) : (beginRelight s).mem.density = s.mem.density := (beginRelight_kept s).density
@[simp] theorem beginRelight_mem_dma (s : State) : (beginRelight s).mem.dma = s.mem.dma := (beginRelight_kept s).dma
@[simp] theorem beginRelight_mem_flights (s : State) : (beginRelight s).mem.flights = s.mem.flights := (beginRelight_kept s).flights
@[simp] theorem beginRelight_mem_nextId (s : State) : (beginRelight s).mem.nextId = s.mem.nextId := (beginRelight_kept s).nextId
@[simp] theorem beginRelight_mem_dramKey (s : State) : (beginRelight s).mem.dramKey = s.mem.dramKey := (beginRelight_kept s).dramKey
@[simp] theorem beginRelight_mem_recent (s : State) : (beginRelight s).mem.recent = s.mem.recent := (beginRelight_kept s).recent
@[simp] theorem beginRelight_mem_backing (s : State) : (beginRelight s).mem.backing = s.mem.backing := (beginRelight_kept s).backing
@[simp] theorem beginRelight_mem_hubIn (s : State) : (beginRelight s).mem.hubIn = s.mem.hubIn := (beginRelight_kept s).hubIn
@[simp] theorem beginRelight_mem_hubSave (s : State) : (beginRelight s).mem.hubSave = s.mem.hubSave := (beginRelight_kept s).hubSave
@[simp] theorem beginRelight_world (s : State) : (beginRelight s).world = s.world := (beginRelight_kept s).world
@[simp] theorem beginRelight_sluice (s : State) : (beginRelight s).sluice = s.sluice := (beginRelight_kept s).sluice
@[simp] theorem beginRelight_descs (s : State) : (beginRelight s).descs = s.descs := (beginRelight_kept s).descs
@[simp] theorem beginRelight_motion (s : State) : (beginRelight s).motion = s.motion := (beginRelight_kept s).motion
@[simp] theorem beginRelight_spout (s : State) : (beginRelight s).spout = s.spout := (beginRelight_kept s).spout
@[simp] theorem beginRelight_sec (s : State) : (beginRelight s).sec = s.sec := (beginRelight_kept s).sec
@[simp] theorem beginRelight_mgmt (s : State) : (beginRelight s).mgmt = s.mgmt := (beginRelight_kept s).mgmt
@[simp] theorem beginRelight_free (s : State) : (beginRelight s).free = s.free := (beginRelight_kept s).free
@[simp] theorem beginRelight_pending (s : State) : (beginRelight s).pending = s.pending := (beginRelight_kept s).pending
@[simp] theorem beginRelight_pwr_hub (s : State) : (beginRelight s).pwr.hub = s.pwr.hub := (beginRelight_kept s).hub
@[simp] theorem beginRelight_pwr_ready (s : State) : (beginRelight s).pwr.ready = s.pwr.ready := (beginRelight_kept s).ready
@[simp] theorem beginRelight_pwr_ticks (s : State) : (beginRelight s).pwr.ticks = s.pwr.ticks := (beginRelight_kept s).ticks
@[simp] theorem beginRelight_pwr_pstate (s : State) : (beginRelight s).pwr.pstate = s.pwr.pstate := (beginRelight_kept s).pstate

/-! ## Severity 2 and 3 -/

/-- An event of severity 2 or 3 with room in the queue writes the log and the fault handler alone. -/
theorem raiseEv_low (s : State) (cls : EventClass) (words : List W32) (spec : Bool) (h : cls.severity ≠ 1)
    (hq : s.safety.queue.length < 8) :
    ∃ e f, raiseEv s cls words spec = { s with ember := e, safety := f } ∧ f.state = s.safety.state
      ∧ f.handed = s.safety.handed ∧ f.disSlots = s.safety.disSlots ∧ f.relightAt = s.safety.relightAt
      ∧ f.disHist = s.safety.disHist := by
  obtain ⟨e, he⟩ := emberEvent_eq s cls words spec
  unfold raiseEv
  dsimp only
  split
  · exact ⟨s.ember, s.safety, rfl, rfl, rfl, rfl, rfl, rfl⟩
  · rw [he]
    unfold handlerArrive
    extract_lets x now
    split
    · unfold handleNow
      dsimp only
      rw [if_neg h]
      exact ⟨_, _, rfl, rfl, rfl, rfl, rfl, rfl⟩
    · exact ⟨_, _, rfl, rfl, rfl, rfl, rfl, rfl⟩

theorem raise_low (s : State) (cls : EventClass) (words : List W32) (h : cls.severity ≠ 1)
    (hq : s.safety.queue.length < 8) :
    ∃ e f, raise s cls words = { s with ember := e, safety := f } ∧ f.state = s.safety.state
      ∧ f.handed = s.safety.handed ∧ f.disSlots = s.safety.disSlots ∧ f.relightAt = s.safety.relightAt
      ∧ f.disHist = s.safety.disHist :=
  raiseEv_low s cls words false h hq

/-- An event of severity 2 that a job answers for, with room in the queue: the job is to fail as well. -/
theorem raiseFor_low (s : State) (cls : EventClass) (words : List W32) (r : JobRef) (h : cls.severity = 2)
    (hq : s.safety.queue.length < 8) :
    ∃ e f, raiseFor s cls words r = failJob { s with ember := e, safety := f } r cls ∧ f.state = s.safety.state
      ∧ f.handed = s.safety.handed := by
  obtain ⟨e, f, he, h1, h2, -⟩ :=
    raiseEv_low s cls words ((findJob s r).any (·.spec)) (by omega) hq
  refine ⟨e, f, ?_, h1, h2⟩
  unfold raiseFor
  simp [he, h]

end Sys2Proof.Machine
end

