-- ==== Sys2Proof/Tests/Slice0.lean ====
section
/-! SUPPORT. Tests: ill-formed terms that each check refuses, small commands with results worked out from the rules, and
for every statement a concrete state and operands that meet its hypotheses. -/

namespace Sys2Proof.Tests

open Sys2Proof Sys2Proof.Machine

-- One theorem at a time, so that the build of this file stays small.
set_option Elab.async false

/-! ## Small states -/

/-- A device in service with every lantern of a new part numbered. -/
def up : State := { State.reset with
  pwr := { Pwr.reset with
    pwrGood := true, perstN := true, perstSeen := true, hub := true, ready := true, step := 10, ticks := 1000 }
  safety := { Safety.reset with state := .service }
  map := logicalMap Fuses.reset
  grid := { Grid.reset with running := true }
  mem := { MemUnit.reset with present := 0xF, capacity := 64, hostWin := 1 }
  ember := { Ember.reset with online := true, next := 70000 } }

def joint0 : Joint := ⟨true, -100000, 100000, 100000, 100000, 100000, 1000, 50000, 50000, 1, 2⟩

def model0 : RobotModel := ⟨[joint0], [⟨[⟨0, 1, [1]⟩], 1, [1], false⟩], [default], default, 0⟩

def cam2 : CamCfg := ⟨2, 77, 0, 5, 0, none, none, 640, 480, 1, 1, 0, 0, [], ⟨0, 0, 0⟩⟩

def node0 : NodeCfg := ⟨100, .drive, 0, 1, [], 0, 0, 1, true⟩

def recipe0 : Recipe := { (default : Recipe) with
  volume := some (⟨0, 0, 0⟩, 4, 4, 4), depthMin := 1, depthMax := 2, syncTolUs := 500, setTimeoutMs := 10, wMax := 1
  wOcc := 1, inferredTtl := 1, trackGate := 10, vMaxObject := 100, windows := [⟨0, 0, 0⟩], clearMin16 := 17
  penalty16 := 17, vDynMax := 100, tMinMs := 32, tMaxMs := 33, tailT0Ms := 100, goalTol16 := 1, confirm16 := 16
  spliceUs := 250, routeN := (1, 1, 1), routeRadius := 8, routeTick := 8, routeNear16 := 17, robots := [(0, model0)]
  cameras := [cam2, { cam2 with port := 1, provId := 78 }], nodes := [node0]
  envelopePart := ⟨[]⟩, portMbps := [10000, 10000] }

def ref0 : JobRef := ⟨0, 0⟩

def slot0 : SlotEntry := ⟨0, 0, true, true, true, 0, 0, 0, 0⟩

/-- A context whose parameters lie within their limits. -/
def ctx0 : CtxCfg := { blankCtx with
  beacon := ⟨1, 0, 0, 0, 0, 0, 0⟩, sampP := 1
  cascade := { (default : CascadeCfg) with
    capGn := 1, capIk := 1, capTs := 1, tauShift := 8, epsGn := 8, epsTs := 8, epsIk := 1, wSm := 1, muShift := 4
    lambdaSh := 2, stall := 1 } }

/-- The control stream of the first slot: at cycle 700 one command of each kind. -/
def stream0 (op : CtrlOp) : List CtrlCmd := [⟨700, op⟩]

/-- A publishing image of two OUTPUT slots on one lantern. -/
def image0 : PlanImage := { (default : PlanImage) with
  lanternSet := 1, slotCount := 2, slotLen := 100, reqActive := 1, memDies := 0xF, flags := 2, stageMaps := [[8]]
  slots := [slot0, slot0], body := { (default : PlanBody) with contexts := [ctx0, ctx0] } }

def run0 : DescBody := .planRun 7 0 0 0 0 0 0 0 0 512

def entry (st : Stage) (b : DescBody) (index : W32 := 0) : DescEntry :=
  { ref := ⟨0, index⟩, desc := ⟨false, false, false, false, 0x55, b⟩, stage := st, matched := 0, begun := false, ever := false
    replayed := false, cancelled := false, verified := false, ctx := none, resume := none, notBefore := none }

/-- With an image, a recipe, and ring 0 served. -/
def up1 : State :=
  setRing { up with sluice := { up.sluice with images := [(7, image0)], recipe := some recipe0 } } 0
    { Ring.reset with served := true }

def with1 (s : State) (l : List DescEntry) : State := { s with descs := l }

def job0 : Job := { newJob up1 (entry .running run0) image0 false with
  start := [(0, 0, 0)], spliceNs := 10 ^ 9, sigma := [] }

/-- A job runs on logical lantern 0. -/
def busyWith (j : Job) : State :=
  setLant { up1 with jobs := [j], descs := [entry .running run0] } 0 { Lantern.reset with job := some ref0 }

def busy : State := busyWith job0

/-- The owner key of a powered device is enrolled. -/
def owned : State := { up1 with fuses := { up1.fuses with owner0 := ⟨77, true, true⟩ } }

def ring1 : Ring :=
  { Ring.reset with state := .running, enable := true, served := true, owner := 9, accepted := 1, readTo := 1 }

def ringed (g : Ring) : State :=
  setRing { up1 with rings := { up1.rings with shBase := 0x10000, header := [1, 2] } } 0 g

def asleep : State :=
  setLant { up with mem := { up.mem with groups := Vector.replicate 48 .retained } } 0
    { Lantern.reset with retain := .retained }

/-! ## Well-formedness: a term that each check refuses -/

theorem test_refuses_goal_record_size : Instr.wellFormed (.goalSet 0 (List.replicate 63 0)) = false := by decide

theorem test_refuses_part_of_a_seed : Instr.wellFormed (.seedsLoad 0 [0]) = false := by decide

theorem test_refuses_no_seed : Instr.wellFormed (.seedsLoad 0 []) = false := by decide

theorem test_refuses_doorbell_count : Instr.wellFormed (.poll [] []) = false := by decide

theorem test_refuses_descriptor_size :
    Instr.wellFormed (.poll (List.replicate 64 0) [⟨0, [1]⟩]) = false := by decide

theorem test_refuses_replay_size : Instr.wellFormed (.ringEnable 0 1 [⟨0, [1]⟩]) = false := by decide

theorem test_refuses_lantern_late_twice : Instr.wellFormed (.slotBoundary [3, 3]) = false := by decide

theorem test_refuses_instruction_of_no_cycle : Instr.wellFormed (.wickInstruction 0 0 [] []) = false := by decide

/-- One ALU and one shifter of a lane may work in a cycle, two lanes at once, an ALU twice may not. -/
theorem test_refuses_unit_named_twice :
    Instr.wellFormed (.wickInstruction 0 1 [(5, .alu .add 0 1 2), (5, .alu .sub 0 1 2)] []) = false
    ∧ Instr.wellFormed (.wickInstruction 0 1 [(5, .alu .add 0 1 2), (5, .shift 0 1), (5, .shift 1 1)] []) = true := by
  decide

theorem test_refuses_motion_frame_size :
    Instr.wellFormed (.helloReceived (List.replicate 23 0) true) = false
    ∧ ∀ bs : List Byte, bs.length = 1501 → Instr.wellFormed (.jointStateReceived bs true) = false := by
  refine ⟨by decide, fun bs h => ?_⟩
  show (decide (24 ≤ bs.length) && decide (bs.length ≤ 1500)) = false
  rw [h]
  rfl

theorem test_refuses_misaligned_debug_access : Instr.wellFormed (.debugAccess (.basin 0 4) false 0) = false := by decide

theorem test_refuses_member_named_twice :
    Instr.wellFormed (.groupMapIssue ⟨1, [5, 5], [], []⟩) = false
    ∧ Instr.wellFormed (.groupMapReceived ⟨1, [5, 5], [], []⟩ true) = false := by decide

theorem test_refuses_message_size : Instr.wellFormed (.spoutSend (.n 0) 0 (some [1])) = false := by decide

theorem test_refuses_load_above_100 : Instr.wellFormed (.glowLoadMeasure 101) = false := by decide

theorem test_refuses_write_past_window : Instr.wellFormed (.glowLoadWinWrite 0xFFFF [0, 0]) = false := by decide

/-! ## Commands, with results worked out from the rules -/

/-- One field of what a command leaves. -/
def after {α : Type} (c : Instr) (s : State) (f : State → α) : Option α :=
  match exec c s with
  | .next t => some (f t)
  | .fault _ => none
  | .refused _ => none

/-- R36: ties go to the even quotient, at both signs; a left shift saturates at the bound it passes. -/
theorem test_shift_rounds_ties_to_even :
    rheShift 5 1 = (2, false) ∧ rheShift 7 1 = (4, false) ∧ rheShift (-5) 1 = (-2, false) ∧ rheShift (-6) 2 = (-2, false)
    ∧ rheShift (2 ^ 46) (-1) = (2 ^ 47 - 1, true) ∧ rheShift (-(2 ^ 46)) (-1) = (-(2 ^ 47), false) := by decide

/-- R53: saturating addition at both ends; SWAP64 returns the old word. -/
theorem test_atomics :
    atomicOn .addSat32 0x7FFFFFFF 1 = (0x7FFFFFFF, 0x7FFFFFFF)
    ∧ atomicOn .addSat32 0x80000000 0xFFFFFFFF = (0x80000000, 0x80000000)
    ∧ atomicOn .add32 0x1_FFFFFFFF 2 = (0x1_00000001, 0xFFFFFFFF)
    ∧ atomicOn .swap64 5 9 = (9, 5) := by decide

/-- R369: a free lock reads 0 and is then held; a held one reads BUSY with its owner. -/
theorem test_lock_read_acquires :
    after (.lockRead 3 63) up (fun t => (t.spout.locks.get 63, t.host.busRead)) = some (some 3, 0)
    ∧ after (.lockRead 4 63) { up with spout := { up.spout with locks := up.spout.locks.set 63 (some 3) } }
        (fun t => (t.spout.locks.get 63, t.host.busRead)) = some (some 3, 0x8000_0003) := by decide

/-- R370: another requester's write of 0 frees nothing. -/
theorem test_lock_write_of_another :
    after (.lockWrite 4 63 0) { up with spout := { up.spout with locks := up.spout.locks.set 63 (some 3) } }
      (fun t => t.spout.locks.get 63) = some (some 3) := by decide

/-- R80: `PLAN_GRID` takes periods 25 to 800 and is read back before it is in force. -/
theorem test_plan_grid_bounds :
    after (.planGridWrite 24) up (fun t => (t.grid.regPeriod, t.grid.period)) = some (100, 100)
    ∧ after (.planGridWrite 25) up (fun t => (t.grid.regPeriod, t.grid.period)) = some (25, 100)
    ∧ after (.planGridWrite 801) up (fun t => t.grid.regPeriod) = some 100 := by decide

/-- R286: a write before the hand-off does not release the stop. -/
theorem test_stop_release_before_hand_off : after .stopRelease up (fun t => t.pwr.stop) = some true := by decide

/-- R356: a message posted while FULL is 1 sets BLOCKED and leaves the buffer. -/
theorem test_post_while_full :
    after (.spoutSend (.n 2) 0 (some [1])) (chanSet up (.n 2) { SChan.reset with full := true })
      (fun t => ((chanGet t (.n 2)).blocked, (chanGet t (.n 2)).buf.get 0)) = some (true, 0) := by decide

/-- R497: 110 °C is the trip level of a part without suffix X; the device is then in HALT with STOP_REQ_N asserted. -/
theorem test_temperature_trip :
    after (.tempRead [(3, 110)]) { up with pwr := { up.pwr with stop := false } }
      (fun t => (t.safety.state, t.pwr.stop)) = some (.halt, true) := by decide

/-- R375: a certificate of another owner takes the port to state 4. -/
theorem test_foreign_certificate :
    after (.klinkCertReceived 1 true 78 9) (kSet owned 1 { KPort.reset with state := 2 })
      (fun t => (kGet t 1).state) = some 4 := by decide +kernel

/-- R380: of two paths of equal length, the one over the lower next-hop group number. -/
theorem test_route_takes_lower_next_hop :
    let ring4 : GroupMap := ⟨1, [1, 2, 3, 4], [[some 3, some 1, none, none], [some 0, some 2, none, none],
      [some 1, some 3, none, none], [some 2, some 0, none, none]], []⟩
    routePort ring4 0 2 = some (1, 1) ∧ routePort ring4 0 3 = some (3, 0) ∧ routePort ring4 0 0 = none := by decide

/-- R10: the read of an RC field clears it and returns what it held. -/
theorem test_rc_read :
    after (.rcFieldRead .bar0 0x50014 .b4 0) { up with motion := { up.motion with tagFail := 9 } }
      (fun t => (t.motion.tagFail, bits t.host.busRead.toNat 15 8)) = some (0, 9) := by decide

/-- R10: an event counted in the cycle of the read is not in what the read returns and stands alone afterwards. -/
theorem test_rc_read_with_event :
    after (.rcFieldRead .bar0 0x50014 .b4 0x100) { up with motion := { up.motion with tagFail := 9 } }
      (fun t => (t.motion.tagFail, bits t.host.busRead.toNat 15 8)) = some (1, 9) := by decide

/-- R499: a write of 1 to a W1C bit clears that bit alone. -/
theorem test_w1c_write :
    after (.registerWrite .bar0 0x0008 .b4 1 0) { up with host := { up.host with collide := true, ur := true } }
      (fun t => (t.host.collide, t.host.ur)) = some (false, true) := by decide

/-- R9: a bit that the device sets in the cycle of the write reads 1 afterwards. -/
theorem test_w1c_write_with_event :
    after (.registerWrite .bar0 0x0008 .b4 1 1) { up with host := { up.host with collide := true } }
      (fun t => t.host.collide) = some true := by decide

/-- R308: the third start of a relight within 10 s is HALT. -/
theorem test_third_relight_is_halt :
    after (.faultEvent .fabricEccFatal 0 [] none) { up with safety := { up.safety with relightAt := [990, 900] } }
      (fun t => t.safety.state) = some .halt := by decide

/-- R21: an ALU addition wraps each of four registers. -/
theorem test_alu_add_wraps :
    after (.wickInstruction 0 1 [(2, .alu .add 8 0 4)] [])
      (setLant busy 0 { lant busy 0 with wicks := [(2, ⟨Vector.replicate 8 0, [(0, 0xFFFFFFFF), (4, 2), (7, 3)], 0⟩)] })
      (fun t => (regGet (wickGet (lant t 0) 2) 8, regGet (wickGet (lant t 0) 2) 9, regGet (wickGet (lant t 0) 2) 11))
      = some (1, 0, 3) := by decide +kernel

/-- The opcode table gives no bits. -/
theorem test_no_word_is_a_command : decodeTableWord 32 0 = none := by decide

/-! ## For every statement, states and operands that meet its hypotheses -/

theorem test_meets_StepRunsFrontCommand :
    ({ up with pending := [.pilotTimeRead, .stopRelease] } : State).pending = .pilotTimeRead :: [.stopRelease] := rfl

theorem test_meets_IdleStepIsOneTick :
    (State.reset.pending = [] ∧ State.reset.pwr.pwrGood = false) ∧ up.pending = [] ∧ up.pwr.pwrGood = true := by decide

/-- PERIOD at both ends and next to them, a BASE pair in both cases, an access of the wrong alignment. -/
theorem test_meets_RegisterWrites :
    Live up ∧ (25 ≤ bits (25 : W32).toNat 9 0 ∧ bits (25 : W32).toNat 9 0 ≤ 800)
    ∧ (25 ≤ bits (800 : W32).toNat 9 0 ∧ bits (800 : W32).toNat 9 0 ≤ 800)
    ∧ bits (24 : W32).toNat 9 0 < 25 ∧ 800 < bits (801 : W32).toNat 9 0
    ∧ (AccSize.b4 = .b4 ∧ (0x7FFFFE : BitVec 24).toNat % 4 ≠ 0) ∧ (AccSize.b8 = .b8 ∧ (4 : BitVec 24).toNat % 8 ≠ 0)
    ∧ (ringed Ring.reset).rings.header ≠ [] ∧ (ringGet (ringed Ring.reset) 0).state = .off
    ∧ (ringGet (ringed Ring.reset) 63).state = .off ∧ (ringGet (ringed ring1) 0).state ≠ .off := by decide

theorem test_meets_ReadsWithEffects :
    Live up ∧ up.pwr.pstate ≠ .doze ∧ (0 : BitVec 12).toNat % 4 = 0 ∧ (0xFFC : BitVec 12).toNat % 4 = 0
    ∧ physOf up 0 = some 0 ∧ physOf up 31 = some 32 := by decide

def window (w : W32) (s : State := up) : State := { s with mem := { s.mem with memWin := w } }

/-- Each space of the window at its last offset; SPACE 3; a DRAM access that waits; debug access allowed and not. -/
theorem test_meets_HostMemoryAccess :
    (Live (window 0) ∧ (window 0).pwr.pstate ≠ .doze ∧ accOk .b8 0x3FFFF8 = true
      ∧ winPlace (window 0) 0x3FFFF8 = some (.basin 0 0x3FFFF8) ∧ PlaceExists (window 0) (.basin 0 0x3FFFF8)
      ∧ placeAsleep (window 0) (.basin 0 0x3FFFF8) = false)
    ∧ (winPlace (window 1) 0x3FFFFC = some (.cistern 0x3FFFFC) ∧ accOk .b4 0x3FFFFC = true
      ∧ PlaceExists (window 1) (.cistern 0x3FFFFC) ∧ placeAsleep (window 1) (.cistern 0x3FFFFC) = false)
    ∧ (winPlace (window 2) 0 = some (.dram 0) ∧ PlaceExists (window 2) (.dram 0) ∧ placeAsleep (window 2) (.dram 0) = false
      ∧ hostWaits (window 2) = false)
    ∧ (let s := window 2 { busy with mem := { busy.mem with hostWin := 0 } }
       winPlace s 8 = some (.dram 8) ∧ hostWaits s = true)
    ∧ winPlace (window 3) 8 = none
    ∧ (diesReset (window 0) = false ∧ (∀ p, (lant (window 0) p).rill = [])
      ∧ diesReset { up with safety := { up.safety with state := .relight } } = true)
    ∧ up.sec.debugOff = false ∧ PlaceExists up (.basin 33 (basinSize - 8)) ∧ PlaceExists up (.cistern 0x0BFF_FFF8)
    ∧ ({ up with sec := { up.sec with debugOff := true } } : State).sec.debugOff = true := by decide +kernel

/-! ### Control streams -/

def xfer0 : PlanXfer := ⟨ref0, 700, ⟨0, 128, 256, 64⟩⟩

/-- A job whose control stream begins with a command at a cycle. -/
def issuing (op : CtrlOp) (cycle : Nat := 700) : State := busyWith { job0 with stream := [⟨cycle, op⟩] }

/-- The state once that command has issued, at its cycle of the grid. -/
def issued (op : CtrlOp) : State := settleSleep (popStream (issuing op) ref0) 700

/-- Every kind of transfer, from the host's and from another lantern, and the plan's reads once no write is in flight. -/
theorem test_meets_TransfersTakeFlight :
    let far := issuing (.rill xfer0.x (.lantern 5))
    let cast := issuing (.multicast 6 128 5 64)
    Served far ∧ physOf far xfer0.x.basin.val = some 0 ∧ physOf far (5 : Logical).val = some 5
    ∧ (issues far ref0 700 (.rill xfer0.x (.lantern 5)) = true ∧ placeAsleep (issued (.rill xfer0.x (.lantern 5))) (.basin 5 xfer0.x.far) = false
      ∧ far.grid.base = 0 ∧ (lant far 0).rill = [] ∧ (lant far 5).rill = [])
    ∧ issues (issuing (.rill xfer0.x (.fromHub [1, 2]))) ref0 700 (.rill xfer0.x (.fromHub [1, 2])) = true
    ∧ (issues (issuing (.rill xfer0.x .toHub)) ref0 700 (.rill xfer0.x .toHub) = true
      ∧ placeAsleep (issued (.rill xfer0.x .toHub)) (.basin 0 xfer0.x.addr) = false)
    ∧ (issues cast ref0 700 (.multicast 6 128 5 64) = true ∧ placeAsleep (issued (.multicast 6 128 5 64)) (.basin 5 64) = false)
    ∧ (issues (issuing (.cisternRead xfer0.x)) ref0 700 (.cisternRead xfer0.x) = true
      ∧ rangeAsleep (issued (.cisternRead xfer0.x)) (.cistern xfer0.x.far) xfer0.x.bytes = false)
    ∧ (issues (issuing (.dramRead xfer0.x)) ref0 700 (.dramRead xfer0.x) = true ∧ planWindow far 700 = true)
    ∧ (∀ w ∈ busy.mem.recent, w.until_ ≤ 0) ∧ (∀ w ∈ [RecentWrite.mk 0 false 0 64 320 (.cistern 0) []], w.until_ ≤ 320) := by
  decide +kernel

theorem test_meets_PlanWritesStore :
    let c := issuing (.cisternWrite xfer0.x)
    let d := issuing (.dramWrite xfer0.x)
    Served c ∧ physOf c xfer0.x.basin.val = some 0 ∧ (lant c 0).rill = [] ∧ c.grid.base = 0
    ∧ placeAsleep (issued (.cisternWrite xfer0.x)) (.basin 0 xfer0.x.addr) = false
    ∧ placeAsleep (issued (.dramWrite xfer0.x)) (.basin 0 xfer0.x.addr) = false
    ∧ (issues c ref0 700 (.cisternWrite xfer0.x) = true ∧ rangeAsleep (issued (.cisternWrite xfer0.x)) (.cistern xfer0.x.far) xfer0.x.bytes = false)
    ∧ (Served d ∧ issues d ref0 700 (.dramWrite xfer0.x) = true ∧ planWindow d 700 = true) := by decide +kernel

theorem test_meets_WritesAreLocal : (4 ≤ 4 ∧ 4 < 4 + 1) ∧ (4 ≤ 7 ∧ 7 < 4 + 4) ∧ ¬ (4 ≤ 8 ∧ 8 < 4 + 4) := by decide

def dozing (op : CtrlOp) : State :=
  let s := issuing op
  { s with mem := { s.mem with groups := Vector.replicate 48 .retained } }

/-- A window that no plan may use, and a bank group in retention, for each access. -/
theorem test_meets_RefusedPlanAccesses :
    let x := { xfer0 with cycle := 0 }
    let r := issuing (.dramRead x.x) 0
    (Served r ∧ physOf r x.x.basin.val = some 0 ∧ (findJob r x.job).any (·.endAs == .none) = true
      ∧ r.safety.queue.length < 8 ∧ planWindow r 0 = false ∧ issues r x.job 0 (.dramRead x.x) = true)
    ∧ (planWindow r 624 = false ∧ planWindow r 625 = true)
    ∧ issues (issuing (.dramWrite x.x) 0) x.job 0 (.dramWrite x.x) = true
    ∧ (let s := dozing (.cisternRead xfer0.x)
       Served s ∧ rangeAsleep (settleSleep (popStream s ref0) 700) (.cistern xfer0.x.far) xfer0.x.bytes = true
        ∧ issues s xfer0.job 700 (.cisternRead xfer0.x) = true)
    ∧ issues (dozing (.cisternWrite xfer0.x)) xfer0.job 700 (.cisternWrite xfer0.x) = true := by decide +kernel

def flight0 : Flight :=
  { (default : Flight) with id := 4, job := ref0, cistern := true, dests := [2, 5], addr := basinSize - 1, data := [1, 2, 3] }

def flying : State := { busy with mem := { busy.mem with flights := [flight0, { flight0 with id := 5, hub := true }] } }

/-- A flight that ends past the basins' last byte, one to the hub, and a basin whose sleep waits for the flight. -/
theorem test_meets_DeliveryStores :
    (Served flying ∧ flying.mem.flights.find? (fun g => g.id == flight0.id) = some flight0
      ∧ flight0.done = [] ∧ flight0.dests.Nodup ∧ (∀ p ∈ flight0.dests, (lant flying p).retain.asleep = false))
    ∧ (let s := setLant flying 2 { lant flying 2 with retain := .sleeping }
       (lant s 2).retain = .sleeping ∧ (lant s 2).retain.asleep = false ∧ inFlight s 0 (.basin 2) = true
        ∧ inFlight { s with mem := { s.mem with flights := [] } } 0 (.basin 2) = false) := by
  decide +kernel

/-- Awake, retained and waking memories under the commands that act on them. -/
theorem test_meets_RetentionCommands :
    let slept := fun (s : State) => setLant { s with mem := { s.mem with groups := Vector.replicate 48 .retained } } 0
      { lant s 0 with retain := .retained }
    let b := issuing (.sleep (.basin 0))
    let g := issuing (.sleep (.group 47))
    let wb := slept (issuing (.wake (.basin 0)))
    let wg := slept (issuing (.wake (.group 47)))
    (Served b ∧ physOf b (0 : Logical).val = some 0 ∧ issues b ref0 700 (.sleep (.basin 0)) = true
      ∧ (lant b 0).retain = .awake ∧ (lant (slept b) 0).retain = .retained
      ∧ issues (slept b) ref0 700 (.sleep (.basin 0)) = true)
    ∧ (Served g ∧ issues g ref0 700 (.sleep (.group 47)) = true ∧ g.mem.groups.get 47 = .awake)
    ∧ (Served wb ∧ issues wb ref0 700 (.wake (.basin 0)) = true ∧ (lant wb 0).retain = .retained
      ∧ issues (issuing (.wake (.basin 0))) ref0 700 (.wake (.basin 0)) = true)
    ∧ (Served wg ∧ issues wg ref0 700 (.wake (.group 47)) = true ∧ wg.mem.groups.get 47 = .retained)
    ∧ (let s := setLant { up with mem := { up.mem with groups := Vector.replicate 48 (.waking 3) } } 0
        { Lantern.reset with retain := .waking 3 }
       Served s ∧ (lant s 0).retain = .waking 3 ∧ (lant s 0).job.isNone = true ∧ s.mem.groups.get 47 = .waking 3) := by
  decide +kernel

/-- The last valid basin word of bank 63, one of bank 0, and a misaligned cistern address. -/
theorem test_meets_AtomicsAct :
    AtomicOp.add32 ≠ .swap64 ∧ Served busy ∧ busy.pwr.pstate ≠ .doze
    ∧ atomicValid (.basin 0 0x7FFFF8) .swap64 = true ∧ placeAsleep busy (.basin 0 0x7FFFF8) = false
    ∧ atomicValid (.cistern 4) .add32 = true ∧ placeAsleep busy (.cistern 4) = false
    ∧ atomicValid (.basin 0 0) .add32 = false ∧ atomicValid (.cistern 2) .add32 = false
    ∧ (lant busy 0).rill = []
    ∧ (busy.pwr.perstN = true ∧ busy.sec.debugOff = false)
    ∧ (let op : CtrlOp := .dma 3 (.atomic (.cistern 4) .add32 1)
       issues (issuing op) ref0 700 op = true ∧ issues (issuing op) ref0 701 op = false
        ∧ placeAsleep (issued op) (.cistern 4) = false) := by
  decide +kernel

def switching : State := setLant busy 0 { lant busy 0 with switches := [(1, 700)] }

theorem test_meets_ContextCommands :
    let load := issuing (.contextLoad 0 1 2)
    let active := issuing (.contextLoad 0 0 2)
    Served busy ∧ executes busy 0 = true ∧ (lant busy 0).switches = []
    ∧ (Served switching ∧ executes switching 0 = true ∧ (lant switching 0).switches.getLast? = some (1, 700))
    ∧ (issues load ref0 700 (.contextLoad 0 1 2) = true ∧ (findJob load ref0).isSome = true
      ∧ physOf load (0 : Logical).val = some 0 ∧ (lant load 0).ctx ≠ 1
      ∧ (∀ e ∈ (lant load 0).switches, 700 < e.2 → e.1 ≠ 1))
    ∧ (issues active ref0 700 (.contextLoad 0 0 2) = true ∧ (lant active 0).ctx = 0)
    ∧ ((∃ e ∈ (lant switching 0).switches, 699 < e.2 ∧ e.1 = 1)
      ∧ ¬ (∃ e ∈ (lant switching 0).switches, 700 < e.2 ∧ e.1 = 1)
      ∧ ((lant switching 0).switches.filter fun e => e.2 ≤ 700).getLast?.map (·.1) = some 1) := by decide +kernel

theorem test_meets_WickRegisterOps :
    Served busy ∧ executes busy 0 = true ∧ (lant busy 0).switches = [] ∧ (lant busy 0).rill = [] ∧ (lant busy 0).offers = [] ∧ (lant busy 0).fresh = []
    ∧ registerOp (.alu .add 255 0 1) = true ∧ registerOp (.mac .int8 0 0) = true ∧ registerOp (.align 7 0 1 2) = true
    ∧ registerOp (.pred 15 true (.shift 0 (-1))) = true := by decide +kernel

theorem test_meets_WickMemoryOps :
    Served busy ∧ executes busy 0 = true ∧ (lant busy 0).switches = [] ∧ (lant busy 0).rill = [] ∧ (lant busy 0).offers = []
    ∧ (lant busy 0).fresh = [] ∧ (lant busy 0).retain = .awake ∧ atomicValid (.basin 0 (0x7FFFF8 % 0x80_0000)) .swap64 = true
    ∧ (let s := setLant busy 0 { lant busy 0 with retain := .retained }
       Served s ∧ executes s 0 = true ∧ (lant s 0).switches = [] ∧ (lant s 0).rill = [] ∧ (lant s 0).offers = []
        ∧ (lant s 0).fresh = [] ∧ (lant s 0).retain = .retained)
    ∧ (meshTo .east 0).isSome = true ∧ (meshTo .north 63).isSome = true
    ∧ (wickGet (lant busy 0) 0).preds.getLsbD (15 : Fin 16).val ≠ true := by decide +kernel

/-- Shifts 0, 1, 47 and −1, and operands at the bounds of 48 bits. -/
theorem test_meets_ShiftRounds :
    (-(2 : Int) ^ 47 ≤ -(2 : Int) ^ 47 ∧ -(2 : Int) ^ 47 < 2 ^ 47) ∧ (-(2 : Int) ^ 47 ≤ 2 ^ 47 - 1)
    ∧ ((0 : Int) < 1 ∧ (1 : Int) ≤ 47) ∧ ((0 : Int) < 47 ∧ (47 : Int) ≤ 47) ∧ (-1 : Int) < 0
    ∧ 2 * ((3 : Int) - (rheShift 3 1).1 * 2 ^ (1 : Int).toNat).natAbs = 2 ^ (1 : Int).toNat
    ∧ (-(2 : Int) ^ 47 ≤ (2 ^ 46 - 1) * 2 ^ (1 : Int).toNat ∧ ((2 : Int) ^ 46 - 1) * 2 ^ (1 : Int).toNat < 2 ^ 47)
    ∧ (-(2 : Int) ^ 46 - 1) * 2 ^ (1 : Int).toNat < -(2 : Int) ^ 47
    ∧ (2 : Int) ^ 47 ≤ 2 ^ 46 * 2 ^ (1 : Int).toNat := by decide

/-! ### Planning -/

/-- A checked seed whose block is missing, in slot 1, and one whose block is complete. -/
theorem test_meets_PlanningGuards :
    let seeds : List JobSeed := [{ (default : JobSeed) with fresh := false }, { (default : JobSeed) with measured := true }]
    Served busy ∧ findJob busy ref0 = some job0 ∧ (checkers job0).contains (0 : Logical).val = true
    ∧ (∀ p, (lant busy p).retain.asleep = false)
    ∧ (let j := { job0 with seeds, slot := 1 }
       findJob (busyWith j) ref0 = some j
        ∧ (j.seeds.filter fun x => decide (x.measured = false ∧ (x.fresh = false ∨ j.slot = 0))).length = 1) := by
  decide +kernel

def row0 : BRow := ⟨3, 5, leBytes 4 3 ++ leBytes 4 100000 ++ List.replicate 100 0, []⟩

/-- A job at its OUTPUT slot with two rows. -/
def jobOut : Job := { job0 with
  result := some { (default : BList) with rows := [row0, row0] } }

def jobSpec : Job := { jobOut with wasSpec := true, spec := true }

/-- The world with the speculation's epoch fused. -/
def fusedWorld : State := { busyWith jobSpec with world := { up.world with epoch := jobSpec.epoch } }

/-- With every bounding centre inside the window, at the same place in both copies, both rows are confirmed. -/
theorem test_some_kinematics_confirm (h : ∀ q, Config.boundCentre 0 0 0 q = ⟨100, 100, 100⟩) :
    confirmedRows fusedWorld jobSpec ≠ [] := by
  have c : ∀ q, groupCentre jobSpec recipe0 model0 0 q = ⟨100, 100, 100⟩ := h
  have e : checkPoints jobSpec recipe0 model0 row0.pay = (List.range 48).map fun n =>
      ⟨⟨100, 100, 100⟩, 1000000000 * wayTime (rowGeom jobSpec recipe0 model0 row0.pay).T
        (rowGeom jobSpec recipe0 model0 row0.pay).tb n⟩ := by
    show (List.range 1).flatMap _ = _
    simp only [List.range_succ, List.range_zero, List.nil_append, List.flatMap_cons, List.flatMap_nil, List.append_nil, c]
  have v : rowVerdict fusedWorld jobSpec row0 = true := by
    have t : fusedTe fusedWorld jobSpec.epoch = some 0 := by decide +kernel
    have w : (jobSpec.wasSpec && !jobSpec.restored) = true := rfl
    rw [rowVerdict, if_pos w, t]
    show rowOk 16 ((checkPoints jobSpec recipe0 model0 row0.pay).flatMap _) = true
    rw [e]
    decide +kernel
  show [0, 1].filter (fun i => rowVerdict fusedWorld jobSpec (nth [row0, row0] i default)) ≠ []
  rw [List.filter_cons_of_pos (by exact v)]
  exact List.cons_ne_nil _ _

/-- A due check of a run on the newest master; of a speculation whose epoch has no fused master, and of one whose has; an
attempt that may start. -/
theorem test_meets_EpochChecksAndAttempts :
    (Served (busyWith jobOut) ∧ findJob (busyWith jobOut) ref0 = some jobOut ∧ checkDue jobOut = true
      ∧ jobOut.wasSpec = false ∧ jobOut.spec = false)
    ∧ (let s := { busyWith jobSpec with world := { up.world with epoch := jobSpec.epoch + 1 } }
       Served s ∧ findJob s ref0 = some jobSpec ∧ checkDue jobSpec = true ∧ findJob (settleRun s) ref0 = some jobSpec
      ∧ jobSpec.wasSpec = true ∧ jobSpec.spec = true ∧ jobSpec.restored = false ∧ jobSpec.endAs = .none
      ∧ awaitsRun s jobSpec = false ∧ findJob s ref0 = some jobSpec ∧ confirmedRows s jobSpec = []
      ∧ confirmedRows (settleRun s) jobSpec = [])
    ∧ (Served fusedWorld ∧ findJob fusedWorld ref0 = some jobSpec ∧ findJob (settleRun fusedWorld) ref0 = some jobSpec
      ∧ settleRun fusedWorld = fusedWorld)
    ∧ (let j := { jobOut with out := { jobOut.out with checked := true, confirmed := [1] } }
       Served (busyWith j) ∧ findJob (busyWith j) ref0 = some j ∧ mayAttempt (busyWith j) j = true) := by decide +kernel

/-- A model without joints, whose tail passes whatever the reflector's arithmetic; with a capsule it leaves a world that has
no volume. -/
def bare (caps : List Capsule) : RobotModel := ⟨[], [], caps, default, 0⟩

def jobTry (m : RobotModel) (row : BRow := row0) : Job := { jobOut with
  recipe := some { recipe0 with volume := none, robots := [(0, m)] }, out := ⟨[row, row], [0, 1], true, 1, some 0⟩ }

/-- Rows that may be handed off, that collide, that take too many samples, whose splice point has passed, and that carry a
mark. -/
theorem test_meets_ReflectorVerdicts :
    let at_ := fun (j : Job) (m : RobotModel) (row : BRow) (ok : State → Recipe → Traj → Bool) =>
      let s := busyWith j
      decide (Served s ∧ findJob s ref0 = some j ∧ j.out.active = some 0 ∧ attemptCounts j = true
        ∧ j.out.rows[0]? = some row ∧ jobModel j = some m)
        && j.recipe.any fun r => (trajOf j r m row.pay).any fun t => ok s r t
    let j := jobTry (bare [])
    let marked := { j with cands := [{ (default : Cand) with id := 3, marks := 1, scored := true }] }
    let hit := bare [default]
    let long : BRow := ⟨3, 5, leBytes 4 3 ++ leBytes 4 5000000 ++ List.replicate 100 0, []⟩
    let late := fun (s : State) => { s with grid := { s.grid with asTime := 4 * 10 ^ 9 } }
    at_ j (bare []) row0 (fun s r t => decide (sampleCount t ≤ 2048 ∧ firstHit s j r (bare []) t = none)
      && tailPasses t (bare []) && !spliceStale s t && rowLive j row0 && spliceStale (late s) t) = true
    ∧ at_ marked (bare []) row0 (fun s r t => decide (sampleCount t ≤ 2048 ∧ firstHit s marked r (bare []) t = none)
      && tailPasses t (bare []) && !spliceStale s t && !rowLive marked row0) = true
    ∧ at_ (jobTry hit) hit row0 (fun s r t => decide (sampleCount t ≤ 2048) && (firstHit s (jobTry hit) r hit t).isSome
      && !s.safety.disHist.contains s.grid.count) = true
    ∧ at_ (jobTry (bare []) long) (bare []) long (fun _ _ t => decide (2048 < sampleCount t)) = true := by decide +kernel

/-- A tail that leaves a joint's limits, where the reflector's arithmetic makes no rounding error. -/
theorem test_some_arithmetic_fails_a_tail (h : ∀ p v a b k, Config.tailPointErr p v a b k = 0) :
    tailPasses { (default : Traj) with ctrl := [List.replicate 12 1000000], tUs := 1000000, tail := 100000 } model0 = false := by
  simp only [tailPasses, h]
  decide +kernel

/-- An event that pre-empts, one that queues, one that is taken at once; an S1 event in service and a temperature trip. -/
theorem test_meets_RaisingAnEvent :
    (EventClass.tempLow.severity ≠ 1 ∧ up.safety.queue.length < 8 ∧ suppressed up .tempLow = false)
    ∧ (EventClass.slotOverrun.severity = 1 ∧ suppressed busy .slotOverrun = false ∧ busy.pwr.ready = true
      ∧ busy.safety.state = .service ∧ (∀ c, busy.safety.current = some c → 1 < c.2))
    ∧ EventClass.tempTrip.severity = 1 ∧ suppressed up .tempTrip = false := by
  refine ⟨by decide, ⟨by decide, by decide, by decide, by decide, ?_⟩, by decide, by decide⟩
  intro c h
  simp [busy, busyWith, up1, up, setLant, Safety.reset] at h

/-- Events of every kind: a unit's own, one of a job, one of a speculative job, one while the dies are in reset. -/
theorem test_meets_FaultEventsAreRaised :
    (Live up ∧ Served up ∧ diePresent up ((23 : Fin 24).val / 6) = true ∧ diePresent up (3 : Fin 4).val = true)
    ∧ (diesReset up = false ∧ EventClass.klinkLate ≠ .memEccCorr ∧ suppressed up .klinkLate = false)
    ∧ (∀ j, findJob busy ref0 = some j → j.spec = false)
    ∧ (findJob (busyWith jobSpec) ref0 = some jobSpec ∧ jobSpec.spec = true)
    ∧ (let s := { up with safety := { up.safety with state := .relight } }
       Live s ∧ diesReset s = true ∧ suppressed s .fabricEccCorr = true)
    ∧ EventClass.klinkLate ≠ .emberEccFatal ∧ EventClass.klinkLate ≠ .spoutEccFatal
    ∧ EventClass.klinkLate ≠ .fabricEccCorr := by
  refine ⟨by decide, by decide, ?_, by decide +kernel, by decide, by decide⟩
  intro j h
  have e : findJob busy ref0 = some job0 := by decide +kernel
  rw [e] at h
  cases h
  decide +kernel

def handling (x : Safety → Safety) : State :=
  { up with safety := x { up.safety with current := some (.tempLow, 3) } }

theorem test_meets_HandlingCompletes :
    (let s := handling id
     Live s ∧ s.safety.current = some (.tempLow, 3) ∧ s.safety.state = .service ∧ s.safety.overflow = 0 ∧ (∀ e ∈ s.safety.queue, e.2 ≠ 1)
      ∧ s.safety.suspended = [] ∧ s.safety.queue = [])
    ∧ (let s := handling fun f => { f with suspended := [(.tempLow, 3)] }
       s.safety.suspended = (.tempLow, 3) :: [])
    ∧ (let s := handling fun f => { f with queue := [(.tempWarn, 2)] }
       s.safety.queue = (.tempWarn, 2) :: [] ∧ (2 : Nat) ≠ 1)
    ∧ (let s := handling fun f => { f with overflow := 2 }
       s.safety.overflow ≠ 0 ∧ relights10s s < 2)
    ∧ (let s := handling fun f => { f with queue := [(.tempLow, 3), (.slotOverrun, 1)] }
       s.safety.overflow = 0 ∧ (s.safety.queue.find? fun e => e.2 == 1) = some (.slotOverrun, 1)) := by decide

def relighting : State := { busy with safety := { up.safety with state := .relight } }

def relightOk : RelightObs := ⟨0, [], true, [], 5⟩

theorem test_meets_RelightAndHalt :
    Live relighting ∧ relighting.safety.state = .relight ∧ relightOk.diesFail = 0 ∧ relightOk.selftestFail = []
    ∧ relightOk.reflectorOk = true ∧ 3 ≤ presentDies relighting ∧ logicalMap relighting.fuses ≠ []
    ∧ ((List.range 4).filter fun d => (relighting.mem.present &&& ~~~ (3 : BitVec 4)).getLsbD d).length < 3
    ∧ { relightOk with reflectorOk := false }.reflectorOk = false
    ∧ (relighting.safety.overflow = 0 ∧ (∀ e ∈ relighting.safety.queue, e.2 ≠ 1)
      ∧ ∀ d ∈ relighting.descs, (tokensOf d).getLsbD 3 = true → serialLe d.ref.index (afterOf d) = false)
    ∧ ∃ c, ({ relighting with safety := { relighting.safety with current := some (.slotOverrun, 1) } } : State).safety.current
        = some c ∧ c.2 = 1 := by
  refine ⟨by decide, by decide, rfl, rfl, rfl, by decide +kernel, by decide +kernel, by decide, rfl,
    ⟨rfl, by decide, by decide +kernel⟩, ⟨(.slotOverrun, 1), rfl, rfl⟩⟩

/-- Ages and slice counts on both sides of their bounds, and each case of a `STOP_RELEASE` write. -/
theorem test_meets_ReleasesAndTimers :
    let aged := fun (t : Nat) => { up with pwr := { up.pwr with ticks := t } }
    (OnLink up ∧ Live up ∧ stopRelHost up = true ∧ up.pwr.stop = true ∧ up.safety.handed = false
      ∧ ({ up with safety := { up.safety with handed := true } } : State).safety.handed = true
      ∧ ({ up with pwr := { up.pwr with stop := false } } : State).pwr.stop = false)
    ∧ (Live (aged 3200001) ∧ up.world.staleLogged = false ∧ 3200000 < (aged 3200001).pwr.ticks - up.world.lastAdvance
      ∧ (aged 3200000).pwr.ticks - up.world.lastAdvance ≤ 3200000)
    ∧ (diagnosed (aged 3200001) 0 = true ∧ (lant up 0).overdue = false ∧ 3200000 < diagAge (aged 3200001) 0
      ∧ diagAge (aged 3200000) 0 ≤ 3200000)
    ∧ (6400000 ≤ diagAge (aged 6400000) 0 ∧ diagAge (aged 6399999) 0 < 6400000)
    ∧ (sliceAllowed { up with grid := { up.grid with sub := 80000 } } 0 = true
      ∧ sliceAllowed { up with grid := { up.grid with sub := 79996 } } 0 = false ∧ isDisabled up.fuses 0 = false
      ∧ (lant (setLant up 0 { Lantern.reset with slices := 23 }) 0).slices < 24
      ∧ 24 ≤ (lant (setLant up 0 { Lantern.reset with slices := 24 }) 0).slices) := by decide +kernel

theorem test_meets_CompletionKeepsResult :
    findDesc busy ref0 = some (entry .running run0)
    ∧ findDesc (with1 up1 [{ entry .running run0 with replayed := true }]) ref0
        = some { entry .running run0 with replayed := true } := by decide +kernel

/-! ### Descriptors -/

def goal0 : List Byte := [0, 0, 0, 0] ++ leBytes 4 100000 ++ List.replicate 56 0

def goalOut : List Byte := [0, 0, 0, 0] ++ leBytes 4 100001 ++ List.replicate 56 0

/-- A goal at a joint's limit, one past it and a record that is none; a seed buffer of one seed under both modes; a query. -/
theorem test_meets_GoalsSeedsAndQueries :
    let g := entry .entered (.goalSet 0 64 255)
    let x := entry .entered (.seedsLoad 0 1600 3 1)
    let q := entry .entered (.query 0x1000 512 1)
    (Live (with1 up1 [g]) ∧ beginable (with1 up1 [g]) 0 = some g ∧ findDesc (with1 up1 [g]) g.ref = some g
      ∧ (decodeGoal goal0).any (goalInRange up1) = true
      ∧ (decodeGoal goalOut).any (fun y => !goalInRange up1 y) = true ∧ decodeGoal [2] = none)
    ∧ (beginable (with1 up1 [x]) 0 = some x ∧ findDesc (with1 up1 [x]) x.ref = some x
      ∧ (decodeSeeds (1600 / 1600) (List.replicate 1600 0)).any (fun xs =>
          xs.all (seedInRange (with1 up1 [x])) && decide (xs.length ≤ 1024)) = true)
    ∧ (beginable (with1 up1 [q]) 0 = some q ∧ findDesc (with1 up1 [q]) q.ref = some q)
    ∧ g.desc.encrypted = false := by decide +kernel

/-- The bytes of an image that passes every check of a load: one slot of one lantern, with the table at 0x100 and its map
at 0x140. -/
def imageBytes (key : W64) : List Byte :=
  leBytes 4 0x4E41_4C50 ++ leBytes 2 1 ++ leBytes 2 0x100 ++ leBytes 4 512 ++ leBytes 4 7 ++ leBytes 2 100 ++ leBytes 2 1
    ++ [1, 0xF, 1, 0] ++ leBytes 4 1 ++ [1, 0, 0, 0] ++ zeros 16 ++ leBytes 4 0x100 ++ leBytes 4 0x140
    ++ ([0x180, 0x180, 0x180, 0x180, 0x180].flatMap fun o => leBytes 4 o) ++ [0xFF, 0, 0, 0] ++ leBytes 8 key.toNat
    ++ zeros 168 ++ [0, 0, 1, 0] ++ zeros 252

def imageBody : PlanBody := { (default : PlanBody) with contexts := [ctx0], routePasses := 1 }

theorem imageBytes_key (key : W64) : (decodeImage (imageBytes key) imageBody).ownerKeyId = key := by
  show BitVec.ofNat 64 (leNat (leBytes 8 key.toNat)) = key
  rw [leNat_leBytes]
  exact BitVec.eq_of_toNat_eq (by simpa using key.isLt)

/-- The bytes of a blob's header with 256 B of body after it. -/
def blobBytes (magic id kind : Nat) (key : W64) : List Byte :=
  leBytes 4 magic ++ leBytes 2 1 ++ leBytes 2 0x100 ++ leBytes 4 0x200 ++ leBytes 4 id ++ leBytes 8 kind ++ zeros 56
    ++ leBytes 8 key.toNat ++ zeros 168 ++ List.replicate 256 7

theorem blobBytes_key (magic id kind : Nat) (key : W64) :
    (decodeBlob (blobBytes magic id kind key)).ownerKeyId = key := by
  show BitVec.ofNat 64 (leNat (leBytes 8 key.toNat)) = key
  rw [leNat_leBytes]
  exact BitVec.eq_of_toNat_eq (by simpa using key.isLt)

/-- The checks of a load pass where each does; the owner key's digest itself stays closed. -/
theorem loadRefusal_none (s : State) (b : PlanBlob) (len : Nat) (pid : W32) (o : (ownerKey s).isNone = false)
    (l : (decide (len < 0x100) || len != b.img.imageSize || pid != b.img.planId) = false)
    (k : b.img.ownerKeyId = ownerKeyId s) (v : b.sigOk = true ∧ b.digestOk = true)
    (f : formatOk b.img = true ∧ stagesOk b.img = true)
    (w : (!(b.img.body.stageVers.all fun v => Config.stageVersion v.1 v.2) || b.img.ops.any fun o => o.kind == .other) = false)
    (m : (decide (activeCount s < b.img.reqActive) || b.img.memDies.toNat != s.mem.present.toNat || !periodOk s b.img
      || (decide (64 ≤ s.sluice.images.length) && (imageOf s b.img.planId).isNone) || !b.img.regions.all (regionPlaced s))
      = false) :
    loadRefusal s b len pid = none := by
  simp only [Bool.or_eq_false_iff] at m
  obtain ⟨⟨⟨⟨m1, m2⟩, m3⟩, m4⟩, m5⟩ := m
  have n1 := Nat.not_lt.mp (of_decide_eq_false m1)
  simp [loadRefusal, o, l, k, v, f, w, n1, m2, m3, m4, m5]

/-- A body whose digest differs is refused. -/
theorem loadRefusal_digest (s : State) (b : PlanBlob) (len : Nat) (pid : W32) (o : (ownerKey s).isNone = false)
    (l : (decide (len < 0x100) || len != b.img.imageSize || pid != b.img.planId) = false) (v : b.digestOk = false) :
    loadRefusal s b len pid = some (.sealFail, 0) := by
  simp [loadRefusal, o, l, v]

theorem blobRefusal_none (s : State) (b : Blob) (len : Nat) (o : (ownerKey s).isNone = false)
    (l : (decide (len < 0x100) || len != (decodeBlob b.bytes).blobSize) = false)
    (k : (decodeBlob b.bytes).ownerKeyId = ownerKeyId s) (v : b.sigOk = true ∧ b.digestOk = true) :
    blobRefusal s b len true = none := by
  simp [blobRefusal, o, l, k, v]

/-- A load that passes and one whose body digest differs. -/
theorem test_meets_PlanLoads :
    let p := entry .entered (.planLoad 0 512 7)
    let s := with1 owned [p]
    let b := fun (ok : Bool) => (⟨imageBytes (ownerKeyId owned), imageBody, true, ok⟩ : PlanBlob)
    (Live s ∧ beginable s 0 = some p ∧ findDesc s p.ref = some p ∧ srcBytes s p (b true).bytes = (b true).bytes)
    ∧ loadRefusal s (b true) 512 7 = none ∧ loadRefusal s (b false) 512 7 = some (.sealFail, 0) := by
  refine ⟨⟨by decide, by decide +kernel, by decide +kernel, rfl⟩,
    loadRefusal_none _ _ _ _ (by decide +kernel) (by decide +kernel) (imageBytes_key _) ⟨rfl, rfl⟩
      ⟨by decide +kernel, by decide +kernel⟩ (by decide +kernel) (by decide +kernel),
    loadRefusal_digest _ _ _ _ (by decide +kernel) (by decide +kernel) rfl⟩

def weights0 : Blob := ⟨blobBytes 0x5448_4757 5 0 (ownerKeyId owned), true, true⟩

/-- A new set, a set already loaded, and its replacement once no job uses it. -/
theorem test_meets_PlanAndWeightLoads :
    let w := entry .entered (.weightsLoad 0x100 0x200 5)
    let x := entry .executing (.weightsLoad 0x100 0x200 5)
    let h := decodeBlob weights0.bytes
    let s := with1 owned [w]
    let loaded := fun (s : State) (n : List (List Byte × RingId × W32)) =>
      { s with sluice := { s.sluice with weights := [(5, ⟨h, n, 3⟩)] } }
    let r := loaded (with1 owned [x]) [(weights0.bytes, 0, 0)]
    (Live s ∧ beginable s 0 = some w ∧ findDesc s w.ref = some w ∧ h.weightId = 5
      ∧ blobRefusal s weights0 0x200 true = none ∧ weightHdrOk h = true ∧ placeRefusal s h = none
      ∧ s.sluice.weights.find 5 = none ∧ (loaded s []).sluice.weights.find 5 = some ⟨h, [], 3⟩
      ∧ placeRefusal (loaded s []) h = none)
    ∧ (findDesc r x.ref = some x ∧ nextSet r 5 = some (x, weights0.bytes)
      ∧ (∀ j ∈ r.jobs, usesWeights 5 j.img = false) ∧ ∀ j ∈ busy.jobs, usesWeights 5 j.img = false) := by
  refine ⟨⟨by decide, by decide +kernel, by decide +kernel, by decide +kernel,
      blobRefusal_none _ _ _ (by decide +kernel) (by decide +kernel) (blobBytes_key ..) ⟨rfl, rfl⟩, by decide +kernel,
      by decide +kernel, by decide +kernel, rfl, by decide +kernel⟩,
    by decide +kernel, rfl, ?_, ?_⟩
  · intro j h
    cases h
  · decide +kernel

def recipeBlob : Blob := ⟨blobBytes 0x4550_4352 0 0xFF (ownerKeyId owned), true, true⟩

/-- The blob checks pass; glow's parse agrees; tables past a limit; glow is held, before and after 200 ms. -/
theorem test_meets_RecipesLoad :
    let a := entry .entered (.recipeLoad 0 0x200)
    let x := entry .executing (.recipeLoad 0 0x200)
    let w : RecipeWork := ⟨0, 0, decodeBlob recipeBlob.bytes, 5⟩
    let parsing := fun (glow ticks : Nat) =>
      { with1 owned [x] with
        sluice := { owned.sluice with parse := [w] }, mgmt := { owned.mgmt with glow := glow }
        pwr := { owned.pwr with ticks } }
    let p : ParseResult := ⟨true, recipe0, [.clearMin, .confirmMargin]⟩
    (Live (with1 owned [a]) ∧ owned.safety.state ≠ .halt ∧ beginable (with1 owned [a]) 0 = some a ∧ findDesc (with1 owned [a]) a.ref = some a
      ∧ blobRefusal (with1 owned [a]) recipeBlob 0x200 true = none ∧ recipeHdrOk (decodeBlob recipeBlob.bytes) = true)
    ∧ (parseOn (parsing 2 9) 0 = some w ∧ findDesc (parsing 2 9) ⟨w.ring, w.index⟩ = some x
      ∧ glowRuns (parsing 2 9) = true ∧ glowRuns (parsing 4 9) = true ∧ recipeOk (parsing 2 9).motion.spWin (parsedTables ⟨true, recipe0, []⟩) = true
      ∧ recipeOk (parsing 2 9).motion.spWin (parsedTables p) = false)
    ∧ (parseOn (parsing 5 9) 0 = some w ∧ findDesc (parsing 5 9) ⟨w.ring, w.index⟩ = some x ∧ glowRuns (parsing 5 9) = false
      ∧ glowRuns (parsing 1 9) = false
      ∧ w.started + 6400000 ≤ (parsing 5 6400005).pwr.ticks ∧ (parsing 5 6400004).pwr.ticks < w.started + 6400000) := by
  refine ⟨⟨by decide, by decide, by decide +kernel, by decide +kernel,
      blobRefusal_none _ _ _ (by decide +kernel) (by decide +kernel) (blobBytes_key ..) ⟨rfl, rfl⟩, by decide +kernel⟩,
    ⟨rfl, by decide +kernel, by decide +kernel, by decide +kernel, by decide +kernel, by decide +kernel⟩,
    rfl, by decide +kernel, by decide +kernel, by decide +kernel, by decide, by decide⟩

/-- A context whose tag is that of its bytes. -/
def tagged (s : State) (c : SavedCtx) : SavedCtx := { c with tag := ctxTag s c }

theorem tagged_key (s : State) (l : List DescEntry) : ctxKey (with1 s l) = ctxKey s := rfl

theorem tagged_plain (s : State) (c : SavedCtx) : ctxPlain (tagged s c) = ctxPlain c := by
  have e : ∀ u, ctxSeed (tagged s c) u = ctxSeed c u := fun u => funext fun x => by simp only [ctxSeed, tagged]
  simp only [ctxPlain, e]
  simp only [ctxHead, ctxState, tagged]

theorem tagged_beside (s : State) (c : SavedCtx) : ctxBeside (tagged s c) = ctxBeside c := by
  simp only [ctxBeside, tagged]

theorem tagged_tag (s : State) (c : SavedCtx) (l : List DescEntry) :
    (tagged s c).tag = ctxTag (with1 s l) (tagged s c) := by
  simp only [ctxTag, ctxCipher, tagged_key, tagged_plain, tagged_beside]
  simp only [tagged, ctxTag, ctxCipher]

def saved0 : SavedCtx := tagged owned { (default : SavedCtx) with planId := 7, savedActive := 32, reqActive := 1 }

/-- The checks of a restore pass where each does; the tag itself stays closed. -/
theorem restoreRefusal_none (s : State) (h : SavedCtx) (img : PlanImage) (o : (ownerKey s).isNone = false)
    (g : h.tag = ctxTag s h) (i : imageOf s h.planId = some img) (b : img.bodyDigest = h.bodyDigest)
    (a : activeCount s = h.savedActive) (n : imageRefusal s img none = none)
    (r : ((recipeOf s).any fun r => r.bodyDigest == h.recipeDigest) = true) : restoreRefusal s h = none := by
  simp [restoreRefusal, o, g, i, b, a, n, r]

def restore0 : DescEntry := entry .entered (.contextRestore 0 0 0 512)

theorem saved0_restorable : restoreRefusal (with1 owned [restore0]) saved0 = none :=
  restoreRefusal_none _ _ image0 (by decide +kernel) (tagged_tag ..) (by decide +kernel) (by decide +kernel) (by decide +kernel)
    (by decide +kernel) (by decide +kernel)

/-- A save at the head of its flow, its completion, a restore that passes and one whose image is not there, a verified context
that becomes ready. -/
theorem test_meets_ContextsSaveAndRestore :
    let a := entry .entered (.contextSave 0 3 0x100 9999999)
    let j := { job0 with ref := ⟨0, 3⟩ }
    let x := { entry .executing (.contextSave 0 3 0x100 9999999) with resume := some j }
    let t := entry .running run0 3
    let r := restore0
    let s := with1 owned [r]
    let v := { r with stage := .waiting, ctx := some saved0 }
    let idle := { owned with sluice := { owned.sluice with images := [(7, { image0 with flags := 0 })] } }
    (Live (with1 owned [a]) ∧ owned.safety.state ≠ .halt ∧ beginable (with1 owned [a]) 0 = some a
      ∧ findDesc (with1 owned [a]) a.ref = some a)
    ∧ (savingAt (with1 owned [x, t]) 0 = some (x, j) ∧ findDesc (with1 owned [x, t]) x.ref = some x
      ∧ findDesc (with1 owned [x, t]) j.ref = some t ∧ x.ref ≠ j.ref)
    ∧ (findDesc s r.ref = some r ∧ r.stage = .entered ∧ restoreRefusal s saved0 = none
      ∧ restoreRefusal { s with fuses := up.fuses } saved0 = some (.sealFail, 0))
    ∧ (findDesc (with1 idle [v]) v.ref = some v ∧ v.stage = .waiting ∧ v.ctx = some saved0 ∧ isRestore v = true
      ∧ fenced (with1 idle [v]) v = false ∧ fusionWaits (with1 idle [v]) v = false
      ∧ ∀ x ∈ (with1 idle [v]).descs, x.ref = v.ref → x = v) := by
  refine ⟨by decide +kernel, ⟨by decide +kernel, by decide +kernel, by decide +kernel, by decide +kernel⟩,
    ⟨by decide +kernel, rfl, saved0_restorable, by decide +kernel⟩,
    ⟨rfl, rfl, rfl, by decide +kernel, by decide +kernel, by decide +kernel, ?_⟩⟩
  intro x h _
  exact List.mem_singleton.mp h

/-- A save whose target has ended, is held by another save, may not be saved, needs one byte more than its buffer, fits it,
and is speculative. -/
theorem test_meets_SavesAreTaken :
    let r3 : JobRef := ⟨0, 3⟩
    let save := fun (len : Nat) => entry .executing (.contextSave 0 3 0x100 len)
    let j := { job0 with ref := r3, seeds := [default], pool := [] }
    let at_ := fun (len : Nat) (js : List Job) => { with1 up1 [save len, entry .running run0 3] with jobs := js }
    (findDesc (with1 up1 [save 9]) ref0 = some (save 9) ∧ targetRef 0 3 = some r3 ∧ saveTarget (with1 up1 [save 9]) r3 = none)
    ∧ (findDesc (at_ 9 [j]) ref0 = some (save 9) ∧ findJob (at_ 9 [j]) r3 = some j ∧ j.spec = false ∧ j.kind ≠ .save
      ∧ notSaveable j.img = false)
    ∧ { j with spec := true }.spec = true ∧ { j with kind := .save }.kind = .save
    ∧ notSaveable { image0 with body := { image0.body with group := some default } } = true
    ∧ 7391359 < ctxSize (j.seeds.length + j.pool.length + j.spent.length) ∧ ctxSize (j.seeds.length + j.pool.length + j.spent.length) ≤ 7391360 := by
  decide +kernel

/-- A run with no token and one whose epoch lies ahead; cancels of nothing, of a waiting and of a running job; an open
and a closed fence. -/
theorem test_meets_RunsFencesAndCancels :
    let p := entry .entered run0
    let q := entry .entered (.planRun 7 5 0 0 0 1 0 0 0 512)
    let c := entry .entered (.cancel 0 9)
    let f := entry .entered (.fence 0) 1
    let idleRun := { up1 with sluice := { up1.sluice with images := [(7, { image0 with flags := 0 })] } }
    let r9 : JobRef := ⟨0, 9⟩
    let before := fun (s : State) => (s.descs.takeWhile fun y => y.ref != c.ref).find? fun y => y.ref == r9
    let j := { job0 with ref := r9 }
    let live9 := { with1 up1 [entry .running run0 9, c] with jobs := [j] }
    (Live (with1 up1 [p]) ∧ up1.safety.state ≠ .halt ∧ findDesc (with1 up1 [p]) p.ref = some p ∧ p.stage = .entered
      ∧ fenced (with1 idleRun [p]) p = false ∧ fusionWaits (with1 idleRun [p]) p = false
      ∧ findDesc (with1 idleRun [p]) p.ref = some p)
    ∧ (findDesc (with1 up1 [q]) q.ref = some q ∧ q.matched = 0 ∧ serialLe 5 (with1 up1 [q]).world.epoch = false)
    ∧ (targetRef 0 9 = some r9 ∧ r9 ≠ c.ref ∧ before (with1 up1 [c]) = none
      ∧ before (with1 up1 [c, entry .waiting run0 9]) = none)
    ∧ (before (with1 up1 [entry .waiting run0 9, c]) = some (entry .waiting run0 9)
      ∧ (entry .waiting run0 9).stage.inWeir = true)
    ∧ (findDesc live9 c.ref = some c ∧ before live9 = some (entry .running run0 9) ∧ findJob live9 r9 = some j)
    ∧ (let s := setRing (with1 up1 [f]) 0 { ring1 with complete := 1, accepted := 2 }
       beginable s 0 = some f ∧ findDesc s f.ref = some f ∧ fenceOpen s f 0 = true)
    ∧ (let s := with1 up1 [entry .running run0, f]
       beginable s 0 = some f ∧ fenceOpen s f 0 = false) := by decide +kernel

def bell0 (gen prod : Nat) : List W64 := BitVec.ofNat 64 (gen * 2 ^ 32 + prod) :: List.replicate 63 0

def raw0 : RawDesc := ⟨0, [10] ++ List.replicate 63 0⟩

/-- A ring with one descriptor to take, one whose doorbell runs ahead of what it holds or behind what it took, one whose
owner differs. -/
theorem test_meets_PollServesRings :
    let s := ringed ring1
    (Live s ∧ canPoll s = true ∧ canPoll { s with rings := { s.rings with detached := true } } = false
      ∧ (∀ q : RingId, q ≠ 0 → (ringGet s q).state = .off ∨ (ringGet s q).state = .stopped)
      ∧ (ringGet s 0).state = .running ∧ (ringGet s 0).readTo = (ringGet s 0).accepted)
    ∧ (doorbellGen (nth (bell0 9 2) 0 0) = 9 ∧ (doorbellProd (nth (bell0 9 2) 0 0) - ring1.complete).toNat ≤ 2 ^ ring1.size
      ∧ serialLt (doorbellProd (nth (bell0 9 2) 0 0)) ring1.accepted = false
      ∧ doorbellProd (nth (bell0 9 2) 0 0) = ring1.accepted + 1 ∧ 1 ≤ weirFree s 0
      ∧ ([raw0].filter fun y => y.ring == 0) = [raw0] ∧ ring1.sealed = false ∧ (decodeDesc raw0.bytes).body ≠ .bad)
    ∧ (doorbellProd (nth (bell0 9 16) 0 0) - ring1.complete).toNat ≤ 2 ^ ring1.size
    ∧ 2 ^ ring1.size < (doorbellProd (nth (bell0 9 17) 0 0) - ring1.complete).toNat
    ∧ serialLt (doorbellProd (nth (bell0 9 0) 0 0)) ring1.accepted = true
    ∧ doorbellGen (nth (bell0 8 2) 0 0) ≠ ring1.owner ∧ ring1.served = true
    ∧ (ringGet (ringed { ring1 with served := false }) 0).served = false := by decide +kernel

def done0 : Result := ⟨.ok, 0, 5, false, some (List.replicate 512 7), 512⟩

/-- A record that is due, on a ring that is served and on one whose owner was lost, with the completion ring below the shadow
entry; a header's base, none, and a detached device. -/
theorem test_meets_RecordsAndHeader :
    let d := entry (.done done0) run0
    let s := with1 (ringed { ring1 with cq := 0x2000 }) [d]
    let l := with1 (ringed { ring1 with lost := true }) [d]
    (Live s ∧ findDesc s ⟨0, (ringGet s 0).complete⟩ = some d ∧ d.stage = .done done0 ∧ (ringGet s 0).lost = false
      ∧ s.rings.detached = false ∧ (ringGet s 0).served = true ∧ s.pwr.perstN = true ∧ s.safety.state ≠ .relight
      ∧ s.safety.state ≠ .halt ∧ s.rings.shBase ≠ 0 ∧ (ringGet s 0).state ≠ .notOwner
      ∧ (ringGet s 0).cq.toNat + 32 * ((ringGet s 0).complete.toNat % 2 ^ (ringGet s 0).size) + 32 ≤ entryAddr s 0)
    ∧ (findDesc l ⟨0, (ringGet l 0).complete⟩ = some d ∧ (ringGet l 0).lost = true)
    ∧ up1.rings.shBase = 0
    ∧ ({ up1 with pwr := { up1.pwr with perstN := false } } : State).pwr.perstN = false
    ∧ ({ up1 with rings := { up1.rings with detached := true } } : State).rings.detached = true := by decide +kernel

/-- Start indices that agree, the widest that still do, and two that do not. -/
theorem test_meets_RingsAndDetachment :
    let g := { Ring.reset with startAcc := 5, startCmp := 3 }
    (OnLink (ringed g) ∧ (ringGet (ringed g) 0).state = .off ∧ (3 : W32).getLsbD 2 = false
      ∧ indicesOk g g.startAcc g.startCmp = true)
    ∧ indicesOk Ring.reset 16 0 = true ∧ indicesOk Ring.reset 17 0 = false ∧ indicesOk Ring.reset 5 6 = false
    ∧ (ringGet (ringed ring1) 0).state = .running
    ∧ (ringGet (ringed { ring1 with state := .notOwner }) 0).state = .notOwner
    ∧ up1.rings.detached = false
    ∧ (let s := { up1 with rings := { up1.rings with detached := true } }
       s.rings.detached = true ∧ s.safety.state ≠ .halt ∧ doorbellGen (nth (bell0 0 1) 0 0) = (ringGet s 0).owner
        ∧ ∀ r : RingId, (ringGet s r).state = .off ∨ doorbellGen (nth (bell0 0 1) r.val 0) = (ringGet s r).owner)
    ∧ ({ up1 with safety := { up1.safety with state := .halt } } : State).safety.state = .halt := by decide +kernel

/-- An idle boundary with an idle basin at both sides of its count, and a late lantern. -/
theorem test_meets_IdleBoundary :
    let s := setLant up1 3 { Lantern.reset with idle := some 2 }
    let near := setLant up1 3 { Lantern.reset with idle := some 1 }
    (Served s ∧ s.grid.running = true ∧ s.jobs = [] ∧ s.descs = [] ∧ s.klink.pendMap.isNone = true
      ∧ (lant s 3).job = none ∧ (lant s 3).idle = some 2 ∧ (lant s 3).retain = .awake ∧ s.grid.regRetain ≤ 2
      ∧ (lant near 3).idle = some 1 ∧ ¬ near.grid.regRetain ≤ 1)
    ∧ (Served busy ∧ busy.grid.running = true ∧ ∃ p ∈ [(0 : Phys)], (jobOn busy p).isSome = true)
    ∧ busy.jobs ≠ [] := by decide +kernel

def dispatching (img : PlanImage) : State :=
  { with1 up1 [entry .ready run0] with
    sluice := { up1.sluice with images := [(7, img)] }
    world := { up1.world with built := true, epoch := 4, era := true }
    motion := { up1.motion with sync := true } }

/-- A job that nothing stops, and one whose period does not agree. -/
theorem test_meets_WalkDispatchesOrRefuses :
    let d := entry .ready run0
    let img := { image0 with flags := 0, robot := 0xFF }
    let s := dispatching img
    let w := dispatching { img with slotLen := 99 }
    (findDesc s d.ref = some d ∧ d.stage = .ready ∧ dispatchRefusal s d = none ∧ jobImage s d = some img
      ∧ waits s d img = false ∧ held s img = false ∧ canDispatch s [] d img = true
      ∧ ∀ g : Fin 48, (s.mem.groups.get g).asleep = false)
    ∧ findDesc w d.ref = some d ∧ dispatchRefusal w d = some (.planMismatch, 6, none) ∧ Status.planMismatch ≠ .ok := by
  decide +kernel

theorem test_meets_JobsContinueOrEnd :
    (job0.kind = .work ∧ job0.endAs = .none ∧ job0.slot + 1 < job0.img.slotCount)
    ∧ { job0 with endAs := .cancelled }.endAs = .cancelled
    ∧ { job0 with endAs := .faultNow .rillLate }.endAs = .faultNow .rillLate
    ∧ { job0 with endAs := .fault .rillLate, slot := 1 }.endAs = .fault .rillLate
    ∧ job0.img.publishes = true ∧ { job0 with img := { image0 with flags := 0 } }.img.publishes = false
    ∧ job0.restored = false ∧ job0.published.isNone = true ∧ job0.selected = false
    ∧ { job0 with selected := true }.selected = true
    ∧ { job0 with published := some default }.published.isSome = true := by decide +kernel

/-! ### Cameras, motion ports and groups -/

/-- An admitted camera whose frame has joined the set. -/
def camIn : CamPort := { CamPort.reset with state := 3, inSet := true, pattern := 5 }

def seeing : State := { camSet (camSet up1 2 camIn) 1 camIn with mgmt := { up1.mgmt with glow := 2 } }

def open0 : OpenSet := ⟨1000000, 5, [1, 2], [2], []⟩

def inOpen (o : OpenSet) (ticks : Nat := 1000) : State :=
  { seeing with world := { seeing.world with openSet := some o }, pwr := { seeing.pwr with ticks } }

def frame0 : FrameObs := ⟨9, [⟨0, .raw16, 9, true⟩, ⟨0, .embedded, 9, true⟩], some (5, 0), [⟨7, 1000, 3⟩], [(2, 2)], []⟩

/-- A frame of which one depth packet fails. -/
def badFrame : FrameObs := { frame0 with parts := [⟨0, .raw16, 9, true⟩, ⟨0, .raw16, 9, false⟩] }

def frameOf (p : Fin 4) : SetFrame := setFrame (inOpen open0) p 0 frame0

/-- `SYNC_TOL` is 500 µs: starts at both of its ends and past them; sets that a frame leaves open and completes; sets before
and at their timeout of 10 ms. -/
theorem test_meets_FrameSetsForm :
    (Live seeing ∧ takesPart seeing 2 = true ∧ seeing.pwr.pstate ≠ .doze ∧ seeing.world.openSet.isNone = true
      ∧ (camGet seeing 0).state < 2 ∧ 2 ≤ (camGet seeing 2).state)
    ∧ (takesPart (inOpen open0) 1 = true ∧ (inOpen open0).world.openSet = some open0
      ∧ 1000 * (((inOpen open0).sluice.recipe.map (·.syncTolUs)).getD 0) = 500000
      ∧ 1500000 ≤ open0.teNs + 500000 ∧ open0.teNs ≤ 500000 + 500000 ∧ 1 ∈ open0.ports ∧ 1 ∉ open0.joined
      ∧ open0.teNs + 500000 < 1500001 ∧ 499999 + 500000 < open0.teNs)
    ∧ (let c := camGet (inOpen open0) 2
       camCfg (inOpen open0) 2 = some cam2 ∧ hasDepth cam2 frame0 = true ∧ frameWhole cam2 frame0 = true ∧ c.state = 3
        ∧ c.early = false ∧ patternOk c (assigned cam2 frame0) = true ∧ c.late = false ∧ c.inSet = true ∧ twoRunning false c.hist = false)
    ∧ (∃ q ∈ open0.ports, ∀ x ∈ open0.got ++ [frameOf 2], x.port ≠ q)
    ∧ (∀ q ∈ open0.ports, ∃ x ∈ [frameOf 1] ++ [frameOf 2], x.port = q)
    ∧ setDue (inOpen open0 320004) = false ∧ setDue (inOpen open0 320005) = true
    ∧ open0.got = [] ∧ { open0 with got := [frameOf 1] }.got ≠ [] := by decide +kernel

def fusing : Job := { job0 with fusing := some ⟨1, [frameOf 2]⟩ }

/-- Each state of a port; the last attempt but one and the last; a first and a second pass; a probe that compares; 100 ms
without a frame. -/
theorem test_meets_CamerasAreAdmitted :
    (Live seeing ∧ (camGet (camSet seeing 2 .reset) 2).state = 0 ∧ seeing.mgmt.glow = 2 ∧ up1.mgmt.glow < 2
      ∧ camCfg seeing 2 = some cam2 ∧ (cam2.bus ≠ 1 ∨ cam2.provId ≠ 77) ∧ (cam2.bus ≠ 0 ∨ cam2.provId ≠ 78))
    ∧ ({ CamPort.reset with state := 1, cfgFails := 1 }.cfgFails < 2
      ∧ 2 ≤ { CamPort.reset with state := 1, cfgFails := 2 }.cfgFails)
    ∧ (let c := { camIn with state := 2 }
       c.state = 2 ∧ hasDepth cam2 frame0 = true ∧ frameWhole cam2 frame0 = true ∧ c.early = false
        ∧ patternOk c (assigned cam2 frame0) = true ∧ c.passRun = 0 ∧ 1 ≤ { c with passRun := 1 }.passRun)
    ∧ (2 ≤ camIn.state ∧ hasDepth cam2 badFrame = true ∧ frameWhole cam2 badFrame = false
      ∧ frameWhole { cam2 with conf := some 1 } frame0 = false)
    ∧ (camIn.lastSof + 3200000 ≤ (inOpen open0 3200000).pwr.ticks ∧ (inOpen open0 3199999).pwr.ticks < camIn.lastSof + 3200000)
    ∧ (let s := { seeing with jobs := [fusing] }
       fusingJob s = some fusing ∧ fusing.fusing = some ⟨1, [frameOf 2]⟩ ∧ fusing.recipe = some recipe0)
    ∧ (let s := { seeing with
        jobs := [fusing], world := { seeing.world with probed := seeing.world.probed.set 2 (some (0, [(2, 2)])) } }
       fusingJob s = some fusing ∧ s.world.probed.get 2 = some (0, [(2, 2)]))
    ∧ seeing.pwr.pstate ≠ .pilot
    ∧ ({ seeing with pwr := { seeing.pwr with pstate := .pilot } } : State).pwr.pstate = .pilot := by decide +kernel

/-- A device that is not configured as grandmaster; one that is, with no announcement, a worse one, an equal one that this device
wins, an equal one that it loses and a better one; synchronised, lost, and not grandmaster. -/
theorem test_meets_TimeBaseAndSetpoints :
    let s := { up with motion := { up.motion with gmRole := true, priority1 := 8 } }
    let best := fun (a : Option (Byte × Bool)) => ∀ q better, a = some (q, better) →
      s.motion.priority1.toNat < q.toNat ∨ (s.motion.priority1 = q ∧ better = true)
    Live up ∧ up.motion.gmRole = false ∧ up.motion.syncLost = false ∧ up.motion.gm = false
    ∧ (s.motion.gmRole = true ∧ best none ∧ best (some (9, false)) ∧ best (some (8, true)) ∧ ¬ best (some (8, false))
      ∧ ¬ best (some (7, true)))
    ∧ ({ up with motion := { up.motion with syncLost := true } } : State).motion.syncLost = true
    ∧ (let h := { up with motion := { up.motion with handedAt := [(0, 1)] } }
       h.motion.handedAt.find 0 = some 1 ∧ qbvStart h < 1 + 50000) := by
  refine ⟨rfl, rfl, rfl, rfl, ⟨rfl, ?_, ?_, ?_, ?_, ?_⟩, rfl, by decide +kernel⟩
  · intro q b h
    cases h
  · intro q b h
    cases h
    exact .inl (by decide)
  · intro q b h
    cases h
    exact .inr ⟨rfl, rfl⟩
  · intro h
    exact absurd (h 8 false rfl) (by decide)
  · intro h
    exact absurd (h 7 true rfl) (by decide)

def jointBytes : List Byte := frameHead 2 100 5 0 ++ [1, 0, 0, 0] ++ leBytes 4 0 ++ leBytes 8 0 ++ zeros 20

def hello1Bytes (axes : Byte) : List Byte := frameHead 3 100 5 0 ++ [1, axes, 0, 0] ++ leBytes 8 0 ++ zeros 12

def joint1 : JointFrame := ⟨100, 5, 0, 0, 0, [(0, 0, 0)]⟩

def hello1 : HelloFrame := ⟨100, 5, 1, 1, 0, 0, 0⟩

/-- Counters one past the last, at it, and one past the wrap; a hello that disagrees; 30 ms without a hello; frames of another
subtype. -/
theorem test_meets_NodesComeAndGo :
    (Live up1 ∧ decodeJoint jointBytes = some joint1 ∧ decodeHello (hello1Bytes 1) = some hello1
      ∧ decodeHello (hello1Bytes 2) = some { hello1 with axes := 2 })
    ∧ (nodeIdx up1 joint1.nodeId = some (0, node0) ∧ counterOk (nodeGet up1 0) joint1.counter = true
      ∧ counterOk { NodeState.reset with rx := some 4 } 5 = true
      ∧ counterOk { NodeState.reset with rx := some 5 } 5 = false
      ∧ counterOk { NodeState.reset with rx := some 0xFFFFFFFF } 0 = true
      ∧ nodeIdx up1 { joint1 with nodeId := 9 }.nodeId = none)
    ∧ (nodeIdx up1 hello1.nodeId = some (0, node0) ∧ counterOk (nodeGet up1 0) hello1.counter = true
      ∧ hello1.kind = 1 ∧ hello1.axes.toNat = node0.axes ∧ hello1.keyId = up1.motion.keyId
      ∧ hello1.robot.toNat = node0.robot ∧ hello1.firstAxis.toNat = node0.firstAxis
      ∧ { hello1 with axes := 2 }.axes.toNat ≠ node0.axes)
    ∧ (let s := fun (t : Nat) =>
        nodeSet { up1 with pwr := { up1.pwr with ticks := t } } 0 { NodeState.reset with present := true }
       (nodeGet (s 960000) 0).present = true ∧ (nodeGet (s 960000) 0).hello + 960000 ≤ (s 960000).pwr.ticks
        ∧ (s 959999).pwr.ticks < (nodeGet (s 959999) 0).hello + 960000
        ∧ (nodeTable (s 960000))[(0 : Fin 32).val]? = some node0 ∧ (nodeGet up1 0).present = false)
    ∧ (field (hello1Bytes 1) 0 1 ≠ 2 ∧ field jointBytes 0 1 ≠ 3 ∧ decodeJoint (hello1Bytes 1) = none
      ∧ decodeHello jointBytes = none) := by decide +kernel

/-- Ports in each state, before and at their limits, the seventh and the eighth failing packet, a raw frame. -/
theorem test_meets_KlinkPorts :
    let port := fun (st tries run : Nat) => kSet owned 2 { KPort.reset with state := st, attempts := tries, crcRun := run }
    let at_ := fun (t : Nat) => { owned with pwr := { owned.pwr with ticks := t } }
    let good : KPacket := ⟨0b10, true, 0, 64, 3, none⟩
    (Live owned ∧ (kGet (port 1 1 0) 2).state = 1 ∧ (kGet (port 1 1 0) 2).attempts < 2
      ∧ 2 ≤ (kGet (port 1 2 0) 2).attempts)
    ∧ ((kGet owned 2).since + 320000 ≤ (at_ 320000).pwr.ticks ∧ (at_ 159999).pwr.ticks < (kGet owned 2).since + 160000
      ∧ (kGet owned 2).since + 160000 ≤ (at_ 160000).pwr.ticks)
    ∧ ((kGet (port 2 0 0) 2).state = 2 ∧ ownerKey (port 2 0 0) = some 77 ∧ ownerKey (port 2 0 0) ≠ some 78)
    ∧ ((kGet (port 3 0 6) 2).state = 3 ∧ good.crcOk = true ∧ good.raw.isNone = true ∧ good.seq = (kGet (port 3 0 6) 2).rxSeq
      ∧ { good with seq := 1 }.seq ≠ (kGet (port 3 0 6) 2).rxSeq ∧ (kGet (port 3 0 6) 2).crcRun < 7
      ∧ good.sync = 0b10 ∧ { good with sync := 0b11 }.sync ≠ 0b10
      ∧ { good with crcOk := false }.crcOk = false ∧ 7 ≤ (kGet (port 3 0 7) 2).crcRun
      ∧ { good with raw := some (cam2, frame0, 5) }.raw = some (cam2, frame0, 5)) := by decide +kernel

def map0 (v : W32) : GroupMap :=
  ⟨v, [5, 6], [[none, some 1, none, none], [some 0, none, none, none]], [32, 32]⟩

def grouped : State :=
  kSet { owned with
    fuses := { owned.fuses with identity := 5 }, klink := { owned.klink with map := map0 3, seen := 4 } } 1
    { KPort.reset with state := 3, partner := some 6 }

/-- A map of this device and the one it reaches, and the version in force. -/
theorem test_meets_GroupMapsInstall :
    (Live grouped ∧ issuedMap grouped (map0 0) = { map0 5 with active := [activeCount grouped, 32] }
      ∧ (issuedMap grouped (map0 0)).members.head? = some grouped.fuses.identity)
    ∧ (issuedMap { grouped with fuses := { grouped.fuses with identity := 6 } } (map0 0)).members.head? ≠ some 6
    ∧ (let s := { grouped with klink := { grouped.klink with map := ⟨3, [5, 6, 7, 8, 9, 10, 11, 12, 13], [], []⟩ } }
       8 < (issuedMap s (map0 0)).members.length)
    ∧ grouped.klink.map.version.toNat < (map0 4).version.toNat ∧ linksAgree grouped (map0 4) = true
    ∧ ¬ grouped.klink.map.version.toNat < (map0 3).version.toNat ∧ (6 : Digest) ∈ grouped.klink.map.members := by
  decide +kernel

def groupJob : Job := { job0 with
  img := { image0 with planId := 7, body := { image0.body with group := some ⟨2, 1, [⟨0, 5⟩]⟩ } }
  slot := 1, member := some 0 }

def tag0 (epoch : W32) : ExchTag := ⟨7, 0x55, 0, epoch, 1⟩

def exchanging (l : List (ExchTag × BList × Nat)) (count : Nat := 0) : State :=
  { grouped with
    jobs := [groupJob], descs := [entry .running run0], klink := { grouped.klink with store := l }
    grid := { grouped.grid with count } }

/-- An input that has come, one of another epoch, one that has not come, data before and at its 64th period, a peer's abort,
and both kinds of a device for a shared world. -/
theorem test_meets_GroupExchanges :
    let s := exchanging [(tag0 0, default, 0)]
    let inputs := fun (s : State) => (otherMembers s).map fun g => inputState s groupJob 0 g
    let old := exchanging [(tag0 0, default, 0)] 64
    (Live s ∧ findJob s groupJob.ref = some groupJob ∧ s.safety.queue.length < 8
      ∧ groupJob.endAs = .none ∧ { groupJob with endAs := .fault .klinkLate }.endAs = .fault .klinkLate
      ∧ dueExchange groupJob = some 0 ∧ dueExchange { groupJob with exchRead := [0] } = none ∧ inputs s = [some true])
    ∧ storeFits s default = true
    ∧ inputs (exchanging [(tag0 9, default, 0)]) = [some false]
    ∧ none ∈ inputs (exchanging [])
    ∧ (∃ e ∈ old.klink.store, e.1 = tag0 0 ∧ e.2.2 + 64 ≤ old.grid.count)
    ∧ (let young := exchanging [(tag0 0, default, 0)] 63
       ∀ e ∈ young.klink.store, e.1 = tag0 0 → young.grid.count < e.2.2 + 64)
    ∧ ((∀ k ∈ s.jobs, k.img.planId = 7 ∧ k.desc.tag = 0x55 ∧ k.img.group.isSome = true) ∧ s.jobs ≠ [])
    ∧ (let w := { grouped with
        descs := [entry .waiting run0]
        sluice := { grouped.sluice with images := [(7, groupJob.img)] } }
       w.jobs = [] ∧ ∃ d ∈ w.descs, isCopy w 7 0x55 d = true)
    ∧ (let t := { grouped with sluice := { grouped.sluice with recipe := some { recipe0 with worldSource := some 1 } } }
       sourceOk t = true ∧ sourceOk grouped = false) := by decide +kernel

/-! ### Spouts, security and the log -/

theorem test_meets_ChannelResets :
    (chanGet (chanSet up (.n 1) { SChan.reset with full := true }) (.n 1)).full = true
    ∧ (chanGet up (.s 15)).full = false
    ∧ (chanGet up (.s 15)).msgEpoch = (chanGet up (.s 15)).epoch := by decide

/-- A sender outside the device and one within it, with and without a message that waits for its acknowledgement. -/
theorem test_meets_SpoutSenders :
    (up.pwr.perstN = true ∧ (chanGet up (.n 0)).unacked = none ∧ deviceSends (.n 0) = false ∧ deviceSends (.n 1) = true
      ∧ deviceSends (.s 1) = true ∧ shedsSend up (.n 1) (some (zeros 64)) = false)
    ∧ (let s := chanSet up (.n 3) { SChan.reset with unacked := some [7, 0] }
       (chanGet s (.n 3)).unacked = some [7, 0] ∧ (chanGet s (.n 3)).full = false)
    ∧ (Chan.n 0 ≠ .n 0 ∨ (up.mgmt.glow ≠ 3 ∧ up.mgmt.glow ≠ 4)) := by decide

/-- Telemetry that glow does not send, where its first service is telemetry. -/
theorem test_some_services_are_shed (h : ∀ b, Config.glowService b = 2) :
    shedsSend { up with mgmt := { up.mgmt with glow := 3 } } (.n 1) (some [0]) = true := by
  simp [shedsSend, h]

/-- A word other than the last and the last; a message taken again; a message of the key exchange and another, with the
seventh and the eighth failure running, before, at and after the end of a lockout. -/
theorem test_meets_SpoutsCarryMessages :
    let c := fun (ch : Chan) => chanSet up ch { SChan.reset with full := true }
    let gate := fun (n : Nat) => { up with spout := { up.spout with gateFail := n } }
    let locked := fun (x : Option Nat) => { up with spout := { up.spout with lockout := x } }
    let opening := chanSet up (.s 0) { SChan.reset with buf := Vector.replicate 64 1 }
    (Live up ∧ (chanGet up (.n 2)).full = false ∧ Chan.n 2 ≠ .s 0 ∧ Chan.n 2 ≠ .s 1)
    ∧ ((chanGet (c (.s 1)) (.s 1)).full = true ∧ (14 : Fin 16) ≠ 15)
    ∧ (ackedAs (chanGet up (.n 0)) 7 = none ∧ ackedAs { SChan.reset with lastAck := some (0, 7, 3) } 7 = some 3
      ∧ ackedAs { SChan.reset with lastAck := some (0, 7, 1) } 7 = none)
    ∧ (let m := fun (service length : Byte) => [0, 0, service, 0, length] ++ zeros 59
       knownService (m 1 48) = true ∧ badLength (m 1 48) = false ∧ badLength (m 5 49) = true ∧ knownService (m 6 0) = false
        ∧ (0 : W16) ≠ 0xFFFF)
    ∧ ((chanGet up (.s 0)).full = false ∧ up.spout.gateKey = false
      ∧ field (chanGet opening (.s 0)).buf.toList 2 1 = 1 ∧ field (chanGet up (.s 0)).buf.toList 2 1 ≠ 1
      ∧ (gate 6).spout.gateFail < 7 ∧ (gate 7).spout.gateFail = 7)
    ∧ (∀ x, up.spout.lockout = some x → ¬ up.pwr.ticks < x)
    ∧ (∀ x, (locked (some 1000)).spout.lockout = some x → ¬ (locked (some 1000)).pwr.ticks < x)
    ∧ ∃ x, (locked (some 1001)).spout.lockout = some x ∧ (locked (some 1001)).pwr.ticks < x := by
  refine ⟨by decide, by decide, by decide, by decide +kernel, by decide +kernel, ?_, ?_, ⟨1001, rfl, by decide⟩⟩
  · intro x h
    cases h
  · intro x h
    cases h
    decide

theorem test_meets_PartyResetsAndLocks :
    let s := { up with spout := { up.spout with locks := up.spout.locks.set 63 (some 3) } }
    Live up ∧ up.spout.locks.get 63 = none ∧ s.spout.locks.get 63 = some 3 ∧ s.spout.locks.get 63 ≠ some 4
    ∧ (1 : W32) ≠ 0 := by decide

/-- No owner, a first slot that failed, both slots damaged; a request that has been acted on; a session that can be installed
and one that cannot; a report that fits one more part and one that does not. -/
theorem test_meets_OwnerAndSessions :
    let slots := fun (a b : OwnerSlot) => { up with fuses := { up.fuses with owner0 := a, owner1 := b } }
    let bad : OwnerSlot := ⟨7, true, false⟩
    let ke := fun (n : Nat) => { up with sec := { up.sec with ke := n } }
    let bound := setRing (setRing { up with sec := { up.sec with ke := 2, sessId := 4, earlier := some (3, 0) } } 3
      { Ring.reset with session := some 4 }) 9 { Ring.reset with session := some 3 }
    let reports := fun (n : Nat) => { up with sec := { up.sec with reporting := true, reportOut := List.replicate n 1 } }
    (Live up ∧ ackedAs (chanGet up (.s 0)) (svcSeq up) = none ∧ badLength (chanGet up (.s 0)).buf.toList = false
      ∧ badLength (List.replicate 64 1) = true ∧ ownerKey up = none ∧ enrolDamaged up = false)
    ∧ (let s := chanSet up (.s 0) { SChan.reset with lastAck := some (0, 0, 3) }
       ackedAs (chanGet s (.s 0)) (svcSeq s) = some 3)
    ∧ (ownerKey (slots bad .blank) = none ∧ enrolDamaged (slots bad .blank) = false)
    ∧ enrolDamaged (slots bad bad) = true ∧ (ownerKey owned).isSome = true
    ∧ ((ke 1).sec.ke = 1 ∧ (ke 2).sec.ke = 2 ∧ installRefused (ke 2) = false ∧ installRefused bound = true)
    ∧ (up.sec.keOut = [] ∧ ({ up with sec := { up.sec with keOut := [1] } } : State).sec.keOut ≠ []
      ∧ (chanGet up (.s 1)).unacked = none)
    ∧ (let k : List Byte := [7, 0, 4, 1] ++ zeros 60
       let s := chanSet up (.s 1) { SChan.reset with unacked := some k }
       OnLink s ∧ (chanGet s (.s 1)).unacked = some k ∧ field k 2 1 = 4 ∧ (7 : W16) = BitVec.ofNat 16 (field k 0 2)
        ∧ (0 : W16) ≠ 1 ∧ (0 : W16) ≠ 0xFFFF)
    ∧ (up.sec.reporting = false ∧ (reports 48).sec.reporting = true ∧ ¬ 48 < (reports 48).sec.reportOut.length
      ∧ 48 < (reports 49).sec.reportOut.length)
    ∧ ((chanGet up (.s 1)).full = false ∧ up.spout.gateKey = false
      ∧ ({ up with spout := { up.spout with gateKey := true } } : State).spout.gateKey = true) := by decide +kernel

def rec1 (repeat_ : Nat) : EmberRec := ⟨4, 7, .camSuspect, false, false, false, false, repeat_, [], 0⟩

/-- A new event; the repetition of the last record, at the last REPEAT that can still be raised. -/
theorem test_meets_EventsAreRecorded :
    let s := { up with ember := { up.ember with last := some (rec1 65534) } }
    (up.ember.online = true ∧ up.ember.frozen = false ∧ up.ember.writing = false ∧ up.ember.last.isNone = true)
    ∧ ((rec1 65534).cls = .camSuspect ∧ EventClass.camSuspect ≠ .emberCleared ∧ EventClass.camSuspect ≠ .frozenDrops
      ∧ (rec1 65534).repeat_ < 65535 ∧ s.ember.last = some (rec1 65534)
      ∧ snapshot s .camSuspect [] = snapshot s .camSuspect []) := by decide

def pend1 : PendSlot := ⟨.camSuspect, 3, false, true, [1, 2], 2, 900, true⟩

/-- The log while it writes, flushes, is frozen, before and at the freeze's end; a clear at both ends of the records that may
go, with and without the group's signature. -/
theorem test_meets_EmberCommands :
    let e := fun (f : Ember → Ember) => { owned with ember := f owned.ember, sec := { owned.sec with session := .owned } }
    let three := kSet { owned with klink := { owned.klink with map := ⟨1, [5, 6, 7], [], []⟩ } } 1
      { KPort.reset with state := 3, partner := some 6 }
    (Live up ∧ up.pwr.pwrGood = true ∧ up.ember.pend = [] ∧ up.ember.frozen = false ∧ up.ember.online = true
      ∧ (e fun x => { x with pend := [pend1] }).ember.pend = [pend1])
    ∧ ((e fun x => { x with flushing := true }).ember.flushing = true ∧ owned.ember.clearing.isNone = true
      ∧ (let s := e fun x => { x with flushing := true, clearing := some 4 }
         s.ember.clearing = some 4 ∧ ∀ x ∈ s.ember.pend, x.cls ≠ .emberCleared))
    ∧ (up.ember.winReady = true ∧ (e fun x => { x with winReady := false }).ember.winReady = false ∧ up.pwr.perstN = true
      ∧ (e fun x => { x with pageFail := true }).ember.pageFail = true)
    ∧ (up.safety.state = .service ∧ (∀ r, (ringGet up r).state ≠ .running)
      ∧ ∃ r, (ringGet (ringed ring1) r).state = .running)
    ∧ ((e fun x => { x with frozen := true }).ember.frozen = true ∧ owned.ember.writing = false
      ∧ (let s := { up with ember := { up.ember with frozen := true }, pwr := { up.pwr with ticks := 3200000 } }
         s.ember.frozenAt + 3200000 ≤ s.pwr.ticks)
      ∧ up.pwr.ticks < up.ember.frozenAt + 3200000)
    ∧ (let s := e fun x => { x with next := 8, clear := 3 }
       ackedAs (chanGet s (.s 0)) (svcSeq s) = none ∧ badLength (chanGet s (.s 0)).buf.toList = false
        ∧ groupSize s < 3 ∧ 3 ≤ groupSize three ∧ s.sec.session = .owned ∧ serialLt s.ember.next 8 = false
        ∧ serialLt s.ember.clear 8 = true ∧ serialLt s.ember.clear 4 = true ∧ s.ember.frozen = false
        ∧ s.ember.flushing = false ∧ serialLt s.ember.next 9 = true ∧ serialLt s.ember.clear 3 = false) := by decide +kernel

/-- Glow that runs and that is held; 50 ms without a heartbeat; the fourth and the fifth restart within 10 s; loads at both
thresholds. -/
theorem test_meets_GlowSupervision :
    let m := fun (f : Mgmt → Mgmt) => { up with
      mgmt := f { up.mgmt with glow := 2 }, pwr := { up.pwr with ticks := 1600000 } }
    (Live up ∧ glowUp (m id) = true ∧ (m id).pwr.waitGlow = false ∧ (m id).mgmt.beatAt + 1600000 ≤ (m id).pwr.ticks
      ∧ (m fun x => { x with beatAt := 1 }).pwr.ticks < (m fun x => { x with beatAt := 1 }).mgmt.beatAt + 1600000
      ∧ restarts10s (m fun x => { x with restartAt := [999, 998, 997] }) < 4
      ∧ 4 ≤ restarts10s (m fun x => { x with restartAt := [999, 998, 997, 996] }))
    ∧ (loadOpen (m fun x => { x with glow := 5 }) = true ∧ (m id).mgmt.busy = false ∧ up.pwr.perstN = true)
    ∧ ((zeros 4).length = 4 ∧ (4 : BitVec 16).toNat % (zeros 4).length = 0 ∧ (4 : BitVec 16).toNat % (zeros 8).length ≠ 0
      ∧ (zeros 1).length ≠ 4 ∧ (zeros 1).length ≠ 8)
    ∧ ((90 : Nat) < 91 ∧ (69 : Nat) < 70 ∧ (70 : Nat) ≤ 70 ∧ (90 : Nat) ≤ 90)
    ∧ (m fun x => { x with glow := 3, high := 1 }).mgmt.glow = 3 ∧ (m fun x => { x with glow := 4, lowRun := 4 }).mgmt.glow = 4 := by
  decide +kernel

/-! ### Power -/

def startOk : StartupObs := { (default : StartupObs) with
  fusesOk := true, cfgOk := true, reflectorOk := true, hottest := 40, cfgPeriod := 120 }

def waitingGlow : State :=
  { up with
    pwr := { up.pwr with ready := false, step := 8, waitGlow := true }
    safety := { up.safety with state := .startup }, mgmt := { up.mgmt with glow := 1 } }

/-- A clean start-up, with and without glow, one that waits, the two HALTs with dies and fuses at their bounds, and the wait
for glow with both verdicts, before and at its 140 ms. -/
theorem test_meets_StartUp :
    (State.reset.pwr.pwrGood = false ∧ State.reset.pwr.pwrFailN = true ∧ State.reset.pwr.railLow = 0
      ∧ startOk.glowOk = false ∧ { startOk with glowOk := true }.glowOk = true
      ∧ { startOk with trimTest := true }.trimTest = true ∧ startOk.hottest < tempWarnAt State.reset
      ∧ { startOk with fusesOk := false }.fusesOk = false
      ∧ ((List.range 4).filter fun d => !(3 : BitVec 4).getLsbD d).length < 3)
    ∧ StartClean State.reset startOk
    ∧ (Live waitingGlow ∧ waitingGlow.pwr.waitGlow = true ∧ waitingGlow.safety.state = .startup
      ∧ waitingGlow.pwr.preS1 = [] ∧ waitingGlow.safety.queue.length < 7 ∧ glowUp waitingGlow = true
      ∧ waitingGlow.pwr.reflectorOk = true
      ∧ ({ waitingGlow with pwr := { waitingGlow.pwr with reflectorOk := false } } : State).pwr.reflectorOk = false
      ∧ waitingGlow.pwr.ticks < waitingGlow.mgmt.beatAt + 4480000
      ∧ (let s := { waitingGlow with pwr := { waitingGlow.pwr with ticks := 4480000 } }
         s.mgmt.beatAt + 4480000 ≤ s.pwr.ticks)) := by
  refine ⟨by decide +kernel, ⟨rfl, by decide, rfl, rfl, rfl, rfl, rfl, by decide +kernel, rfl⟩, by decide +kernel⟩

/-- A device reset, its end, a low rail and its return, and each band of the temperature at its bounds. -/
theorem test_meets_SuppliesAndTemperature :
    let p := fun (f : Pwr → Pwr) => { up with pwr := f up.pwr }
    (up.pwr.pwrGood = true ∧ up.pwr.perstSeen = true ∧ up.pwr.perstN = true ∧ up.pwr.pstate ≠ .pilot
      ∧ (p fun x => { x with resetPend := true }).pwr.resetPend = true ∧ up.pwr.powerFail = false
      ∧ up.pwr.trimTest = false ∧ up.pwr.resetPend = false)
    ∧ StartClean (p fun x => { x with resetPend := true }) startOk
    ∧ (up.pwr.pwrFailN = true ∧ up.pwr.railLow &&& railBit .mem = 0
      ∧ (let s := p fun x => { x with powerFail := true, railLow := railBit .mem }
         s.pwr.powerFail = true ∧ s.pwr.ready = true ∧ s.safety.state = .service ∧ relights10s s < 2
          ∧ s.pwr.railLow = railBit .mem ∧ s.pwr.pwrFailN = true)
      ∧ (p fun x => { x with pstate := .pilot, ready := false }).pwr.pstate = .pilot
      ∧ (p fun x => { x with powerFail := true, pwrFailN := false }).pwr.railLow = 0)
    ∧ (up.pwr.heldStart = none ∧ tempLowAt up ≤ 97 ∧ (97 : Int) ≤ tempWarnAt up - 3 ∧ tempWarnAt up - 3 < 98
      ∧ (99 : Int) < tempWarnAt up ∧ tempWarnAt up ≤ 100 ∧ (109 : Int) < tempTripAt up ∧ (-1 : Int) < tempLowAt up
      ∧ tempTripAt up ≤ 110 ∧ up.pwr.tripped = false) := by
  refine ⟨by decide, ⟨rfl, by decide, rfl, rfl, rfl, rfl, rfl, by decide +kernel, rfl⟩, by decide, by decide⟩

def dozy : State := { up with pwr := { up.pwr with dozeEn := true, ticks := 10 ^ 9 } }

/-- Doze due and not due; a wake with a job ready; a device that may enter the pilot state and one that may not. -/
theorem test_meets_DozeAndPilot :
    let a := { up with pwr := { up.pwr with pstate := .doze, pilotArm := true } }
    (Live up ∧ dozeDue up = false ∧ dozeDue dozy = true ∧ a.pwr.pstate = .doze ∧ (1 : W32).getLsbD 0 = true)
    ∧ (∀ d ∈ a.descs, d.stage ≠ .ready)
    ∧ (let d := entry .ready run0
       let s := setLant { with1 up1 [d] with
         sluice := { up1.sluice with images := [(7, image0)] }, pwr := { up1.pwr with pstate := .doze } } 0
         { Lantern.reset with retain := .retained }
       Live s ∧ s.pwr.pstate = .doze ∧ d ∈ s.descs ∧ d.stage = .ready ∧ jobImage s d = some image0
        ∧ 0 ∈ maskPhys s image0.lanternSet ∧ (lant s 0).job = none ∧ (lant s 0).retain = .retained)
    ∧ (Live a ∧ a.pwr.pilotArm = true ∧ pilotAllowed a = true
      ∧ pilotAllowed { up with pwr := { up.pwr with pilotArm := true } } = false)
    ∧ (let s := { up with pwr := { up.pwr with pstate := .pilot, hub := false, ready := false } }
       s.pwr.pwrGood = true ∧ s.pwr.pstate = .pilot ∧ s.pwr.perstN = true ∧ s.pwr.saveDigest = none
        ∧ ({ s with pwr := { s.pwr with saveDigest := some 0 } } : State).pwr.saveDigest.isSome = true
        ∧ s.pwr.powerFail = false ∧ s.pwr.trimTest = false
        ∧ ({ s with pwr := { s.pwr with powerFail := true } } : State).pwr.powerFail = true)
    ∧ StartClean { up with pwr := { up.pwr with pstate := .pilot, hub := false, ready := false } } startOk
    ∧ startOk.glowOk = false := by
  refine ⟨by decide, by decide, by decide +kernel, by decide, by decide +kernel,
    ⟨rfl, by decide, rfl, rfl, rfl, rfl, rfl, by decide +kernel, rfl⟩, rfl⟩

/-- The three ways, and epochs on both sides of half the range. -/
theorem test_meets_EpochRule :
    State.reset.pwr.pwrGood = false
    ∧ (let s := { up with pwr := { up.pwr with resetPend := true } }
       s.pwr.pwrGood = true ∧ s.pwr.resetPend = true ∧ s.pwr.powerFail = false)
    ∧ serialLe (0xFFFFFFFF : W32) 0 = true ∧ serialLe (0 : W32) 0x7FFFFFFF = true ∧ serialLe (0 : W32) 0x80000000 = false := by
  decide

/-- Steps that answer a next state, from states in which each invariant says something. -/
theorem test_meets_Invariants :
    MemWf State.reset ∧ HaltStops State.reset
    ∧ (after .stopRelease { up with safety := { up.safety with state := .halt } } (fun t => t.safety.state)) = some .halt
    ∧ (after .deviceReset { up with safety := { up.safety with state := .halt } } (fun t => t.safety.state))
        = some .startup
    ∧ ownerKey owned = some 77
    ∧ (after .stopRelease owned ownerKey) = some (some 77) := by
  refine ⟨⟨by decide, by decide, ?_, List.forall_mem_nil _, List.forall_mem_nil _⟩, fun h => absurd h (by decide), by decide, by decide +kernel,
    by decide +kernel, by decide +kernel⟩
  decide +kernel

end Sys2Proof.Tests
end

/-! # Register reads that change something (O4)

A host read goes through the link, the checks of `busRead`, the address decoding of `readWord0` and, for an RC register,
`clearRc`. One lemma per layer; the statement is put together from them. -/

namespace Sys2Proof.Machine

open Sys2Proof

/-! ## The link and the bus -/

/-- An access of the host reaches the hub over a link that is up (R472). -/
theorem busLive_of_onLink {s : State} (h : OnLink s) (f : State → State) : busLive s f = .next (f s) := by
  obtain ⟨hhub, hperst⟩ := h
  simp [busLive, pcieUp, hhub, hperst]

/-- An aligned 4 B read of BAR0 below the device memory window reads one word and puts it on the bus. -/
theorem busRead_bar0_b4 (s : State) (off counted : Nat) (h4 : off % 4 = 0) (hwin : off < 0x80_0000) :
    busRead s .bar0 off .b4 counted
      = setBus (readWord0 s off (counted % 2 ^ 32)).1 (readWord0 s off (counted % 2 ^ 32)).2 := by
  have hbelow : inMemWin .bar0 off = false := by simp only [inMemWin, Bool.and_eq_false_iff, decide_eq_false_iff_not]; omega
  simp [busRead, accOk, h4, hbelow, readWord]

/-! ## Which registers have a read effect of their own -/

/-- The offset of a word of BAR0 below the spout block whose read has no other effect than on its RC fields: not of the trace
window and not `PILOT_TIME_LO`. -/
abbrev PlainWord (off : Nat) : Prop := off % 4 = 0 ∧ off < 0x80000 ∧ isTraceWin off = false ∧ off ≠ 0x108

theorem plainWord_of_bounds {off : Nat} (h4 : off % 4 = 0) (hlo : 0x22000 ≤ off) (hhi : off < 0x80000) : PlainWord off := by
  refine ⟨h4, hhi, ?_, by omega⟩
  simp only [isTraceWin, decide_eq_false_iff_not]
  omega

theorem readWord0_of_plainWord (s : State) {off : Nat} (counted : Nat) (h : PlainWord off) :
    readWord0 s off counted = (clearRc s off counted, readReg s off) := by
  obtain ⟨-, hspout, htrace, htime⟩ := h
  have hrecv : ¬ (0x81080 ≤ off ∧ off < 0x810C0) := by omega
  have hlock : ¬ (0x81100 ≤ off ∧ off < 0x81200) := by omega
  simp [readWord0, hrecv, hlock, htrace, htime]

/-- The trace window is a block of its own among the registers. -/
theorem readReg_traceWin (s : State) {off : Nat} (h : off < 0x1000) : readReg s (0x21000 + off) = traceWord s off := by
  have hglobal : ¬ 0x21000 + off < 0x3000 := by omega
  have hring : ¬ (0x10000 ≤ 0x21000 + off ∧ 0x21000 + off < 0x11000) := by omega
  have hblock : ¬ (0x11000 ≤ 0x21000 + off ∧ 0x21000 + off < 0x11014) := by omega
  have hsluice : ¬ (0x20000 ≤ 0x21000 + off ∧ 0x21000 + off < 0x20034) := by omega
  have hin : 0x21000 ≤ 0x21000 + off ∧ 0x21000 + off < 0x22000 := by omega
  unfold readReg
  rw [if_neg hglobal, if_neg hring, if_neg hblock, if_neg hsluice, if_pos hin, Nat.add_sub_cancel_left]

/-- A read in the trace window leaves doze and returns the word at its offset in the window. -/
theorem readWord0_traceWin (s : State) {off : Nat} (counted : Nat) (h : off < 0x1000) :
    readWord0 s (0x21000 + off) counted = (dozeLeave s, traceWord s off) := by
  have hrecv : ¬ (0x81080 ≤ 0x21000 + off ∧ 0x21000 + off < 0x810C0) := by omega
  have hlock : ¬ (0x81100 ≤ 0x21000 + off ∧ 0x21000 + off < 0x81200) := by omega
  have hin : isTraceWin (0x21000 + off) = true := by simp only [isTraceWin, decide_eq_true_eq]; omega
  rw [readWord0, if_neg hrecv, if_neg hlock, if_pos hin, readReg_traceWin s h]

/-- Outside doze there is no doze to leave. -/
theorem dozeLeave_of_awake {s : State} (h : s.pwr.pstate ≠ .doze) : dozeLeave s = s := by
  simp [dozeLeave, h]

/-! ## Clearing the RC fields (R10, R501) -/

theorem bit_eq_testBit (v i : Nat) : bit v i = v.testBit i := by
  rw [bit, Nat.testBit_eq_decide_div_mod_eq]
  rfl

/-- An RC field of the low word holds after a read the event that the read's cycle counts into it, or 0. -/
theorem afterRc_lowWord (c : W64) {k : Nat} (hk : k < 32) (w : Nat) :
    afterRc (c.toNat % 2 ^ 32) k w = BitVec.ofNat w (if c.getLsbD k then 1 else 0) := by
  rw [afterRc, b2n, bit_eq_testBit, Nat.testBit_mod_two_pow, BitVec.testBit_toNat]
  simp [hk]

theorem clearRc_lantern (s : State) (n : Fin 32) (p : Phys) (counted : Nat) (h : physOf s n.val = some p) :
    clearRc s (0x40100 + 4 * n.val) counted = modLant s p fun l => { l with eccCorr := afterRc counted 16 16 } := by
  have hin : 0x40100 ≤ 0x40100 + 4 * n.val ∧ 0x40100 + 4 * n.val < 0x40180 := by omega
  have hnum : (0x40100 + 4 * n.val - 0x40100) / 4 = n.val := by omega
  simp only [clearRc, if_pos hin, hnum, h]

theorem clearRc_klinkPort (s : State) (p : Fin 4) (counted : Nat) :
    clearRc s (0x60010 + 4 * p.val) counted = { s with klink := { s.klink with
      ports := s.klink.ports.set p { s.klink.ports.get p with crcErr := afterRc counted 16 16 } } } := by
  have hlant : ¬ (0x40100 ≤ 0x60010 + 4 * p.val ∧ 0x60010 + 4 * p.val < 0x40180) := by omega
  have hin : 0x60010 ≤ 0x60010 + 4 * p.val ∧ 0x60010 + 4 * p.val < 0x60020 := by omega
  have hport : Fin.ofNat 4 ((0x60010 + 4 * p.val - 0x60010) / 4) = p := by
    apply Fin.ext
    simp only [Fin.ofNat]
    omega
  simp only [clearRc, if_neg hlant, if_pos hin, hport]

/-! ## The commands -/

/-- A 4 B `RC_FIELD_READ` of a plain word of BAR0 returns the word as it was and clears its RC fields. -/
theorem exec_rcFieldRead_b4 {s : State} (hs : OnLink s) {off : Nat} (c : W64) (h : PlainWord off) :
    exec (.rcFieldRead .bar0 (BitVec.ofNat 24 off) .b4 c) s
      = .next (setBus (clearRc s off (c.toNat % 2 ^ 32)) (readReg s off)) := by
  have ⟨h4, hspout, _, _⟩ := h
  have hoff : (BitVec.ofNat 24 off).toNat = off := by rw [BitVec.toNat_ofNat]; omega
  calc exec (.rcFieldRead .bar0 (BitVec.ofNat 24 off) .b4 c) s
      = busLive s fun s => busRead s .bar0 (BitVec.ofNat 24 off).toNat .b4 c.toNat := rfl
    _ = .next (setBus (clearRc s off (c.toNat % 2 ^ 32)) (readReg s off)) := by
      rw [busLive_of_onLink hs, hoff, busRead_bar0_b4 s off _ h4 (by omega), readWord0_of_plainWord s _ h]

/-- A 4 B `TRACE_WIN_READ` outside doze returns the word at its offset and changes nothing else. -/
theorem exec_traceWinRead_b4 {s : State} (hs : OnLink s) (off : BitVec 12) (hd : s.pwr.pstate ≠ .doze)
    (h4 : off.toNat % 4 = 0) : exec (.traceWinRead off .b4) s = .next (setBus s (traceWord s off.toNat)) := by
  have hoff : off.toNat < 0x1000 := off.isLt
  calc exec (.traceWinRead off .b4) s
      = busLive s fun s => busRead s .bar0 (0x21000 + off.toNat) .b4 0 := rfl
    _ = .next (setBus s (traceWord s off.toNat)) := by
      rw [busLive_of_onLink hs, busRead_bar0_b4 s _ _ (by omega) (by omega), readWord0_traceWin s _ hoff,
        dozeLeave_of_awake hd]

/-- `PILOT_TIME_READ` latches the high part of pilot time and returns the low part. -/
theorem exec_pilotTimeRead {s : State} (hs : OnLink s) :
    exec .pilotTimeRead s = .next (setBus (pilotTimeLatch s) (s.pwr.ticks % 2 ^ 32)) :=
  busLive_of_onLink hs fun s => setBus (pilotTimeLatch s) (s.pwr.ticks % 2 ^ 32)

/-- Settles O4: each RC register by its clause of `clearRc`, the trace window and `PILOT_TIME_LO` by their own read. -/
theorem readsWithEffects : Obligations.ReadsWithEffects := by
  unfold Obligations.ReadsWithEffects
  constructor
  · intro s c hs got left
    have hleft : ∀ k w, k < 32 → left k w = afterRc (c.toNat % 2 ^ 32) k w := fun k w hk => (afterRc_lowWord c hk w).symm
    rw [hleft 16 16 (by decide), hleft 0 16 (by decide), hleft 8 8 (by decide), hleft 16 8 (by decide)]
    refine ⟨?disSlots, ?directory, ?speculation, ?tagFail, ?violations, fun p => ?crcErr, fun n p hp => ?ecc⟩
    case disSlots => exact exec_rcFieldRead_b4 (off := 0x2008) hs c (by decide)
    case directory => exact exec_rcFieldRead_b4 (off := 0x3000C) hs c (by decide)
    case speculation => exact exec_rcFieldRead_b4 (off := 0x30014) hs c (by decide)
    case tagFail => exact exec_rcFieldRead_b4 (off := 0x50014) hs c (by decide)
    case violations => exact exec_rcFieldRead_b4 (off := 0x0204) hs c (by decide)
    case crcErr =>
      rw [exec_rcFieldRead_b4 hs c (plainWord_of_bounds (by omega) (by omega) (by omega)), clearRc_klinkPort]
      rfl
    case ecc =>
      rw [exec_rcFieldRead_b4 hs c (plainWord_of_bounds (by omega) (by omega) (by omega)), clearRc_lantern s n p _ hp]
      rfl
  · exact fun s off hs => ⟨exec_traceWinRead_b4 hs off, exec_pilotTimeRead hs⟩

end Sys2Proof.Machine

/-! # Doze and the pilot state (O53)

`dozeLeave` and `leavePilot` are put together from small operations: the wake of basins, the K-links' enabling, the shadow
header's refresh. First what each of these can write, then the two states' entries and wakes, and last the start-up after a
device reset, which a wake with a failed digest runs. -/

namespace Sys2Proof.Machine

open Sys2Proof

/-! ## Wakes of basins (R18, R56) -/

/-- A retained basin whose lantern no job uses: the sluice may wake it. -/
abbrev IsCold (l : Lantern) : Prop := l.retain = .retained ∧ l.job = none

/-- A lantern whose basin's wake begins at tick `now` and takes 12 µs. -/
def wokenAt (now : Nat) (l : Lantern) : Lantern := { l with retain := .waking (now + 384), idle := none }

/-- The lanterns that a job is to use: those of its image's lantern set. -/
def wakeSet (s : State) (d : DescEntry) : List Phys :=
  match jobImage s d with
  | some img => maskPhys s img.lanternSet
  | none => []

/-- Basins wake only in a device whose slot grid runs. -/
abbrev CanWake (s : State) : Prop := s.pwr.pstate ≠ .doze ∧ s.pwr.pstate ≠ .pilot

/-- A wake of basins writes lanterns and the power state alone, and it leaves hold for run. -/
def WakeFrame (s t : State) : Prop :=
  ∃ v st, t = { s with lanterns := v, pwr := { s.pwr with pstate := st } } ∧ (st = s.pwr.pstate ∨ st = .run)

theorem WakeFrame.refl (s : State) : WakeFrame s s := ⟨s.lanterns, s.pwr.pstate, rfl, .inl rfl⟩

theorem WakeFrame.trans {a b c : State} (h : WakeFrame a b) (k : WakeFrame b c) : WakeFrame a c := by
  obtain ⟨v, st, rfl, hst⟩ := h
  obtain ⟨w, st', rfl, hst'⟩ := k
  refine ⟨w, st', rfl, ?_⟩
  rcases hst' with rfl | rfl
  · exact hst
  · exact .inr rfl

theorem WakeFrame.canWake {s t : State} (h : WakeFrame s t) (hs : CanWake s) : CanWake t := by
  obtain ⟨v, st, rfl, rfl | rfl⟩ := h
  · exact hs
  · exact ⟨PState.noConfusion, PState.noConfusion⟩

theorem WakeFrame.ticks {s t : State} (h : WakeFrame s t) : t.pwr.ticks = s.pwr.ticks := by
  obtain ⟨v, st, rfl, -⟩ := h; rfl

theorem WakeFrame.wakeSet {s t : State} (h : WakeFrame s t) (d : DescEntry) : wakeSet t d = wakeSet s d := by
  obtain ⟨v, st, rfl, -⟩ := h; rfl

/-- One basin's wake, as `wakeLanterns` folds it over the lanterns. -/
def wakeOne (s : State) (p : Phys) : State := modLant s p (wokenAt s.pwr.ticks)

theorem wakeOnes_frame (l : List Phys) (s : State) : ∃ v, l.foldl wakeOne s = { s with lanterns := v } := by
  induction l generalizing s with
  | nil => exact ⟨s.lanterns, rfl⟩
  | cons p t ih =>
    obtain ⟨v, h⟩ := ih (wakeOne s p)
    exact ⟨v, h⟩

theorem lant_wakeOnes (l : List Phys) (s : State) (q : Phys) :
    lant (l.foldl wakeOne s) q = if q ∈ l then wokenAt s.pwr.ticks (lant s q) else lant s q := by
  induction l generalizing s with
  | nil => simp
  | cons p t ih =>
    have hstep : lant (wakeOne s p) q = if p = q then wokenAt s.pwr.ticks (lant s p) else lant s q := lant_modLant s p q _
    have hticks : (wakeOne s p).pwr.ticks = s.pwr.ticks := rfl
    rw [List.foldl_cons, ih, hstep, hticks]
    by_cases hpq : p = q
    · subst hpq
      simp [wokenAt]
    · simp [hpq, Ne.symm hpq]

/-- The lanterns of a list that a wake acts on. -/
def coldOf (s : State) (ps : List Phys) : List Phys :=
  ps.filter fun p => (lant s p).retain == .retained && (lant s p).job.isNone

theorem mem_coldOf {s : State} {ps : List Phys} {q : Phys} : q ∈ coldOf s ps ↔ q ∈ ps ∧ IsCold (lant s q) := by
  simp [coldOf]

theorem wakeLanterns_eq {s : State} (h : CanWake s) (ps : List Phys) :
    wakeLanterns s ps = if (coldOf s ps).isEmpty then s
      else { (coldOf s ps).foldl wakeOne s with pwr := { s.pwr with pstate := .run } } := by
  obtain ⟨v, hv⟩ := wakeOnes_frame (coldOf s ps) s
  have hpwr : ((coldOf s ps).foldl wakeOne s).pwr = s.pwr := by rw [hv]
  have hdef : wakeLanterns s ps = if (coldOf s ps).isEmpty || s.pwr.pstate == .doze || s.pwr.pstate == .pilot then s
      else { (coldOf s ps).foldl wakeOne s with pwr := { ((coldOf s ps).foldl wakeOne s).pwr with pstate := .run } } := rfl
  rw [hdef, hpwr]
  simp [h.1, h.2]

theorem wakeLanterns_frame {s : State} (h : CanWake s) (ps : List Phys) : WakeFrame s (wakeLanterns s ps) := by
  rw [wakeLanterns_eq h]
  split
  · exact .refl s
  · obtain ⟨v, hv⟩ := wakeOnes_frame (coldOf s ps) s
    exact ⟨v, .run, by rw [hv], .inr rfl⟩

/-- A wake acts on the cold lanterns that it is given, and on no other. -/
theorem lant_wakeLanterns {s : State} (h : CanWake s) (ps : List Phys) (q : Phys) :
    lant (wakeLanterns s ps) q = if q ∈ ps ∧ IsCold (lant s q) then wokenAt s.pwr.ticks (lant s q) else lant s q := by
  rw [wakeLanterns_eq h]
  split
  case isTrue hnone =>
    have hq : ¬ (q ∈ ps ∧ IsCold (lant s q)) := by
      rw [← mem_coldOf, List.isEmpty_iff.mp hnone]
      exact List.not_mem_nil
    rw [if_neg hq]
  case isFalse =>
    have hfold := lant_wakeOnes (coldOf s ps) s q
    simp only [mem_coldOf] at hfold
    exact hfold

theorem wakeJob_eq {s : State} (h : CanWake s) (d : DescEntry) : wakeJob s d = wakeLanterns s (wakeSet s d) := by
  unfold wakeJob wakeSet
  cases jobImage s d with
  | some img => rfl
  | none => rw [wakeLanterns_eq h]; rfl

theorem wakeJobs_frame (ds : List DescEntry) {s : State} (h : CanWake s) : WakeFrame s (ds.foldl wakeJob s) := by
  induction ds generalizing s with
  | nil => exact .refl s
  | cons d t ih =>
    have hd : WakeFrame s (wakeJob s d) := wakeJob_eq h d ▸ wakeLanterns_frame h _
    exact hd.trans (ih (hd.canWake h))

theorem not_isCold_wokenAt (now : Nat) (l : Lantern) : ¬ IsCold (wokenAt now l) := fun h => Retain.noConfusion h.1

/-- The wakes for a list of jobs wake each cold lantern that one of them is to use, once. -/
theorem lant_wakeJobs (ds : List DescEntry) {s : State} (h : CanWake s) (q : Phys) :
    lant (ds.foldl wakeJob s) q
      = if (∃ d ∈ ds, q ∈ wakeSet s d) ∧ IsCold (lant s q) then wokenAt s.pwr.ticks (lant s q) else lant s q := by
  induction ds generalizing s with
  | nil => simp
  | cons d t ih =>
    have hd : WakeFrame s (wakeJob s d) := wakeJob_eq h d ▸ wakeLanterns_frame h _
    have hlant : lant (wakeJob s d) q
        = if q ∈ wakeSet s d ∧ IsCold (lant s q) then wokenAt s.pwr.ticks (lant s q) else lant s q := by
      rw [wakeJob_eq h, lant_wakeLanterns h]
    rw [List.foldl_cons, ih (hd.canWake h), hd.ticks]
    simp only [hd.wakeSet, List.exists_mem_cons_iff]
    by_cases hnow : q ∈ wakeSet s d ∧ IsCold (lant s q)
    · rw [hlant, if_pos hnow, if_neg fun hc => not_isCold_wokenAt _ _ hc.2, if_pos ⟨.inl hnow.1, hnow.2⟩]
    · rw [hlant, if_neg hnow]
      by_cases hcold : IsCold (lant s q)
      · have hq : q ∉ wakeSet s d := fun hq => hnow ⟨hq, hcold⟩
        simp only [hq, false_or]
      · rw [if_neg fun hc => hcold hc.2, if_neg fun hc => hcold hc.2]

theorem wakeReady_frame {s : State} (h : CanWake s) : WakeFrame s (wakeReady s) := wakeJobs_frame _ h

theorem wakeReady_of_none {s : State} (h : ∀ d ∈ s.descs, d.stage ≠ .ready) : wakeReady s = s := by
  have hnone : (s.descs.filter fun d => d.stage == .ready) = [] := by simpa [List.filter_eq_nil_iff] using h
  rw [wakeReady, hnone, List.foldl_nil]

/-- The cold lanterns that a ready job is to use begin to wake. -/
theorem lant_wakeReady {s : State} (h : CanWake s) {d : DescEntry} (hd : d ∈ s.descs) (hready : d.stage = .ready) {q : Phys}
    (hq : q ∈ wakeSet s d) (hcold : IsCold (lant s q)) : lant (wakeReady s) q = wokenAt s.pwr.ticks (lant s q) := by
  have hmem : d ∈ s.descs.filter fun d => d.stage == .ready := List.mem_filter.mpr ⟨hd, by simp [hready]⟩
  rw [wakeReady, lant_wakeJobs _ h, if_pos ⟨⟨d, hmem, hq⟩, hcold⟩]

/-! ## Doze (R466, R467) -/

/-- The device as a wake from doze finds it before its ready jobs wake their basins: in hold, the bank groups awake and the slot
grid begun again. -/
def dozeEnd (s : State) : State :=
  busyNow { startGrid s with
    pwr := { s.pwr with pstate := .hold, pll := pllAll }
    lanterns := s.lanterns.map fun l => { l with diagStart := l.diagStart + (s.pwr.ticks - s.pwr.dozeAt) }
    mem := { s.mem with groups := Vector.replicate 48 .awake } }

theorem dozeLeave_of_doze {s : State} (h : s.pwr.pstate = .doze) : dozeLeave s = wakeReady (dozeEnd s) := by
  have hdef : dozeLeave s = if s.pwr.pstate != .doze then s else wakeReady (dozeEnd s) := rfl
  rw [hdef, h]
  rfl

theorem canWake_dozeEnd (s : State) : CanWake (dozeEnd s) := ⟨PState.noConfusion, PState.noConfusion⟩

theorem lant_dozeEnd (s : State) (p : Phys) :
    lant (dozeEnd s) p = { lant s p with diagStart := (lant s p).diagStart + (s.pwr.ticks - s.pwr.dozeAt) } := by
  simp [lant, dozeEnd, Vector.get_eq_getElem]

/-- What a wake from doze writes: lanterns, slot grid, bank groups, and of the power registers the state, the PLLs and the tick
from which the device idles. -/
theorem dozeLeave_frame {s : State} (h : s.pwr.pstate = .doze) :
    ∃ v st, dozeLeave s = { dozeEnd s with lanterns := v, pwr := { (dozeEnd s).pwr with pstate := st } }
      ∧ (st = .hold ∨ st = .run) := by
  rw [dozeLeave_of_doze h]
  exact wakeReady_frame (canWake_dozeEnd s)

theorem dozeLeave_not_doze (s : State) : (dozeLeave s).pwr.pstate ≠ .doze := by
  by_cases h : s.pwr.pstate = .doze
  · obtain ⟨v, st, ht, rfl | rfl⟩ := dozeLeave_frame h <;> rw [ht] <;> exact PState.noConfusion
  · rwa [dozeLeave_of_awake h]

/-- Leaving doze keeps `PWR_CTRL` as it was. -/
theorem dozeLeave_pwrCtrl (s : State) :
    (dozeLeave s).pwr.dozeEn = s.pwr.dozeEn ∧ (dozeLeave s).pwr.pilotArm = s.pwr.pilotArm := by
  by_cases h : s.pwr.pstate = .doze
  · obtain ⟨v, st, ht, -⟩ := dozeLeave_frame h
    rw [ht]
    exact ⟨rfl, rfl⟩
  · rw [dozeLeave_of_awake h]
    exact ⟨rfl, rfl⟩

theorem dozeLeave_hold {s : State} (h : s.pwr.pstate = .doze) (hnone : ∀ d ∈ s.descs, d.stage ≠ .ready) :
    (dozeLeave s).pwr.pstate = .hold := by
  rw [dozeLeave_of_doze h, wakeReady_of_none (s := dozeEnd s) hnone]
  rfl

/-- The basins of the lanterns that a ready job is to use begin to wake as doze ends. -/
theorem dozeLeave_wakes {s : State} (h : s.pwr.pstate = .doze) {d : DescEntry} (hd : d ∈ s.descs) (hready : d.stage = .ready)
    {img : PlanImage} (himg : jobImage s d = some img) {p : Phys} (hp : p ∈ maskPhys s img.lanternSet)
    (hcold : IsCold (lant s p)) : (lant (dozeLeave s) p).retain = .waking (s.pwr.ticks + 384) := by
  have hset : p ∈ wakeSet (dozeEnd s) d := by
    have himg' : jobImage (dozeEnd s) d = some img := himg
    rw [wakeSet, himg']
    exact hp
  have hcold' : IsCold (lant (dozeEnd s) p) := by rw [lant_dozeEnd]; exact hcold
  rw [dozeLeave_of_doze h, lant_wakeReady (canWake_dozeEnd s) hd hready hset hcold']
  rfl

/-- The entry to doze gates and retains every lantern, with its basin's contents. -/
theorem lant_enterDoze (s : State) (p : Phys) :
    lant (enterDoze s) p = { lant s p with gated := true, retain := .retained, idle := none } := by
  simp [lant, enterDoze, Vector.get_eq_getElem]

theorem exec_dozeEntry {s : State} (hs : Live s) :
    exec .dozeEntry s = .next (if dozeDue s then enterDoze s else s) :=
  live_of_hub hs fun s => if dozeDue s then enterDoze s else s

/-- `PWR_CTRL.DOZE_EN` takes a value. -/
def setDozeEn (s : State) (on : Bool) : State := { s with pwr := { s.pwr with dozeEn := on } }

theorem setDozeEn_self (s : State) : setDozeEn s s.pwr.dozeEn = s := rfl

/-- A wake for an access, of a descriptor or of a memory, is a departure from doze. -/
theorem exec_dozeWake_of_access {s : State} (hs : Live s) {c : WakeCause} (hc : c ≠ .dozeDisabled) :
    exec (.dozeWake c) s = .next (dozeLeave s) := by
  cases c with
  | dozeDisabled => exact absurd rfl hc
  | descriptor => exact live_of_hub hs dozeLeave
  | memoryAccess => exact live_of_hub hs dozeLeave

/-- A wake is a departure from doze; of its causes only the write of `PWR_CTRL` clears `DOZE_EN`. -/
theorem exec_dozeWake {s : State} (hs : Live s) (c : WakeCause) :
    exec (.dozeWake c) s = .next (dozeLeave (setDozeEn s (s.pwr.dozeEn && c != .dozeDisabled))) := by
  by_cases hc : c = .dozeDisabled
  · rw [hc, bne_self_eq_false, Bool.and_false]
    exact live_of_hub hs fun s => dozeLeave (setDozeEn s false)
  · rw [bne_iff_ne.mpr hc, Bool.and_true, setDozeEn_self, exec_dozeWake_of_access hs hc]

/-- A written `DOZE_IDLE` fits its field, so that it is 0 as a field exactly when it is 0 as a number. -/
theorem dozeIdle_eq_zero_iff (v : W32) : BitVec.ofNat 8 (bits v.toNat 15 8) = 0 ↔ bits v.toNat 15 8 = 0 := by
  have hlt : bits v.toNat 15 8 < 256 := Nat.mod_lt _ (by decide)
  constructor
  · intro h
    have := congrArg BitVec.toNat h
    simpa [Nat.mod_eq_of_lt hlt] using this
  · intro h
    rw [h]
    rfl

theorem exec_pilotArmWrite {s : State} (hs : OnLink s) (v : W32) : exec (.pilotArmWrite v) s = .next (pwrCtrlWrite s v) :=
  busLive_of_onLink hs fun s => pwrCtrlWrite s v

theorem pwrCtrlWrite_of_enabled (s : State) {v : W32} (h : v.getLsbD 0 = true) :
    pwrCtrlWrite s v = { s with pwr := { s.pwr with
      dozeEn := true, pilotArm := v.getLsbD 1
      dozeIdle := if bits v.toNat 15 8 = 0 then s.pwr.dozeIdle else BitVec.ofNat 8 (bits v.toNat 15 8) } } := by
  simp only [pwrCtrlWrite, h, if_true, dozeIdle_eq_zero_iff]

/-- A write that clears `DOZE_EN` ends a doze in progress. -/
theorem pwrCtrlWrite_of_disabled (s : State) {v : W32} (h : v.getLsbD 0 = false) :
    ∃ s1, pwrCtrlWrite s v = dozeLeave s1 ∧ s1.pwr.dozeEn = false ∧ s1.pwr.pilotArm = v.getLsbD 1 :=
  ⟨_, by simp only [pwrCtrlWrite, h, Bool.false_eq_true, if_false]; rfl, rfl, rfl⟩

/-! ## The pilot state (R468 to R470) -/

theorem exec_pilotEntry {s : State} (hs : Live s) (harm : s.pwr.pilotArm = true) :
    exec .pilotEntry s = .next (if pilotAllowed s then enterPilot s
      else raise { s with pwr := { s.pwr with pilotArm := false } } .pilotReqRefused []) := by
  have hdef : exec .pilotEntry s = live s fun s =>
    if !s.pwr.pilotArm then s
    else if pilotAllowed s then enterPilot s
    else raise { s with pwr := { s.pwr with pilotArm := false } } .pilotReqRefused [] := rfl
  rw [hdef, live_of_hub hs, harm]
  rfl

theorem kGet_enterPilot (s : State) (p : Fin 4) : (kGet (enterPilot s) p).state = 0 := by
  simp [kGet, enterPilot, Vector.get_eq_getElem]

theorem camGet_enterPilot (s : State) (p : Fin 4) : camGet (enterPilot s) p = .reset := by
  simp [camGet, enterPilot, Vector.get_eq_getElem]

/-- The pilot domain keeps the digest of what the entry saved. -/
theorem enterPilot_saveDigest (s : State) :
    (enterPilot s).pwr.saveDigest = some (Config.sm3 (enterPilot s).mem.hubSave) := rfl

theorem kEnable_frame (on : Bool) (s : State) (p : Fin 4) : ∃ k, kEnable on s p = { s with klink := k } := by
  unfold kEnable
  dsimp only
  split
  · split
    · exact ⟨_, rfl⟩
    · exact ⟨s.klink, rfl⟩
  · split
    · exact ⟨s.klink, rfl⟩
    · exact ⟨_, rfl⟩

theorem kEnables_frame (on : Fin 4 → Bool) (l : List (Fin 4)) (s : State) :
    ∃ k, l.foldl (fun s p => kEnable (on p) s p) s = { s with klink := k } := by
  induction l generalizing s with
  | nil => exact ⟨s.klink, rfl⟩
  | cons p t ih =>
    obtain ⟨k, hk⟩ := kEnable_frame (on p) s p
    obtain ⟨k', hk'⟩ := ih (kEnable (on p) s p)
    exact ⟨k', by rw [List.foldl_cons, hk', hk]⟩

/-- A write of `KL_CTRL` writes the K-link unit alone. -/
theorem klCtrlWrite_frame (s : State) (v : W32) : ∃ k, klCtrlWrite s v = { s with klink := k } :=
  kEnables_frame (fun p => v.getLsbD p.val) _ { s with klink := { s.klink with enable := BitVec.ofNat 4 v.toNat } }

/-- A rewrite of the shadow header writes the host's memory and what the rings' block holds of the header, and may raise a
vector. -/
theorem refreshHeader_frame (s : State) : ∃ r h, refreshHeader s = { s with rings := r, host := h } := by
  unfold refreshHeader
  dsimp only
  split
  · split <;> exact ⟨_, _, rfl⟩
  · exact ⟨s.rings, s.host, rfl⟩

/-- The state in which a wake with a good digest leaves the device, before the slot grid and the K-links begin again: hub state
restored, lanterns fresh, the world and the memories' contents lost. -/
def pilotEnd (s : State) : State :=
  let s1 := { s with pwr := { s.pwr with
    pstate := .run, hub := true, ready := true, pll := pllAll, resetPend := false } }
  let s2 := freshLanterns (loseMemories (loseWorld s1) true)
  { s2 with
    safety := { s2.safety with bitmap := [] }
    sluice := { s2.sluice with trace := [] }
    motion := { s2.motion with awaitSync := true }
    mgmt := { s2.mgmt with glow := if s2.mgmt.glow = 0 ∨ s2.mgmt.glow = 5 then s2.mgmt.glow else 1
                           beatAt := s2.pwr.ticks } }

theorem leavePilot_frame (s : State) :
    ∃ r h k, leavePilot s = { busyNow (startGrid (pilotEnd s)) with rings := r, host := h, klink := k } := by
  have hdef : leavePilot s = refreshHeader (busyNow (startGrid
    (klCtrlWrite (pilotEnd s) (BitVec.ofNat 32 (pilotEnd s).klink.enable.toNat)))) := rfl
  obtain ⟨k, hk⟩ := klCtrlWrite_frame (pilotEnd s) (BitVec.ofNat 32 (pilotEnd s).klink.enable.toNat)
  rw [hdef, hk]
  obtain ⟨r, h, ht⟩ := refreshHeader_frame (busyNow (startGrid { pilotEnd s with klink := k }))
  exact ⟨r, h, k, ht⟩

theorem lant_pilotEnd (s : State) (p : Phys) : ∃ l, lant (pilotEnd s) p = freshLantern s.pwr.ticks l := by
  refine ⟨{ lant s p with basin := (lant s p).basin.lose }, ?_⟩
  simp [lant, pilotEnd, freshLanterns, loseMemories, loseWorld, clearWorld, Vector.get_eq_getElem]

/-! ## A start-up without a failure (R471) -/

/-- Start-up's step 5 with a good configuration and no glow image writes neither the power registers but the step, nor the
fuses, the lanterns, the world, the descriptors or the fault handler. -/
theorem loadConfig_frame {o : StartupObs} {s : State} (hcfg : o.cfgOk = true) (hglow : o.glowOk = false) (hpre : s.pwr.preS1 = []) :
    ∃ g m mo k se mg e, loadConfig o s = { s with
      pwr := { s.pwr with step := 5 }, grid := g, mem := m, motion := mo, klink := k, sec := se, mgmt := mg, ember := e } := by
  choose links hlinks using klCtrlWrite_frame
  have hflush : (s.pwr.preS1 != []) = false := by rw [hpre]; rfl
  simp only [loadConfig, hcfg, hglow, if_true, Bool.false_eq_true, if_false, extend, hlinks, emberBoot, hflush]
  exact ⟨_, _, _, _, _, _, _, rfl⟩

/-- Every die that trains is in service. -/
theorem trainDies_frame {o : StartupObs} (s : State) (hddr : o.ddrFail = 0) (hd2d : o.d2dFail = 0) :
    ∃ m, trainDies o s = { s with pwr := { s.pwr with pll := pllAll }, mem := m } ∧ m.present = 0xF := by
  have hnone : ∀ (cls : EventClass) (t : State),
      (List.range 4).foldl (fun t d => if (0 : BitVec 4).getLsbD d then raise t cls [] else t) t = t := by simp
  simp only [trainDies, hddr, hd2d, hnone]
  exact ⟨_, rfl, rfl⟩

theorem presentDies_of_all {s : State} (h : s.mem.present = 0xF) : presentDies s = 4 := by
  have hdef : presentDies s = ((List.range 4).filter s.mem.present.getLsbD).length := rfl
  rw [hdef, h]
  rfl

/-- Start-up's end with a passing reflector check and no event before READY: the device serves. -/
theorem startFinish_frame {s : State} (hpre : s.pwr.preS1 = []) :
    ∃ r h, startFinish s true = { startGrid s with
      pwr := { s.pwr with
        waitGlow := false, step := 10, ready := true, pstate := .run, preS1 := [], idleSince := s.pwr.ticks }
      safety := { s.safety with state := .service }, rings := r, host := h } := by
  simp only [startFinish, hpre, Bool.not_true, Bool.false_eq_true, if_false]
  exact refreshHeader_frame _

/-- What a start-up without a failure comes to: the device serves, and STOP_REQ_N, the world and the descriptors are as they
were. -/
structure StartsFrom (s t : State) : Prop where
  started : Started t
  stop : t.pwr.stop = s.pwr.stop
  world : t.world = s.world
  descs : t.descs = s.descs

/-- The device after step 8, its dies trained to the memories `m` and no lantern failing. -/
def diesUp (m : MemUnit) (s : State) : State :=
  stepDone (freshLanterns (assignMap (stepDone { s with pwr := { s.pwr with pll := pllAll }, mem := m } 7))) 8

/-- Steps 7 to 10 with dies that train, lanterns that pass and no glow image. -/
theorem startDies_clean {o : StartupObs} {s : State} (hddr : o.ddrFail = 0) (hd2d : o.d2dFail = 0) (hself : o.selftestFail = [])
    (hrefl : o.reflectorOk = true) (hglow : o.glowOk = false) (hmap : logicalMap s.fuses ≠ []) (hpre : s.pwr.preS1 = [])
    (hhub : s.pwr.hub = true) : StartsFrom s (startDies o s) := by
  obtain ⟨m, htrain, hall⟩ := trainDies_frame s hddr hd2d
  have hdies : ¬ presentDies { s with pwr := { s.pwr with pll := pllAll }, mem := m } < 3 := by
    rw [presentDies_of_all hall]; decide
  have hmapped : ¬ (freshLanterns (assignMap (stepDone { s with pwr := { s.pwr with pll := pllAll }, mem := m } 7))).map.isEmpty :=
    fun h => hmap (List.isEmpty_iff.mp h)
  have hup : startDies o s = startFinish (diesUp m s) true := by
    simp only [startDies, htrain, if_neg hdies, hself, retire, List.foldl_nil, if_neg hmapped, hglow, hrefl,
      Bool.false_eq_true, if_false, diesUp]
  obtain ⟨r, h, ht⟩ := startFinish_frame (s := diesUp m s) hpre
  rw [hup, ht]
  exact ⟨⟨rfl, rfl, hhub, rfl, rfl⟩, rfl, rfl, rfl⟩

/-- The device after step 4, with good fuses: the hub is up, and M0 and M1 have taken what ran and the fuses. -/
def hubUp (o : StartupObs) (s : State) : State :=
  extendFuses (extend (extend { s with
    pwr := { s.pwr with ticks := s.pwr.ticks + o.ticks, step := 4, heldStart := none, hub := true, pll := pllHub }
    sec := { s.sec with debugOff := s.fuses.lock }
    mem := { s.mem with dramKey := s.mem.dramKey + 1 }
    motion := { s.motion with keyId := BitVec.ofNat 64 (Config.random s.free).toNat }
    free := s.free + 1 } 0 o.romDigest) 0 o.patchDigest)

/-- A start-up from step 3 that meets no failure and no glow image goes through to READY. -/
theorem startFrom3_clean {o : StartupObs} {s : State} (h : StartClean s o) (hglow : o.glowOk = false)
    (htrim : s.pwr.trimTest = false) (hpre : s.pwr.preS1 = []) : StartsFrom s (startFrom3 o s) := by
  obtain ⟨-, hcool, hfuses, hcfg, hddr, hd2d, hself, hmap, hrefl⟩ := h
  have hup : startFrom3 o s = startDies o (loadConfig o (hubUp o s)) := by
    simp only [startFrom3, htrim, Bool.false_eq_true, if_false, if_neg (Int.not_le.mpr hcool), startRun, hfuses, Bool.not_true,
      hubUp]
  obtain ⟨g, m, mo, k, se, mg, e, hconf⟩ := loadConfig_frame (s := hubUp o s) hcfg hglow hpre
  rw [hup, hconf]
  obtain ⟨hstart, hstop, hworld, hdescs⟩ := startDies_clean (s := { hubUp o s with
    pwr := { (hubUp o s).pwr with step := 5 }, grid := g, mem := m, motion := mo, klink := k, sec := se, mgmt := mg, ember := e })
    hddr hd2d hself hrefl hglow hmap hpre rfl
  exact ⟨hstart, hstop, hworld, hdescs⟩

/-- Of the state, only the fuses decide whether a start-up meets a failure. -/
theorem startClean_congr {s t : State} (h : t.fuses = s.fuses) {o : StartupObs} : StartClean t o ↔ StartClean s o := by
  simp only [StartClean, tempWarnAt, h]

/-! ## A device reset (R475) -/

/-- A device reset writes these power registers, and its event, its flush and the jobs' end no other. -/
theorem resetBegin_pwr (s : State) : (resetBegin s).pwr = { s.pwr with
    stop := true, hub := false, ready := false, waitGlow := false, step := 2, pstate := .run, resetPend := true
    heldStart := none, pll := 0, preS1 := [] } := by
  obtain ⟨e, he⟩ := emberEvent_eq (assertStop s) .deviceReset [] false
  obtain ⟨e', he'⟩ := emberFlushStart_eq { assertStop s with ember := e }
  simp only [resetBegin, he, he', endJobs_pwr]
  rfl

theorem resetBegin_fuses (s : State) : (resetBegin s).fuses = s.fuses :=
  ((((assertStop_kept s).trans (emberEvent_kept _ .deviceReset [] false)).trans (emberFlushStart_kept _)).trans
    (endJobs_kept _)).fuses

/-- The agent's signal is a vector of the host, or none. -/
theorem agentIrq_frame (s : State) (b : Nat) : ∃ h, agentIrq s b = { s with host := h } := by
  unfold agentIrq
  split
  · exact ⟨_, rfl⟩
  · exact ⟨s.host, rfl⟩

/-- Sconce's acknowledgement on S0 signals its sender: it writes the spouts, and a vector of the host. -/
theorem ackWrite_s0_frame (s : State) (seq code : W16) : ∃ sp h, ackWrite s (.s 0) seq code = { s with spout := sp, host := h } := by
  have hpart : partDone s (.s 0) = s := rfl
  simp only [ackWrite, hpart, ite_self]
  obtain ⟨h, ht⟩ := agentIrq_frame (chanSet s (.s 0) _) 15
  exact ⟨_, h, ht⟩

/-- The end of a flush writes the log, the spouts, what the host sees of them, and the tick from which the device idles. -/
theorem flushEnd_frame (s : State) : ∃ e sp h, flushEnd s = { busyNow s with ember := e, spout := sp, host := h } := by
  unfold flushEnd
  extract_lets e clearing s1
  split
  · obtain ⟨sp, h, ht⟩ := ackWrite_s0_frame s1 _ 0
    exact ⟨_, sp, h, ht⟩
  · exact ⟨_, s.spout, s.host, rfl⟩

/-- A device reset's start-up with PERST_N high, both supplies good and no failure goes through to READY, with an epoch of 0
and nothing accepted. -/
theorem restart_clean {o : StartupObs} {s : State} (hfail : s.pwr.powerFail = false) (hperst : s.pwr.perstN = true)
    (htrim : s.pwr.trimTest = false) (hclean : StartClean s o) (hglow : o.glowOk = false) :
    Started (restart o s) ∧ (restart o s).pwr.stop = s.pwr.stop ∧ (restart o s).world.epoch = 0 ∧ (restart o s).descs = [] := by
  have hflushed : ∃ e sp h p, (if s.ember.flushing then flushEnd s else s)
      = { s with ember := e, spout := sp, host := h, pwr := { s.pwr with idleSince := p } } := by
    split
    · obtain ⟨e, sp, h, ht⟩ := flushEnd_frame s
      exact ⟨e, sp, h, _, ht⟩
    · exact ⟨_, _, _, _, rfl⟩
  obtain ⟨e, sp, h, p, hs⟩ := hflushed
  have hrun : restart o s = startFrom3 o (freshHub
      { s with ember := e, spout := sp, host := h, pwr := { s.pwr with idleSince := p } } false) := by
    simp [restart, hfail, hperst, hs]
  rw [hrun]
  obtain ⟨hstart, hstop, hworld, hdescs⟩ := startFrom3_clean (s := freshHub
      { s with ember := e, spout := sp, host := h, pwr := { s.pwr with idleSince := p } } false) hclean hglow htrim rfl
  exact ⟨hstart, hstop, congrArg World.epoch hworld, hdescs⟩

/-! ## The wake from the pilot state (R470) -/

/-- `n` ticks of the pilot oscillator pass. -/
def afterTicks (s : State) (n : Nat) : State := { s with pwr := { s.pwr with ticks := s.pwr.ticks + n } }

theorem exec_pilotWake {s : State} (hgood : s.pwr.pwrGood = true) (hpilot : s.pwr.pstate = .pilot) (hperst : s.pwr.perstN = true)
    (ok : Bool) (n : Nat) (o : StartupObs) : exec (.pilotWake ok n o) s
      = .next (if ok && s.pwr.saveDigest.isSome then leavePilot (afterTicks s n)
          else restart o (resetBegin (afterTicks s n))) := by
  have hdef : exec (.pilotWake ok n o) s = .next (if s.pwr.pwrGood && s.pwr.pstate == .pilot && s.pwr.perstN then
      if ok && s.pwr.saveDigest.isSome then leavePilot (afterTicks s n) else restart o (resetBegin (afterTicks s n))
      else s) := rfl
  rw [hdef, hgood, hpilot, hperst]
  rfl

theorem exec_pilotWake_of_saved {s : State} (hgood : s.pwr.pwrGood = true) (hpilot : s.pwr.pstate = .pilot)
    (hperst : s.pwr.perstN = true) (n : Nat) (o : StartupObs) (hsave : s.pwr.saveDigest.isSome = true) :
    exec (.pilotWake true n o) s = .next (leavePilot (afterTicks s n)) := by
  rw [exec_pilotWake hgood hpilot hperst, hsave]
  rfl

/-- A wake whose saved state fails its digest, or has none, is a device reset. -/
theorem exec_pilotWake_of_bad {s : State} (hgood : s.pwr.pwrGood = true) (hpilot : s.pwr.pstate = .pilot)
    (hperst : s.pwr.perstN = true) {ok : Bool} (n : Nat) (o : StartupObs) (hbad : ok = false ∨ s.pwr.saveDigest = none) :
    exec (.pilotWake ok n o) s = .next (restart o (resetBegin (afterTicks s n))) := by
  have hno : (ok && s.pwr.saveDigest.isSome) = false := by
    rcases hbad with h | h
    · rw [h, Bool.false_and]
    · rw [h, Option.isSome_none, Bool.and_false]
  rw [exec_pilotWake hgood hpilot hperst, hno]
  rfl

/-- A power failure holds the start-up of a device reset. -/
theorem restart_of_powerFail {s : State} (h : s.pwr.powerFail = true) (o : StartupObs) : restart o s = s := by
  simp [restart, h]

/-! ## The statement -/

/-- Settles O53: doze's entry and wake, the write of `PWR_CTRL`, the pilot state's entry, and its wake with either verdict on
the saved state. -/
theorem dozeAndPilot : Obligations.DozeAndPilot := by
  unfold Obligations.DozeAndPilot
  constructor
  · intro s c v hs
    refine ⟨fun hdue => ?notDue, fun hdue => ?entry, fun hawake => ?awake, fun hdoze => ?wake, fun hperst hv => ?disable,
      fun hperst hv => ?enable⟩
    case notDue => rw [exec_dozeEntry hs, hdue]; rfl
    case entry =>
      refine ⟨enterDoze s, by rw [exec_dozeEntry hs, if_pos hdue], rfl, rfl, rfl, rfl, rfl, fun g => ?_, fun p => ?_⟩
      · simp [enterDoze, Vector.get_eq_getElem]
      · rw [lant_enterDoze]
        exact ⟨rfl, rfl, rfl⟩
    case awake =>
      have hstay : ∀ c : WakeCause, c ≠ .dozeDisabled → exec (.dozeWake c) s = .next s := fun c hc => by
        rw [exec_dozeWake_of_access hs hc, dozeLeave_of_awake hawake]
      exact ⟨hstay _ WakeCause.noConfusion, hstay _ WakeCause.noConfusion⟩
    case wake =>
      refine ⟨_, exec_dozeWake hs c, ?_⟩
      generalize (s.pwr.dozeEn && c != .dozeDisabled) = on
      obtain ⟨lv, st, ht, -⟩ := dozeLeave_frame (s := setDozeEn s on) hdoze
      refine ⟨dozeLeave_hold (s := setDozeEn s on) hdoze, dozeLeave_not_doze _, fun d hd hready img himg p hp hjob hret =>
        dozeLeave_wakes (s := setDozeEn s on) hdoze hd hready himg hp ⟨hret, hjob⟩, ?_⟩
      rw [ht]
      refine ⟨rfl, fun g => ?_, rfl, rfl, rfl⟩
      simp [dozeEnd, Vector.get_eq_getElem]
    case disable =>
      obtain ⟨s1, ht, hen, harm⟩ := pwrCtrlWrite_of_disabled s hv
      obtain ⟨hen', harm'⟩ := dozeLeave_pwrCtrl s1
      exact ⟨dozeLeave s1, by rw [exec_pilotArmWrite ⟨hs, hperst⟩, ht], hen'.trans hen, harm'.trans harm, dozeLeave_not_doze s1⟩
    case enable => rw [exec_pilotArmWrite ⟨hs, hperst⟩, pwrCtrlWrite_of_enabled s hv]
  · intro s n o ok
    refine ⟨fun hs harm => ⟨fun hok => ?enter, fun hno => ?refuse⟩,
      fun hgood hpilot hperst => ⟨fun hsave => ?good, fun hbad => ⟨fun hfail => ?held, fun hfail htrim hclean hglow => ?restarts⟩⟩⟩
    case enter =>
      exact ⟨enterPilot s, by rw [exec_pilotEntry hs harm, if_pos hok], rfl, rfl, rfl, rfl, harm, rfl, enterPilot_saveDigest s, rfl,
        kGet_enterPilot s, camGet_enterPilot s, rfl, rfl, rfl⟩
    case refuse => rw [exec_pilotEntry hs harm, hno]; rfl
    case good =>
      obtain ⟨r, h, k, ht⟩ := leavePilot_frame (afterTicks s n)
      refine ⟨_, exec_pilotWake_of_saved hgood hpilot hperst n o hsave, ?_⟩
      rw [ht]
      refine ⟨rfl, rfl, rfl, rfl, rfl, rfl, rfl, rfl, rfl, rfl, rfl, rfl, rfl, fun p => ?_⟩
      obtain ⟨l, hl⟩ := lant_pilotEnd (afterTicks s n) p
      exact ⟨congrArg Lantern.slices hl, congrArg Lantern.diagStart hl⟩
    case held =>
      have hpwr := resetBegin_pwr (afterTicks s n)
      have hfail' : (resetBegin (afterTicks s n)).pwr.powerFail = true := by rw [hpwr]; exact hfail
      refine ⟨_, exec_pilotWake_of_bad hgood hpilot hperst n o hbad, ?_⟩
      rw [restart_of_powerFail hfail', hpwr]
      exact ⟨rfl, rfl, rfl, rfl⟩
    case restarts =>
      have hpwr := resetBegin_pwr (afterTicks s n)
      have hclean' : StartClean (resetBegin (afterTicks s n)) o := by
        rw [startClean_congr (resetBegin_fuses _)]; exact hclean
      obtain ⟨hstart, hstop, hepoch, hdescs⟩ := restart_clean (s := resetBegin (afterTicks s n)) (by rw [hpwr]; exact hfail)
        (by rw [hpwr]; exact hperst) (by rw [hpwr]; exact htrim) hclean' hglow
      refine ⟨_, exec_pilotWake_of_bad hgood hpilot hperst n o hbad, hstart, ?_, hepoch, hdescs⟩
      rw [hstop, hpwr]

end Sys2Proof.Machine

/-! # Context switches and context loads (O13)

A command of a control stream takes its entry from the stream and lets the sleeps that waited settle; what it then does is
told by the lantern as it was, since neither writes a lantern's switches or contexts. -/

namespace Sys2Proof.Machine

open Sys2Proof

/-! ## Commands of a lantern that runs and of a control stream -/

/-- A command to the dies of a device in service acts. -/
theorem serve_of_served {s : State} (hs : Served s) (f : State → State) : serve s f = .next (f s) := by
  obtain ⟨hhub, hready, hstate⟩ := hs
  exact serve_of_service hhub hready hstate f

/-- The command that stands next in a job's control stream issues. -/
theorem issue_of_issues {s : State} {r : JobRef} {cycle : Nat} {op : CtrlOp} (h : issues s r cycle op = true)
    (f : State → State) : issue s r cycle op f = f (settleSleep (popStream s r) (s.grid.base + cycle)) := if_pos h

/-- A sleep that settles writes the retention of a lantern and nothing else of it. -/
theorem lant_settleSleep (s : State) (now : Nat) (p : Phys) :
    lant (settleSleep s now) p = { lant s p with retain := sleepNow (inFlight s now (.basin p)) (lant s p).retain } := by
  simp [lant, settleSleep, Vector.get_eq_getElem]

theorem settleSleep_jobs (s : State) (now : Nat) : (settleSleep s now).jobs = s.jobs := by unfold settleSleep; rfl

theorem settleSleep_map (s : State) (now : Nat) : (settleSleep s now).map = s.map := by unfold settleSleep; rfl

theorem findJob_settleSleep (s : State) (now : Nat) (r : JobRef) : findJob (settleSleep s now) r = findJob s r := by
  rw [findJob, settleSleep_jobs, findJob]

theorem physOf_settleSleep (s : State) (now n : Nat) : physOf (settleSleep s now) n = physOf s n := by
  rw [physOf, settleSleep_map, physOf]

theorem physOf_popStream (s : State) (r : JobRef) (n : Nat) : physOf (popStream s r) n = physOf s n := by
  rw [physOf, popStream_map, physOf]

theorem lant_popStream (s : State) (r : JobRef) (p : Phys) : lant (popStream s r) p = lant s p := by
  rw [lant, popStream_lanterns, lant]

theorem findJob_popStream {s : State} {r : JobRef} {j : Job} (h : findJob s r = some j) :
    findJob (popStream s r) r = some { j with stream := j.stream.drop 1 } := findJob_modJob s r _ j h rfl

/-! ## The commands -/

/-- The cycle from which a switch issued now counts its 64 cycles (R26, R28). -/
def switchFrom (l : Lantern) : Nat :=
  match l.switches.getLast? with
  | some (_, e) => max l.cycle e
  | none => l.cycle

theorem exec_contextSwitch {s : State} (hs : Served s) {p : Phys} (hrun : executes s p = true) (c : Fin 4) :
    exec (.contextSwitch p c) s = .next (setLant s p { lant s p with
      switches := (lant s p).switches ++ [(c, switchFrom (lant s p) + 64)] }) := by
  have harm : exec (.contextSwitch p c) s = execContextSwitch p c s := rfl
  rw [harm, execContextSwitch, serve_of_served hs, if_pos hrun]
  rfl

theorem exec_contextLoad {s : State} (hs : Served s) {job : JobRef} {cycle number : Nat} {n : Logical} {c : Fin 4}
    {j : Job} {p : Phys} (hnext : issues s job cycle (.contextLoad n c number) = true) (hj : findJob s job = some j)
    (hp : physOf s n.val = some p) :
    exec (.contextLoad job cycle n c number) s = .next (contextLoad (settleSleep (popStream s job) (s.grid.base + cycle))
      { j with stream := j.stream.drop 1 } p cycle c number) := by
  have harm : exec (.contextLoad job cycle n c number) s = execContextLoad job cycle n c number s := rfl
  rw [harm, execContextLoad, serve_of_served hs, issue_of_issues hnext]
  simp only [findJob_settleSleep, findJob_popStream hj, physOf_settleSleep, physOf_popStream, hp]

/-- A load is not performed: its context is active in its cycle, or a switch in progress is about to make it so (R27). -/
def loadRefused (l : Lantern) (cycle : Nat) (c : Fin 4) : Bool :=
  ctxIn l cycle == c || l.switches.any fun e => decide (cycle < e.2) && e.1 == c

theorem loadRefused_iff (l : Lantern) (cycle : Nat) (c : Fin 4) :
    loadRefused l cycle c = true ↔ ctxIn l cycle = c ∨ ∃ e ∈ l.switches, cycle < e.2 ∧ e.1 = c := by
  simp only [loadRefused, Bool.or_eq_true, beq_iff_eq, List.any_eq_true, Bool.and_eq_true, decide_eq_true_eq]

theorem contextLoad_eq (s : State) (j : Job) (p : Phys) (cycle : Nat) (c : Fin 4) (number : Nat) :
    contextLoad s j p cycle c number = if loadRefused (lant s p) cycle c then raiseFor s .cfgLoadActive [] j.ref
      else setLant s p { lant s p with contexts := (lant s p).contexts.set c.val (j.img.ctxAt number) } := rfl

/-- Settles O13: a switch counts from `switchFrom`, and a load is performed unless `loadRefused`, which the settling of sleeps
leaves as it was. -/
theorem contextCommands : Obligations.ContextCommands := by
  unfold Obligations.ContextCommands
  intro s p c job cycle number n j hs l s1
  obtain ⟨x, hs1⟩ : ∃ x, lant s1 p = { l with retain := x } := ⟨_, by rw [lant_settleSleep, lant_popStream]⟩
  refine ⟨fun hrun => ⟨fun hnone => ?idle, fun t e hlast => ?switching⟩, fun hnext hj hp => ?load⟩
  case idle =>
    have hfrom : switchFrom l = l.cycle := by simp [switchFrom, hnone]
    rw [exec_contextSwitch hs hrun, hfrom, hnone]
    rfl
  case switching =>
    have hfrom : switchFrom l = max l.cycle e := by simp [switchFrom, hlast]
    rw [exec_contextSwitch hs hrun, hfrom]
  case load =>
    intro active
    have hrefused : loadRefused (lant s1 p) cycle c = true ↔ active = c ∨ ∃ e ∈ l.switches, cycle < e.2 ∧ e.1 = c := by
      rw [hs1]; exact loadRefused_iff _ cycle c
    have hctx : (lant s1 p).contexts = l.contexts := by rw [hs1]
    rw [exec_contextLoad hs hnext hj hp, contextLoad_eq, hctx]
    refine ⟨fun hactive hswitch => ?_, fun hbusy => ?_⟩
    · rw [if_neg]
      rw [hrefused]
      rintro (hsame | ⟨e, he, hopen, htarget⟩)
      · exact hactive hsame
      · exact hswitch e he hopen htarget
    · rw [if_pos (hrefused.mpr hbusy), findJob_ref hj]

end Sys2Proof.Machine

/-! # Round-half-to-even by a shift (O16)

The model's shift is a rounding of quotient and remainder to the right, and a clamp to 48 bits to the left. -/

namespace Sys2Proof.Machine

open Sys2Proof

/-- The quotient `q` with remainder `r` on division by `2 * half`, rounded to the nearest, ties to the even quotient (R36). -/
def roundEven (q r half : Int) : Int := if half < r ∨ (r = half ∧ q % 2 = 1) then q + 1 else q

theorem roundEven_nearest {q r half : Int} (hr : 0 ≤ r) (hlt : r < 2 * half) :
    2 * (q * (2 * half) + r - roundEven q r half * (2 * half)).natAbs ≤ (2 * half).natAbs
      ∧ (2 * (q * (2 * half) + r - roundEven q r half * (2 * half)).natAbs = (2 * half).natAbs → roundEven q r half % 2 = 0) := by
  by_cases h : half < r ∨ (r = half ∧ q % 2 = 1)
  · have hup : q * (2 * half) + r - (q + 1) * (2 * half) = r - 2 * half := by ring
    rw [roundEven, if_pos h, hup]
    omega
  · have hdown : q * (2 * half) + r - q * (2 * half) = r := by ring
    rw [roundEven, if_neg h, hdown]
    omega

/-- A right shift rounds the quotient by its remainder. -/
theorem rheShift_right (a : Int) {s : Int} {n : Nat} (hn : s.toNat = n + 1) :
    rheShift a s = (roundEven (a / (2 * 2 ^ n)) (a % (2 * 2 ^ n)) (2 ^ n), false) := by
  have hpow : (2 : Int) ^ (n + 1) = 2 * 2 ^ n := by rw [pow_succ, mul_comm]
  have hrest : a - a / (2 * 2 ^ n) * (2 * 2 ^ n) = a % (2 * 2 ^ n) := by
    rw [Int.emod_def, Int.mul_comm (2 * 2 ^ n)]
  rw [rheShift, if_neg (by omega), if_pos (by omega)]
  dsimp only
  rw [hn, Nat.add_sub_cancel, hpow, hrest, roundEven]

theorem rheShift_left (a : Int) {s : Int} (h : s < 0) : rheShift a s = clampFlag accMin accMax (a * 2 ^ (-s).toNat) := by
  rw [rheShift, if_neg (by omega), if_neg (by omega), clampFlag]

theorem clampFlag_of_fits {lo hi v : Int} (hlo : lo ≤ v) (hhi : v ≤ hi) : clampFlag lo hi v = (v, false) := by
  simp [clampFlag, clampInt, Int.not_lt.mpr hlo, Int.not_lt.mpr hhi]

theorem clampFlag_of_below {lo hi v : Int} (h : v < lo) : clampFlag lo hi v = (lo, true) := by
  simp [clampFlag, clampInt, h]

theorem clampFlag_of_above {lo hi v : Int} (hle : lo ≤ hi) (h : hi < v) : clampFlag lo hi v = (hi, true) := by
  have hlo : ¬ v < lo := by omega
  simp [clampFlag, clampInt, hlo, h]

/-- Settles O16: `roundEven_nearest` for a right shift, the clamp of 48 bits for a left one. -/
theorem shiftRounds : Obligations.ShiftRounds := by
  unfold Obligations.ShiftRounds
  intro a s _ _ q
  refine ⟨fun h0 => if_pos h0, fun hpos _ => ?right, fun hneg => ?left⟩
  case right =>
    obtain ⟨n, hn⟩ : ∃ n, s.toNat = n + 1 := ⟨s.toNat - 1, by omega⟩
    have hpow : (2 : Int) ^ (n + 1) = 2 * 2 ^ n := by rw [pow_succ, mul_comm]
    have habs : (2 : Nat) ^ (n + 1) = (2 * (2 : Int) ^ n).natAbs := by rw [← hpow, Int.natAbs_pow]; rfl
    have hhalf : (0 : Int) < 2 ^ n := by positivity
    have hround := roundEven_nearest (q := a / (2 * 2 ^ n)) (half := 2 ^ n) (Int.emod_nonneg a (by omega))
      (Int.emod_lt_of_pos a (by omega))
    rw [Int.ediv_mul_add_emod] at hround
    simp only [q, rheShift_right a hn, hn, hpow, habs]
    exact ⟨trivial, hround⟩
  case left =>
    rw [rheShift_left a hneg]
    exact ⟨fun hlo hhi => clampFlag_of_fits hlo (Int.le_sub_one_of_lt hhi), fun hlo => clampFlag_of_below hlo,
      fun hhi => clampFlag_of_above (by decide) (Int.sub_one_lt_of_le hhi)⟩

end Sys2Proof.Machine

/-! # Epoch checks and attempts of the reflector (O18)

The check writes its job's output record. A run that was dispatched on the newest master is compared with the copy that it
sampled itself, so that every pair of samples agrees; a speculative run keeps or loses its tag with what `confirmedRows`
gives. -/

namespace Sys2Proof.Machine

open Sys2Proof

/-! ## A copy compared with itself -/

theorem pairOk_of_eq (margin : Nat) {x : CheckPair} (h : x.1 = x.2) : pairOk margin x = true := by
  simp [pairOk, h]

/-- A window and its layer compared with themselves give equal samples. -/
theorem checkPairs_self (j : Job) (o : Vec3) (pt : CheckPoint) : ∀ x ∈ checkPairs j j.win j.winTe o pt, x.1 = x.2 := by
  intro x hx
  rw [checkPairs] at hx
  rcases List.mem_append.mp hx with hstatic | hdyn
  · cases hw : sampleWindow j.win o pt.pos with
    | none => simp [hw] at hstatic
    | some v =>
      obtain rfl : x = (v.1, v.1) := by simpa [hw] using hstatic
      rfl
  · cases hd : dynValue j.win j.winTe o pt.pos (j.spliceNs + pt.tNs) with
    | none => simp [hd] at hdyn
    | some v =>
      obtain rfl : x = (v, v) := by simpa [hd] using hdyn
      rfl

theorem rowPairs_self (j : Job) (row : BRow) : ∀ x ∈ rowPairs j j.win j.winTe row, x.1 = x.2 := by
  intro x hx
  unfold rowPairs at hx
  split at hx
  · split at hx
    · obtain ⟨pt, -, hpt⟩ := List.mem_flatMap.mp hx
      exact checkPairs_self j _ pt x hpt
    · cases hx
  · cases hx

/-- A run that was not dispatched speculatively confirms a row that gives a sample (R239). -/
theorem rowVerdict_of_ordinary (s : State) {j : Job} (h : j.wasSpec = false) (row : BRow) :
    rowVerdict s j row = !(rowPairs j j.win j.winTe row).isEmpty := by
  have hall : (rowPairs j j.win j.winTe row).all (pairOk (confirmMargin j)) = true :=
    List.all_eq_true.mpr fun x hx => pairOk_of_eq _ (rowPairs_self j row x hx)
  simp [rowVerdict, h, rowOk, hall]

/-! ## Interrupted solves and confirmations leave the job's name -/

theorem setSeed_ref (j : Job) (k : Nat) (f : JobSeed → JobSeed) : (setSeed j k f).ref = j.ref := by
  unfold setSeed
  split <;> rfl

theorem applySolve_ref (m : RobotModel) (x : Solve) (j : Job) : (applySolve m x j).ref = j.ref := by
  unfold applySolve
  dsimp only
  split
  · exact setSeed_ref _ _ _
  · exact setSeed_ref _ _ _
  · split <;> rfl

theorem endSolve_ref (m : RobotModel) (x : Solve) (y : Iterate) (flags : Byte) (f : Counts → Counts) (j : Job) :
    (endSolve m x y flags f j).ref = j.ref := applySolve_ref m _ _

theorem interruptSolves_ref (j : Job) : (interruptSolves j).ref = j.ref := by
  unfold interruptSolves
  split
  · rfl
  · next m hm =>
    clear hm
    generalize j.solves.filter _ = xs
    induction xs generalizing j with
    | nil => rfl
    | cons x t ih => exact (ih _).trans (endSolve_ref _ _ _ _ _ _)

/-! ## The check -/

theorem exec_epochCheck {s : State} (hs : Served s) {job : JobRef} {j : Job} (hj : findJob s job = some j)
    (hdue : checkDue j = true) :
    exec (.epochCheck job) s = .next (epochCheck (if awaitsRun s j then settleRun s else s) job j) := by
  have harm : exec (.epochCheck job) s = execEpochCheck job s := rfl
  rw [harm, execEpochCheck, serve_of_served hs]
  simp only [hj, hdue, if_true]

/-- What the check notes in its job. -/
def checkedJob (s : State) (j k : Job) : Job := { k with
  out := ⟨topRows j, confirmedRows s j, true, 0, none⟩, selected := k.selected || (topRows j).any (rowLive j)
  confirmedRow := firstConfirmed j (confirmedRows s j) }

theorem epochCheck_eq (s : State) (job : JobRef) (j : Job) :
    epochCheck s job j = if !j.spec then modJob s job (checkedJob s j)
      else if (confirmedRows s j).isEmpty then abortSpec (modJob s job (checkedJob s j)) job j
      else confirmSpec (modJob s job (checkedJob s j)) job := rfl

theorem findJob_checked {s : State} {job : JobRef} {j : Job} (hj : findJob s job = some j) :
    findJob (modJob s job (checkedJob s j)) job = some (checkedJob s j j) := findJob_modJob s job _ j hj rfl

/-- A job whose speculation aborts: its solves are interrupted, and it ends so unless something other than a fault ends it first
(R192, R242). -/
def abortedJob (k : Job) : Job := { interruptSolves k with endAs := match k.endAs with
  | .none | .fault _ => .abort
  | e => e }

/-- A speculation that aborts is to end so, and is counted; the hand-offs stand (R242). -/
theorem abortSpec_writes {s : State} {job : JobRef} {k : Job} (hk : findJob s job = some k) (hend : k.endAs = .none) (j : Job) :
    (findJob (abortSpec s job j) job).map (·.endAs) = some .abort
      ∧ (abortSpec s job j).sluice.aborted = satInc s.sluice.aborted
      ∧ (abortSpec s job j).sluice.confirmed = s.sluice.confirmed ∧ (abortSpec s job j).motion = s.motion := by
  refine ⟨?_, rfl, rfl, rfl⟩
  have hfind : findJob (abortSpec s job j) job = findJob (modJob s job abortedJob) job := rfl
  rw [hfind, findJob_modJob s job abortedJob k hk (interruptSolves_ref k)]
  simp [abortedJob, hend]

/-- A speculation that is confirmed loses its tag and is counted (R243). -/
theorem confirmSpec_writes {s : State} {job : JobRef} {k : Job} (hk : findJob s job = some k) :
    findJob (confirmSpec s job) job = some { trackConfirmed k with spec := false }
      ∧ (confirmSpec s job).sluice.confirmed = satInc s.sluice.confirmed
      ∧ (confirmSpec s job).sluice.aborted = s.sluice.aborted ∧ (confirmSpec s job).motion = s.motion :=
  ⟨findJob_modJob s job _ k hk rfl, rfl, rfl, rfl⟩

/-! ## Attempts and the self-check -/

/-- A job whose next confirmed row goes to the reflector (R241). -/
def attemptedJob (k : Job) : Job := { k with
  tried := true
  out := { k.out with active := k.out.confirmed.head?, attempts := k.out.attempts + 1 } }

theorem exec_reflectorAttempt {s : State} (hs : Served s) {job : JobRef} {j : Job} (hj : findJob s job = some j)
    (hmay : mayAttempt s j = true) :
    exec (.reflectorAttempt job) s = .next (modJob s job attemptedJob) := by
  have harm : exec (.reflectorAttempt job) s = execReflectorAttempt job s := rfl
  rw [harm, execReflectorAttempt, serve_of_served hs]
  simp only [hj, hmay, if_true]
  rfl

theorem exec_reflectorSelfCheck {s : State} (hs : Live s) (ok : Bool) :
    exec (.reflectorSelfCheck ok) s = .next (if ok then s else raise s .reflectorFault []) :=
  live_of_hub hs fun s => if ok then s else raise s .reflectorFault []

/-- A write of jobs alone leaves every other part of the state. -/
theorem modJob_frame (s : State) (r : JobRef) (f : Job → Job) : SameBoard s (modJob s r f) ∧ SameField s (modJob s r f)
    ∧ SameFaults s (modJob s r f) ∧ SameFabric s (modJob s r f) := by
  simp [SameBoard, SameField, SameFaults, SameFabric]

/-- Settles O18: the three branches of `epochCheck_eq`, then the attempt and the self-check. -/
theorem epochChecksAndAttempts : Obligations.EpochChecksAndAttempts := by
  unfold Obligations.EpochChecksAndAttempts
  constructor
  · intro s job j hs hj hdue rows
    have hexec := exec_epochCheck hs hj hdue
    refine ⟨fun hwas hspec => ?ordinary, ?speculative⟩
    case ordinary =>
      have hawaits : awaitsRun s j = false := by rw [awaitsRun, hwas, Bool.false_and]
      obtain ⟨hboard, hfield, hfaults, hfabric⟩ := modJob_frame s job (checkedJob s j)
      refine ⟨modJob s job (checkedJob s j), ?_, ?_, hboard, hfield, hfaults, hfabric, rfl, rfl⟩
      · rw [hexec, hawaits, epochCheck_eq, hspec]
        rfl
      · rw [findJob_checked hj]
        simp only [Option.map_some, checkedJob, confirmedRows, rowVerdict_of_ordinary s hwas, rows]
    case speculative =>
      intro u hu _ hspec _ good
      have hfound := findJob_checked hu
      refine ⟨fun hend hnone => ⟨_, hexec, ?_⟩, fun hsome => ⟨_, hexec, ?_⟩⟩
      · have habort : epochCheck u job j = abortSpec (modJob u job (checkedJob u j)) job j := by
          rw [epochCheck_eq, hspec, if_neg (by decide), if_pos (List.isEmpty_iff.mpr hnone)]
        obtain ⟨hends, haborted, hconfirmed, hmotion⟩ := abortSpec_writes hfound hend j
        rw [habort]
        exact ⟨haborted, hconfirmed, hends, hmotion⟩
      · have hconfirm : epochCheck u job j = confirmSpec (modJob u job (checkedJob u j)) job := by
          rw [epochCheck_eq, hspec, if_neg (by decide), if_neg (by rw [List.isEmpty_iff]; exact hsome)]
        obtain ⟨hjob, hconfirmed, haborted, hmotion⟩ := confirmSpec_writes hfound
        rw [hconfirm, hjob]
        exact ⟨hconfirmed, haborted, rfl, rfl, hmotion⟩
  · intro s job j hs hj hmay
    obtain ⟨hboard, hfield, hfaults, hfabric⟩ := modJob_frame s job attemptedJob
    exact ⟨⟨_, exec_reflectorAttempt hs hj hmay, findJob_modJob s job _ j hj rfl, hboard, hfield, hfaults, hfabric⟩,
      exec_reflectorSelfCheck hs.1 true, exec_reflectorSelfCheck hs.1 false⟩

end Sys2Proof.Machine

/-! # Wick instructions (O14, O15)

An instruction of one operation passes through fixed parts: the registers, the gather port with the rill side of the pool, the
mesh, the range counter, the stages, the list's offers, the judged solves, ECC. First what each part can write, then the
whole instruction put together from them (`runWicks_single`), and last the operations. -/

namespace Sys2Proof.Machine

open Sys2Proof

/-! ## Lanterns and wicks -/

theorem modLant_of_fixed {s : State} {p : Phys} {f : Lantern → Lantern} (h : f (lant s p) = lant s p) : modLant s p f = s := by
  have hset : s.lanterns.set p (lant s p) = s.lanterns := Vector.set_getElem_self p.isLt
  rw [modLant, h, setLant, hset]

/-- What wicks hold is told by their table and the active context. -/
theorem wickGet_congr {l m : Lantern} (hwicks : m.wicks = l.wicks) (hctx : activeCtx m = activeCtx l) (v : Nat) :
    wickGet m v = wickGet l v := by rw [wickGet, wickGet, hwicks, hctx]

theorem wickGet_basin (l : Lantern) (b : Ram) (v : Nat) : wickGet { l with basin := b } v = wickGet l v := rfl

theorem wickGet_of_put (l : Lantern) {m : Lantern} {w : Nat} {k : Wick} (hwicks : m.wicks = l.wicks.put w k)
    (hctx : activeCtx m = activeCtx l) (v : Nat) : wickGet m v = if w = v then k else wickGet l v := by
  simp only [wickGet, hwicks, hctx, SMap.find_put]
  split <;> rfl

theorem wickGet_of_put_same (l : Lantern) {m : Lantern} {w : Nat} {k : Wick} (hwicks : m.wicks = l.wicks.put w k)
    (hctx : activeCtx m = activeCtx l) : wickGet m w = k := (wickGet_of_put l hwicks hctx w).trans (if_pos rfl)

theorem lant_modWick (s : State) (p : Phys) (w : Nat) (f : Wick → Wick) (q : Phys) : lant (modWick s p w f) q
    = if p = q then { lant s p with wicks := (lant s p).wicks.put w (f (wickGet (lant s p) w)) } else lant s q :=
  lant_modLant s p q _

theorem regGet_regPut (k : Wick) (r r' : Nat) (v : W32) :
    regGet (regPut k r v) r' = if r % 256 = r' % 256 then v else regGet k r' := by
  simp only [regGet, regPut, SMap.find_put]
  split <;> rfl

/-- Consecutive registers, 256 at most, hold what was put into them. -/
theorem regGet_putRange (k : Wick) (rd : Nat) (f : Nat → W32) {n i : Nat} (hn : n ≤ 256) (hi : i < n) :
    regGet ((List.range n).foldl (fun k i => regPut k (rd + i) (f i)) k) (rd + i) = f i := by
  induction n with
  | zero => omega
  | succ n ih =>
    rw [List.range_succ, List.foldl_append, List.foldl_cons, List.foldl_nil, regGet_regPut]
    by_cases h : i = n
    · rw [h, if_pos rfl]
    · rw [if_neg (by omega), ih (by omega) (by omega)]

/-- An ALU operation writes its four lanes (R21). -/
theorem regGet_aluRegs (old cur : Wick) (op : AluOp) (rd ra rb : Nat) {i : Nat} (hi : i < 4) :
    regGet (aluRegs old cur op rd ra rb) (rd + i) = aluLane op (regGet old (ra + i)) (regGet old (rb + i)) :=
  regGet_putRange cur rd _ (by omega) hi

/-! ## Issue cycles (R46, R47, R53) -/

theorem foldl_max_single (c b : Nat) (l : List Nat) (i : Nat) :
    l.foldl (fun m x => max m (if b = x then c else 0)) i = if b ∈ l then max i c else i := by
  induction l generalizing i with
  | nil => rfl
  | cons x t ih =>
    rw [List.foldl_cons, ih]
    by_cases hx : b = x
    · simp [hx]
    · simp [hx]

/-- An operation that asks `c` times for one bank loads it with `c` cycles. -/
theorem bankLoad_single {w : Fin 64} {op : WickOp} {c b : Nat} (hb : b < 64)
    (h : bankCycles (issuedOp op) = List.replicate c b) : bankLoad [(w, op)] = c := by
  have hmem : b ∈ List.range 64 := List.mem_range.mpr hb
  simp only [bankLoad, List.flatMap_cons, List.flatMap_nil, List.append_nil, h, List.count_replicate, beq_iff_eq]
  rw [foldl_max_single, if_pos hmem, Nat.zero_max]

/-- The issue cycles of an instruction of one operation. -/
def issueCycles (w : Fin 64) (op : WickOp) : Nat := max 1 (bankLoad [(w, op)])

theorem fabricCycle_single (p : Phys) (old : Lantern) (e : PortOp) (s : State) (c : Nat) :
    fabricCycle p old [e] s c = if e.cycle = c then gather s p old e.wick.val e.op else s := by
  by_cases h : e.cycle = c <;> simp [fabricCycle, h]

theorem rillCycle_nil (p : Phys) (old : Lantern) (ops : List PortOp) (s : State) (c : Nat) :
    rillCycle p old ops (s, []) c = (fabricCycle p old ops s c, []) := rfl

/-- Nothing is left at the rill side of a lantern's pool. -/
def rillDone (l : Lantern) : Lantern := { l with rill := [] }

@[simp] theorem rillDone_basin (l : Lantern) : (rillDone l).basin = l.basin := rfl
@[simp] theorem rillDone_eccCorr (l : Lantern) : (rillDone l).eccCorr = l.eccCorr := rfl
@[simp] theorem wickGet_rillDone (l : Lantern) (v : Nat) : wickGet (rillDone l) v = wickGet l v := rfl

/-- With nothing at the rill side a gather operation acts in the first issue cycle and the others pass. -/
theorem issue_single (p : Phys) (old : Lantern) {e : PortOp} (he : e.cycle = 0) (s : State) {load : Nat} (h : 0 < load) :
    (cyclesFrom 0 load).foldl (rillCycle p old [e]) (s, []) = (gather s p old e.wick.val e.op, []) := by
  have hlater : ∀ (cs : List Nat) (s : State), 0 ∉ cs → cs.foldl (rillCycle p old [e]) (s, []) = (s, []) := by
    intro cs
    induction cs with
    | nil => exact fun _ _ => rfl
    | cons c t ih =>
      intro s hc
      rw [List.mem_cons, not_or] at hc
      rw [List.foldl_cons, rillCycle_nil, fabricCycle_single, he, if_neg hc.1, ih s hc.2]
  obtain ⟨m, rfl⟩ : ∃ m, load = m + 1 := ⟨load - 1, by omega⟩
  have hcycles : cyclesFrom 0 (m + 1) = 0 :: (List.range m).map (· + 1) := by
    simp [cyclesFrom, List.range_succ_eq_map]
  rw [hcycles, List.foldl_cons, rillCycle_nil, fabricCycle_single, if_pos he, hlater _ _ (by simp)]

theorem gatherAll_single (s : State) (p : Phys) {old : Lantern} (hrill : old.rill = []) (w : Fin 64) (op : WickOp)
    {load : Nat} (h : 0 < load) (n : Nat) :
    gatherAll s p old (servedFrom old [] [(w, op)]) load n []
      = modLant (gather s p old w.val (underPreds (wickGet old w.val) op)) p rillDone := by
  have hqueue : rillQueue s p old [] = (s, []) := by simp [rillQueue, hrill]
  have hcycle : ((bankCycles (issuedOp op)).head?.map fun b => ([] : List Nat).count b).getD 0 = 0 := by
    cases (bankCycles (issuedOp op)).head? <;> rfl
  rw [gatherAll, hqueue, servedFrom, servedFrom, issue_single p old hcycle s h]
  rfl

/-! ## What an instruction of one lantern leaves -/

/-- One lantern and the jobs are all that was written. -/
def LanternFrame (p : Phys) (s t : State) : Prop :=
  (∃ v js, t = { s with lanterns := v, jobs := js }) ∧ ∀ q, q ≠ p → lant t q = lant s q

theorem LanternFrame.refl (p : Phys) (s : State) : LanternFrame p s s := ⟨⟨s.lanterns, s.jobs, rfl⟩, fun _ _ => rfl⟩

theorem LanternFrame.trans {p : Phys} {a b c : State} (h : LanternFrame p a b) (k : LanternFrame p b c) : LanternFrame p a c := by
  obtain ⟨⟨v, js, rfl⟩, hother⟩ := h
  obtain ⟨⟨w, ks, rfl⟩, kother⟩ := k
  exact ⟨⟨w, ks, rfl⟩, fun q hq => (kother q hq).trans (hother q hq)⟩

theorem setLant_frame (s : State) (p : Phys) (l : Lantern) : LanternFrame p s (setLant s p l) := by
  refine ⟨⟨_, s.jobs, rfl⟩, fun q hq => ?_⟩
  rw [lant_setLant, if_neg hq.symm]

theorem modLant_frame (s : State) (p : Phys) (f : Lantern → Lantern) : LanternFrame p s (modLant s p f) := setLant_frame s p _

theorem lant_jobs (s : State) (js : List Job) (p : Phys) : lant { s with jobs := js } p = lant s p := rfl

theorem jobs_frame (s : State) (p : Phys) (js : List Job) : LanternFrame p s { s with jobs := js } :=
  ⟨⟨s.lanterns, js, rfl⟩, fun _ _ => rfl⟩

theorem LanternFrame.sameUnits {p : Phys} {s t : State} (h : LanternFrame p s t) : SameBoard s t ∧ SameField s t ∧ SameFaults s t
    ∧ t.mem = s.mem ∧ t.rings = s.rings ∧ t.descs = s.descs ∧ t.sluice = s.sluice := by
  obtain ⟨⟨v, js, rfl⟩, -⟩ := h
  simp [SameBoard, SameField, SameFaults]

/-! ## The range counter (R39) -/

theorem wickCount_single (c : CtxCfg) (old : Lantern) (w : Fin 64) (op : WickOp) (v : Nat) :
    wickCount c old [(w, op)] v
      = if w.val = v then min 8 (localOp c (wickGet old w.val) (wickGet old w.val) op).2 else 0 := by
  by_cases h : w.val = v
  · subst h
    simp [wickCount, sumNat]
  · simp [wickCount, sumNat, h]

theorem sumNat_single (w : Fin 64) (n : Nat) : sumNat ((List.range 64).map fun v => if w.val = v then n else 0) = n := by
  have hsum : sumNat ((List.range 64).map fun v => if w.val = v then n else 0) = ∑ v ∈ Finset.range 64, if w.val = v then n else 0 :=
    (List.sum_eq_foldl ..).symm
  rw [hsum, Finset.sum_ite_eq, if_pos (Finset.mem_range.mpr w.isLt)]

theorem countRange_zero (s : State) (p : Phys) : countRange s p 0 = s := if_pos rfl

/-- The elements counted raise the counter to its limit at most; beside it the lantern notes the cycle, and jobs are marked. -/
theorem countRange_writes (s : State) (p : Phys) (n : Nat) : LanternFrame p s (countRange s p n)
    ∧ ∃ c, lant (countRange s p n) p = { lant s p with
      rangeCtr := BitVec.ofNat 32 (min ((lant s p).rangeCtr.toNat + n) 0xFFFF_FFFF), counted := c } := by
  unfold countRange
  split
  case isTrue h =>
    have hctr : BitVec.ofNat 32 (min ((lant s p).rangeCtr.toNat + n) 0xFFFF_FFFF) = (lant s p).rangeCtr := by
      rw [h, Nat.add_zero, Nat.min_eq_left (by omega), BitVec.ofNat_toNat, BitVec.setWidth_eq]
    exact ⟨.refl p s, (lant s p).counted, by rw [hctr]⟩
  case isFalse =>
    dsimp only
    split
    · exact ⟨(setLant_frame s p _).trans (jobs_frame _ p _), _, (lant_setLant s p p _).trans (if_pos rfl)⟩
    · exact ⟨setLant_frame s p _, _, (lant_setLant s p p _).trans (if_pos rfl)⟩

/-! ## The offers of the cycle (R215) -/

/-- No offer waits for the lantern's list. -/
abbrev NoOffers (l : Lantern) : Prop := l.offers = [] ∧ l.fresh = []

/-- What the list of a lantern, and the events of its entries, may write of a lantern. -/
def ListWrites (s t : State) : Prop :=
  ∀ q, ∃ g o f b, lant t q = { lant s q with gated := g, offers := o, fresh := f, basin := b }

theorem ListWrites.refl (s : State) : ListWrites s s := fun _ => ⟨_, _, _, _, rfl⟩

theorem ListWrites.trans {a b c : State} (h : ListWrites a b) (k : ListWrites b c) : ListWrites a c := by
  intro q
  obtain ⟨g, o, f, m, hq⟩ := h q
  obtain ⟨g', o', f', m', kq⟩ := k q
  exact ⟨g', o', f', m', by rw [kq, hq]⟩

theorem listWrites_of_kept {s t : State} (h : Kept s t) : ListWrites s t := by
  intro q
  obtain ⟨g, hg⟩ := h.lant q
  exact ⟨g, _, _, _, hg⟩

theorem modJob_listWrites (s : State) (r : JobRef) (f : Job → Job) : ListWrites s (modJob s r f) :=
  listWrites_of_kept (modJob_kept s r f)

theorem raiseFor_listWrites (s : State) (cls : EventClass) (words : List W32) (r : JobRef) :
    ListWrites s (raiseFor s cls words r) := listWrites_of_kept (raiseFor_kept s cls words r)

theorem placeWrite_basin_listWrites (s : State) (p : Phys) (a : Nat) (bs : List Byte) :
    ListWrites s (placeWrite s (.basin p a) bs) := by
  intro q
  have hwrite := lant_modLant s p q fun x => { x with
    basin := (lant s p).basin.writeWhere (placeHas s (.basin p a)) a bs }
  by_cases h : p = q
  · rw [if_pos h] at hwrite
    subst h
    exact ⟨_, _, _, _, hwrite⟩
  · rw [if_neg h] at hwrite
    exact ⟨_, _, _, _, hwrite⟩

theorem storeRows_listWrites (s : State) (p : Phys) (r : JobRef) (c : BeaconCfg) (b : BList) :
    ListWrites s (storeRows s p r c b) := by
  have hput : ∀ (s : State) (a : Nat) (bs : List Byte), ListWrites s (planPut s r (.basin p a) bs) := by
    intro s a bs
    unfold planPut
    split
    · exact raiseFor_listWrites _ _ _ _
    · exact placeWrite_basin_listWrites _ _ _ _
  refine ListWrites.trans ?_ (hput _ _ _)
  split
  · exact .refl s
  · exact placeWrite_basin_listWrites _ _ _ _

theorem noteBadIds_listWrites (s : State) (j : Job) (n : Nat) : ListWrites s (noteBadIds s j n) := by
  unfold noteBadIds
  dsimp only
  split
  · exact .refl s
  · split
    · exact modJob_listWrites _ _ _
    · exact ((modJob_listWrites s _ _).trans (modJob_listWrites _ _ _)).trans (raiseFor_listWrites _ _ _ _)

theorem noteMismatch_listWrites (j : Job) (s : State) (e : Nat × Nat) : ListWrites s (noteMismatch j s e) :=
  (modJob_listWrites s _ _).trans (raiseFor_listWrites _ _ _ _)

theorem offerTo_listWrites (s : State) (p : Phys) (j : Job) (l : Nat) (r : BRow) : ListWrites s (offerTo s p j l r) := by
  unfold offerTo
  dsimp only
  have hstored := (modJob_listWrites s j.ref _).trans (storeRows_listWrites (modJob s j.ref fun x => { x with
    lists := x.lists.put l (offerEntry (activeCtx (lant s p)).beacon (listOf j l) r).1 }) p j.ref (activeCtx (lant s p)).beacon
      (offerEntry (activeCtx (lant s p)).beacon (listOf j l) r).1)
  split
  · exact hstored
  · exact hstored.trans (noteBadIds_listWrites _ _ _)
  · exact hstored.trans (modJob_listWrites _ _ _)
  · exact (hstored.trans (modJob_listWrites _ _ _)).trans (noteMismatch_listWrites _ _ _)

theorem modLant_listWrites (s : State) (p : Phys) {f : Lantern → Lantern}
    (hf : ∃ o r, f (lant s p) = { lant s p with offers := o, fresh := r }) : ListWrites s (modLant s p f) := by
  obtain ⟨o, r, hf⟩ := hf
  intro q
  rw [lant_modLant]
  split
  case isTrue h => subst h; exact ⟨_, o, r, _, hf⟩
  case isFalse => exact ⟨_, _, _, _, rfl⟩

theorem drainOffers_listWrites (p : Phys) (n : Nat) (s : State) : ListWrites s (drainOffers p n s) := by
  induction n generalizing s with
  | zero => exact .refl s
  | succ n ih =>
    unfold drainOffers
    split
    · exact ((modLant_listWrites s p ⟨_, _, rfl⟩).trans (offerTo_listWrites _ _ _ _ _)).trans (ih _)
    · exact .refl s

theorem cycleOffers_listWrites (s : State) (p : Phys) (n : Nat) : ListWrites s (cycleOffers s p n) :=
  (modLant_listWrites s p ⟨_, _, rfl⟩).trans (drainOffers_listWrites p _ _)

/-- A list that nothing waits for is not touched. -/
theorem cycleOffers_of_noOffers {s : State} {p : Phys} (h : NoOffers (lant s p)) (n : Nat) : cycleOffers s p n = s := by
  obtain ⟨hoffers, hfresh⟩ := h
  have hqueue : queueOffers s p = s := by
    refine modLant_of_fixed ?_
    generalize lant s p = l at hoffers hfresh ⊢
    cases l
    simp_all
  rw [cycleOffers, hqueue]
  generalize 4 * n = m
  cases m with
  | zero => rfl
  | succ m => rw [drainOffers, hoffers]

/-! ## The end of an instruction -/

theorem settleSolves_eq (s : State) (r : JobRef) (all : Bool) : ∃ js, settleSolves s r all = { s with jobs := js } := by
  unfold settleSolves
  split
  · exact ⟨s.jobs, rfl⟩
  · split
    · exact ⟨s.jobs, rfl⟩
    · exact ⟨_, rfl⟩

/-- The cycles of an instruction pass on its lantern. -/
def passCycles (took : Nat) (l : Lantern) : Lantern := { l with cycle := l.cycle + took }

@[simp] theorem passCycles_basin (took : Nat) (l : Lantern) : (passCycles took l).basin = l.basin := rfl
@[simp] theorem passCycles_eccCorr (took : Nat) (l : Lantern) : (passCycles took l).eccCorr = l.eccCorr := rfl
@[simp] theorem wickGet_passCycles (took : Nat) (l : Lantern) (v : Nat) : wickGet (passCycles took l) v = wickGet l v := rfl

/-- The list applies the cycle's offers, the cycles pass, and the solves whose intervals have passed are judged. -/
def endIssue (s : State) (p : Phys) (took : Nat) : State :=
  let s1 := modLant (cycleOffers s p took) p (passCycles took)
  ((jobOn s1 p).map fun j => settleSolves s1 j.ref false).getD s1

theorem endIssue_eq (s : State) (p : Phys) (took : Nat) :
    ∃ js, endIssue s p took = { modLant (cycleOffers s p took) p (passCycles took) with jobs := js } := by
  unfold endIssue
  extract_lets s1
  cases jobOn s1 p with
  | none => exact ⟨s1.jobs, rfl⟩
  | some j => exact settleSolves_eq s1 j.ref false

theorem lant_endIssue (s : State) (p : Phys) (took : Nat) :
    lant (endIssue s p took) p = passCycles took (lant (cycleOffers s p took) p) := by
  obtain ⟨js, hend⟩ := endIssue_eq s p took
  rw [hend, lant_jobs, lant_modLant, if_pos rfl]

/-- Where no offer waits, the end of an instruction writes the lantern's cycle and jobs. -/
theorem endIssue_of_noOffers {s : State} {p : Phys} (h : NoOffers (lant s p)) (took : Nat) :
    LanternFrame p s (endIssue s p took) ∧ lant (endIssue s p took) p = passCycles took (lant s p) := by
  obtain ⟨js, hend⟩ := endIssue_eq s p took
  refine ⟨?_, by rw [lant_endIssue, cycleOffers_of_noOffers h]⟩
  rw [hend, cycleOffers_of_noOffers h]
  exact (modLant_frame s p _).trans (jobs_frame _ p js)

/-! ## The instruction of one operation -/

/-- What one operation does in its wick's registers, at the gather port and over the mesh; the rill side is left empty. -/
def wickActs (s : State) (p : Phys) (w : Fin 64) (op : WickOp) : State :=
  let l := lant s p
  let k := wickGet l w.val
  let o := underPreds k op
  let s1 := modWick s p w.val fun _ => (localOp (activeCtx l) k k o).1
  meshSend l p (modLant (gather s1 p l w.val o) p rillDone) (w, o)

/-- The elements that one operation counts. -/
def wickCounts (s : State) (p : Phys) (w : Fin 64) (op : WickOp) : Nat :=
  let k := wickGet (lant s p) w.val
  min 8 (localOp (activeCtx (lant s p)) k k (underPreds k op)).2

theorem runWicks_single (s : State) (p : Phys) (w : Fin 64) (op : WickOp) (n : Nat) (hswitch : (lant s p).switches = [])
    (hrill : (lant s p).rill = []) :
    runWicks s p n [(w, op)] [] =
      let e := (w, underPreds (wickGet (lant s p) w.val) op)
      eccOp p (endIssue (stageStep p (countRange (wickActs s p w op) p (wickCounts s p w op)) e) p
        (n + (issueCycles w op - 1))) e := by
  have hsettled : modLant s p settleSwitches = s := modLant_of_fixed (by simp [settleSwitches, hswitch])
  have hsorted : byWick [(w, op)] = [(w, op)] := rfl
  have hcounted : sumNat ((List.range 64).map (wickCount (activeCtx (lant s p)) (lant s p)
      [(w, underPreds (wickGet (lant s p) w.val) op)])) = wickCounts s p w op := by
    rw [funext (wickCount_single (activeCtx (lant s p)) (lant s p) w _), sumNat_single]
    rfl
  have hload : 0 < max 1 (bankLoad [(w, op)]) := by omega
  unfold runWicks
  simp only [hsettled, hsorted, List.map_cons, List.map_nil, hcounted, gatherAll_single _ p hrill w op hload,
    List.foldl_cons, List.foldl_nil]
  rfl

theorem exec_wickInstruction {s : State} (hs : Served s) {p : Phys} (hrun : executes s p = true) (n : Nat)
    (ops : List (Fin 64 × WickOp)) (rill : List RillPort) :
    exec (.wickInstruction p n ops rill) s = .next (runWicks s p n ops rill) := by
  have harm : exec (.wickInstruction p n ops rill) s = execWickInstruction p n ops rill s := rfl
  rw [harm, execWickInstruction, serve_of_served hs, if_pos hrun]

/-! ## Register operations (R21, R22) -/

theorem registerOp_underPreds (k : Wick) {op : WickOp} (h : registerOp op = true) : registerOp (underPreds k op) = true := by
  induction op with
  | pred q want op ih =>
    rw [underPreds]
    split
    · exact ih h
    · rfl
  | _ => exact h

/-- A register operation asks for no bank. -/
theorem bankCycles_of_registerOp {op : WickOp} (h : registerOp op = true) : bankCycles (issuedOp op) = [] := by
  induction op with
  | pred q want op ih => exact ih h
  | gatherRead | gatherWrite | gatherAtomic | mesh | eccRead | stage => cases h
  | _ => rfl

theorem gather_of_registerOp (s : State) (p : Phys) (old : Lantern) (w : Nat) {op : WickOp} (h : registerOp op = true) :
    gather s p old w op = s := by
  cases op <;> simp_all [registerOp, gather]

theorem meshSend_of_registerOp (old : Lantern) (p : Phys) (s : State) (w : Fin 64) {op : WickOp} (h : registerOp op = true) :
    meshSend old p s (w, op) = s := by
  cases op <;> simp_all [registerOp, meshSend]

theorem stageStep_of_registerOp (p : Phys) (s : State) (w : Fin 64) {op : WickOp} (h : registerOp op = true) :
    stageStep p s (w, op) = s := by
  cases op <;> simp_all [registerOp, stageStep]

theorem eccOp_of_registerOp (p : Phys) (s : State) (w : Fin 64) {op : WickOp} (h : registerOp op = true) :
    eccOp p s (w, op) = s := by
  cases op <;> simp_all [registerOp, eccOp]

/-- What a register operation leaves in its wick, and the elements that it counts. -/
def registerResult (l : Lantern) (w : Fin 64) (op : WickOp) : Wick × Nat :=
  localOp (activeCtx l) (wickGet l w.val) (wickGet l w.val) (underPreds (wickGet l w.val) op)

/-- The state before a register operation's instruction ends: its wick is written and its elements are counted. -/
def registersDone (s : State) (p : Phys) (w : Fin 64) (op : WickOp) : State :=
  countRange (modLant (modWick s p w.val fun _ => (registerResult (lant s p) w op).1) p rillDone) p
    (min 8 (registerResult (lant s p) w op).2)

/-- A register operation writes its wick, counts, and ends its instruction after the cycles stated. -/
theorem runWicks_registerOp {s : State} {p : Phys} {w : Fin 64} {op : WickOp} (n : Nat) (hswitch : (lant s p).switches = [])
    (hrill : (lant s p).rill = []) (h : registerOp op = true) :
    runWicks s p n [(w, op)] [] = endIssue (registersDone s p w op) p n := by
  have ho := registerOp_underPreds (wickGet (lant s p) w.val) h
  have hcycles : issueCycles w op = 1 := by
    rw [issueCycles, bankLoad_single (c := 0) (b := 0) (by decide) (bankCycles_of_registerOp h), Nat.max_zero]
  rw [runWicks_single s p w op n hswitch hrill, hcycles]
  simp only [eccOp_of_registerOp p _ w ho, stageStep_of_registerOp p _ w ho, wickActs, gather_of_registerOp _ p _ _ ho,
    meshSend_of_registerOp _ p _ w ho]
  rfl

theorem registersDone_writes (s : State) (p : Phys) (w : Fin 64) (op : WickOp) :
    LanternFrame p s (registersDone s p w op) ∧ ∃ c, lant (registersDone s p w op) p = { lant s p with
      wicks := (lant s p).wicks.put w.val (registerResult (lant s p) w op).1, rill := [], counted := c
      rangeCtr := BitVec.ofNat 32 (min ((lant s p).rangeCtr.toNat + min 8 (registerResult (lant s p) w op).2) 0xFFFF_FFFF) } := by
  obtain ⟨hframe, c, hcount⟩ := countRange_writes (modLant (modWick s p w.val fun _ => (registerResult (lant s p) w op).1)
      p rillDone) p (min 8 (registerResult (lant s p) w op).2)
  refine ⟨((modLant_frame s p _).trans (modLant_frame _ p _)).trans hframe, c, hcount.trans ?_⟩
  rw [lant_modLant, if_pos rfl, lant_modWick, if_pos rfl]
  rfl

/-- Settles O14: `runWicks_registerOp`, with what the end of the instruction may write of the lantern. -/
theorem wickRegisterOps : Obligations.WickRegisterOps := by
  unfold Obligations.WickRegisterOps
  intro s p w op n hs hrun hswitch hrill hop k r
  obtain ⟨hframe, c, hdone⟩ := registersDone_writes s p w op
  obtain ⟨g, o, f, b, hlist⟩ := cycleOffers_listWrites (registersDone s p w op) p n p
  have hlant := lant_endIssue (registersDone s p w op) p n
  rw [hlist, hdone] at hlant
  have hwick : ∀ v, wickGet (lant (endIssue (registersDone s p w op) p n) p) v = if w.val = v then r.1 else wickGet (lant s p) v := by
    intro v
    rw [hlant]
    exact wickGet_of_put (lant s p) (by rfl) (by rfl) v
  refine ⟨endIssue (registersDone s p w op) p n, ?exec, ?_, fun v hv => ?_, ?counter, ?cycle, fun ho hf => ?frame,
    fun rd ra rb halu i hi => ?lanes⟩
  case exec => rw [exec_wickInstruction hs hrun, runWicks_registerOp n hswitch hrill hop]
  · rw [hwick, if_pos rfl]
  · rw [hwick, if_neg hv.symm]
  case counter =>
    rw [hlant]
    exact (BitVec.toNat_ofNat _ _).trans (Nat.mod_eq_of_lt (Nat.lt_of_le_of_lt (Nat.min_le_right _ _) (by decide)))
  case cycle => rw [hlant]; rfl
  case frame =>
    obtain ⟨hend, hquiet⟩ := endIssue_of_noOffers (s := registersDone s p w op) (p := p) (by rw [hdone]; exact ⟨ho, hf⟩) n
    have hall := hframe.trans hend
    obtain ⟨hboard, hfield, hfaults, hunits⟩ := hall.sameUnits
    refine ⟨?_, hall.2, hboard, hfield, hfaults, hunits⟩
    rw [hquiet, hdone]
    rfl
  case lanes =>
    subst halu
    exact regGet_aluRegs k k .add rd.toNat ra.toNat rb.toNat hi

/-! ## Operations that leave the registers to the gather port and the mesh -/

/-- An operation of the gather port or of the mesh, or none. -/
def portOp : WickOp → Bool
  | .idle | .gatherRead .. | .gatherWrite .. | .gatherAtomic .. | .mesh .. => true
  | _ => false

theorem localOp_of_portOp (c : CtxCfg) (old cur : Wick) {op : WickOp} (h : portOp op = true) : localOp c old cur op = (cur, 0) := by
  cases op <;> simp_all [portOp, localOp]

theorem stageStep_of_portOp (p : Phys) (s : State) (w : Fin 64) {op : WickOp} (h : portOp op = true) :
    stageStep p s (w, op) = s := by
  cases op <;> simp_all [portOp, stageStep]

theorem eccOp_of_portOp (p : Phys) (s : State) (w : Fin 64) {op : WickOp} (h : portOp op = true) :
    eccOp p s (w, op) = s := by
  cases op <;> simp_all [portOp, eccOp]

/-- A wick's entry is written with what the wick holds. -/
def touchWick (s : State) (p : Phys) (w : Fin 64) : State := modWick s p w.val fun _ => wickGet (lant s p) w.val

/-- The lantern after `touchWick`: every wick holds what it held. -/
def touchedLant (l : Lantern) (w : Fin 64) : Lantern := { l with wicks := l.wicks.put w.val (wickGet l w.val) }

@[simp] theorem touchedLant_eccCorr (l : Lantern) (w : Fin 64) : (touchedLant l w).eccCorr = l.eccCorr := rfl

theorem lant_touchWick (s : State) (p : Phys) (w : Fin 64) : lant (touchWick s p w) p = touchedLant (lant s p) w := by
  rw [touchWick, lant_modWick, if_pos rfl, touchedLant]

@[simp] theorem wickGet_touchedLant (l : Lantern) (w : Fin 64) (v : Nat) : wickGet (touchedLant l w) v = wickGet l v := by
  have hput : wickGet (touchedLant l w) v = if w.val = v then wickGet l w.val else wickGet l v :=
    wickGet_of_put l (by rfl) (by rfl) v
  rw [hput]
  split
  case isTrue h => rw [h]
  case isFalse => rfl

/-- What an operation of a port leaves before its instruction ends. -/
theorem wickActs_portOp (s : State) (p : Phys) (w : Fin 64) (op : WickOp)
    (h : portOp (underPreds (wickGet (lant s p) w.val) op) = true) :
    let o := underPreds (wickGet (lant s p) w.val) op
    wickActs s p w op = meshSend (lant s p) p (modLant (gather (touchWick s p w) p (lant s p) w.val o) p rillDone) (w, o) := by
  simp only [wickActs, localOp_of_portOp _ _ _ h]
  rfl

theorem lant_runWicks_portOp {s : State} {p : Phys} {w : Fin 64} {op : WickOp} (n : Nat) (hswitch : (lant s p).switches = [])
    (hrill : (lant s p).rill = []) (h : portOp (underPreds (wickGet (lant s p) w.val) op) = true)
    (hnone : NoOffers (lant (wickActs s p w op) p)) : lant (runWicks s p n [(w, op)] []) p
      = passCycles (n + (issueCycles w op - 1)) (lant (wickActs s p w op) p) := by
  have hcounts : wickCounts s p w op = 0 := by rw [wickCounts, localOp_of_portOp _ _ _ h, Nat.min_zero]
  rw [runWicks_single s p w op n hswitch hrill, hcounts, countRange_zero]
  dsimp only
  rw [stageStep_of_portOp p _ w h, eccOp_of_portOp p _ w h]
  exact (endIssue_of_noOffers hnone _).2

/-- An instruction of one operation that the mesh does not carry takes what the gather port leaves of the lantern. -/
theorem lant_runWicks_gather {s : State} {p : Phys} {w : Fin 64} {op : WickOp} (o : WickOp) (n c : Nat)
    (hswitch : (lant s p).switches = []) (hrill : (lant s p).rill = []) (ho : underPreds (wickGet (lant s p) w.val) op = o)
    (h : portOp o = true) (hmesh : ∀ t, meshSend (lant s p) p t (w, o) = t) (hcycles : issueCycles w op = c + 1) {l : Lantern}
    (hl : lant (gather (touchWick s p w) p (lant s p) w.val o) p = l) (hnone : NoOffers l) :
    lant (runWicks s p n [(w, op)] []) p = passCycles (n + c) (rillDone l) := by
  subst ho
  have hacts : lant (wickActs s p w op) p = rillDone l := by
    rw [wickActs_portOp s p w op h, hmesh, lant_modLant, if_pos rfl, hl]
  rw [lant_runWicks_portOp n hswitch hrill h (by rw [hacts]; exact hnone), hacts, hcycles, Nat.add_sub_cancel]

/-! ## The gather port (R46, R53, R57) -/

/-- The address of the 8 B word that a gather access reads or writes. -/
def gatherWord (a : Nat) : Nat := a % basinSize / 8 * 8

theorem gatherRead_awake {s : State} {p : Phys} (h : (lant s p).retain.asleep = false) (old : Lantern) (w a : Nat)
    (rd : BitVec 8) : gather s p old w (.gatherRead a rd)
      = modWick s p w fun k => putBytes k rd.toNat ((lant s p).basin.readN (gatherWord a) 8) := by
  simp [gather, h, gatherWord]

theorem gatherWrite_awake {s : State} {p : Phys} (h : (lant s p).retain.asleep = false) (old : Lantern) (w a : Nat)
    (be ra : BitVec 8) : gather s p old w (.gatherWrite a be ra) = modLant s p fun l => { l with
      basin := l.basin.writeN (gatherWord a) (mergeBytes be ((lant s p).basin.readN (gatherWord a) 8)
        (regBytes (wickGet old w) ra.toNat 2)) } := by
  simp [gather, h, gatherWord]

/-- A gather access of a basin in retention fails the lantern's job (R57). -/
def refuseGather (s : State) (job : Option JobRef) : State := (job.map (retainedAccess s)).getD s

theorem refuseGather_kept (s : State) (job : Option JobRef) : Kept s (refuseGather s job) := by
  cases job with
  | some r => exact raiseFor_kept s .memRetainedAccess [] r
  | none => exact .refl s

theorem gatherRead_asleep {s : State} {p : Phys} (h : (lant s p).retain.asleep = true) (old : Lantern) (w a : Nat)
    (rd : BitVec 8) : gather s p old w (.gatherRead a rd)
      = refuseGather (modWick s p w fun k => putBytes k rd.toNat (zeros 8)) (lant s p).job := by
  cases hjob : (lant s p).job <;> simp [gather, h, hjob, refuseGather]

theorem gatherWrite_asleep {s : State} {p : Phys} (h : (lant s p).retain.asleep = true) (old : Lantern) (w a : Nat)
    (be ra : BitVec 8) : gather s p old w (.gatherWrite a be ra) = refuseGather s (lant s p).job := by
  cases hjob : (lant s p).job <;> simp [gather, h, hjob, refuseGather]

theorem lant_placeWrite_basin (s : State) (p : Phys) (a : Nat) (bs : List Byte) : lant (placeWrite s (.basin p a) bs) p
    = { lant s p with basin := (lant s p).basin.writeWhere (placeHas s (.basin p a)) a bs } :=
  (lant_modLant s p p _).trans (if_pos rfl)

/-- An atomic of a wick at a word of an awake pool: its result is stored and the word's old value returned (R53). -/
theorem gatherAtomic_awake {s : State} {p : Phys} (h : (lant s p).retain.asleep = false) (old : Lantern) (w a : Nat) (op : AtomicOp)
    (ra rd : BitVec 8) (hvalid : atomicValid (.basin p (a % basinSize)) op = true) :
    let r := atomicOn op (word8 (placeRead s (.basin p (a % basinSize)) (atomicBytes op)))
      (word8 (regBytes (wickGet old w) ra.toNat 2))
    gather s p old w (.gatherAtomic op a ra rd) = modWick (reqReturn (placeWrite s (.basin p (a % basinSize))
      (leBytes (atomicBytes op) r.1.toNat)) (.wick p) r.2) p w fun k => putBytes k rd.toNat (leBytes 8 r.2.toNat) := by
  intro r
  have hatomic : atomic s (.wick p) (.basin p (a % basinSize)) op (word8 (regBytes (wickGet old w) ra.toNat 2))
      = reqReturn (placeWrite s (.basin p (a % basinSize)) (leBytes (atomicBytes op) r.1.toNat)) (.wick p) r.2 := by
    simp [atomic, hvalid, reqPlanned, placeAsleep, h, r]
  have hret : ∀ t, (lant (reqReturn t (.wick p) r.2) p).ret = r.2 := fun t => by
    rw [reqReturn, lant_modLant, if_pos rfl]
  have hgather : gather s p old w (.gatherAtomic op a ra rd) = wickAtomic s p w old op a ra.toNat rd.toNat := rfl
  rw [hgather, wickAtomic, hatomic, hret]

/-! ## The lantern after a gather operation -/

theorem issueCycles_of_banks {w : Fin 64} {op : WickOp} {c b : Nat} (hb : b < 64) (h : bankCycles (issuedOp op) = List.replicate c b) :
    issueCycles w op = max 1 c := by rw [issueCycles, bankLoad_single hb h]

/-- Every gather operation but an atomic is served in one issue cycle (R47). -/
theorem issueCycles_gatherRead (w : Fin 64) (a : Nat) (rd : BitVec 8) : issueCycles w (.gatherRead a rd) = 1 :=
  issueCycles_of_banks (c := 1) (Nat.mod_lt (a % basinSize / 8) (by decide)) rfl

theorem issueCycles_gatherWrite (w : Fin 64) (a : Nat) (be ra : BitVec 8) : issueCycles w (.gatherWrite a be ra) = 1 :=
  issueCycles_of_banks (c := 1) (Nat.mod_lt (a % basinSize / 8) (by decide)) rfl

/-- An atomic occupies its bank for two cycles (R53). -/
theorem issueCycles_gatherAtomic (w : Fin 64) (op : AtomicOp) (a : Nat) (ra rd : BitVec 8) :
    issueCycles w (.gatherAtomic op a ra rd) = 2 :=
  issueCycles_of_banks (c := 2) (Nat.mod_lt (a % basinSize / 8) (by decide)) rfl

section Gather

variable (s : State) (p : Phys) (w : Fin 64) (a : Nat) (rd ra be : BitVec 8)

theorem touchWick_asleep : (lant (touchWick s p w) p).retain.asleep = (lant s p).retain.asleep := by rw [lant_touchWick]; rfl

theorem lant_gatherRead_awake (h : (lant s p).retain.asleep = false) :
    lant (gather (touchWick s p w) p (lant s p) w.val (.gatherRead a rd)) p = { touchedLant (lant s p) w with
      wicks := (touchedLant (lant s p) w).wicks.put w.val
        (putBytes (wickGet (lant s p) w.val) rd.toNat ((lant s p).basin.readN (gatherWord a) 8)) } := by
  rw [gatherRead_awake ((touchWick_asleep s p w).trans h), lant_modWick, if_pos rfl, lant_touchWick, wickGet_touchedLant]
  rfl

theorem lant_gatherWrite_awake (h : (lant s p).retain.asleep = false) :
    lant (gather (touchWick s p w) p (lant s p) w.val (.gatherWrite a be ra)) p = { touchedLant (lant s p) w with
      basin := (lant s p).basin.writeN (gatherWord a) (mergeBytes be ((lant s p).basin.readN (gatherWord a) 8)
        (regBytes (wickGet (lant s p) w.val) ra.toNat 2)) } := by
  rw [gatherWrite_awake ((touchWick_asleep s p w).trans h), lant_modLant, if_pos rfl, lant_touchWick]
  rfl

theorem lant_gatherRead_asleep (h : (lant s p).retain.asleep = true) :
    ∃ g, lant (gather (touchWick s p w) p (lant s p) w.val (.gatherRead a rd)) p = { touchedLant (lant s p) w with
      gated := g
      wicks := (touchedLant (lant s p) w).wicks.put w.val (putBytes (wickGet (lant s p) w.val) rd.toNat (zeros 8)) } := by
  rw [gatherRead_asleep ((touchWick_asleep s p w).trans h)]
  obtain ⟨g, hg⟩ := (refuseGather_kept (modWick (touchWick s p w) p w.val fun k => putBytes k rd.toNat (zeros 8))
    (lant (touchWick s p w) p).job).lant p
  refine ⟨g, ?_⟩
  rw [hg, lant_modWick, if_pos rfl, lant_touchWick, wickGet_touchedLant]

theorem lant_gatherWrite_asleep (h : (lant s p).retain.asleep = true) :
    ∃ g, lant (gather (touchWick s p w) p (lant s p) w.val (.gatherWrite a be ra)) p
      = { touchedLant (lant s p) w with gated := g } := by
  rw [gatherWrite_asleep ((touchWick_asleep s p w).trans h)]
  obtain ⟨g, hg⟩ := (refuseGather_kept (touchWick s p w) (lant (touchWick s p w) p).job).lant p
  exact ⟨g, by rw [hg, lant_touchWick]⟩

theorem lant_gatherAtomic_awake (h : (lant s p).retain.asleep = false) (op : AtomicOp)
    (hvalid : atomicValid (.basin p (a % basinSize)) op = true) :
    let r := atomicOn op (word8 (placeRead s (.basin p (a % basinSize)) (atomicBytes op)))
      (word8 (regBytes (wickGet (lant s p) w.val) ra.toNat 2))
    lant (gather (touchWick s p w) p (lant s p) w.val (.gatherAtomic op a ra rd)) p = { touchedLant (lant s p) w with
      wicks := (touchedLant (lant s p) w).wicks.put w.val (putBytes (wickGet (lant s p) w.val) rd.toNat (leBytes 8 r.2.toNat))
      ret := r.2
      basin := (lant (placeWrite s (.basin p (a % basinSize)) (leBytes (atomicBytes op) r.1.toNat)) p).basin } := by
  intro r
  have hbasin : (lant (touchWick s p w) p).basin = (lant s p).basin := by rw [lant_touchWick]; rfl
  have hread : placeRead (touchWick s p w) (.basin p (a % basinSize)) (atomicBytes op)
      = placeRead s (.basin p (a % basinSize)) (atomicBytes op) := by
    simp only [placeRead, placeRam, hbasin]
    rfl
  have hstored : lant (reqReturn (placeWrite (touchWick s p w) (.basin p (a % basinSize)) (leBytes (atomicBytes op) r.1.toNat))
      (.wick p) r.2) p = { touchedLant (lant s p) w with
      ret := r.2
      basin := (lant (placeWrite s (.basin p (a % basinSize)) (leBytes (atomicBytes op) r.1.toNat)) p).basin } := by
    rw [reqReturn, lant_modLant, if_pos rfl, lant_placeWrite_basin, lant_placeWrite_basin, lant_touchWick]
    rfl
  have hwick : wickGet (lant (reqReturn (placeWrite (touchWick s p w) (.basin p (a % basinSize))
      (leBytes (atomicBytes op) r.1.toNat)) (.wick p) r.2) p) w.val = wickGet (lant s p) w.val := by
    rw [hstored]
    exact (wickGet_congr rfl rfl w.val).trans (wickGet_touchedLant (lant s p) w w.val)
  rw [gatherAtomic_awake ((touchWick_asleep s p w).trans h) _ _ _ _ _ _ hvalid, hread, lant_modWick, if_pos rfl, hwick, hstored]

end Gather

/-! ## Mesh transfers, predicates and ECC events (R22, R29) -/

theorem meshTo_ne {d : MeshDir} {w v : Nat} (h : meshTo d w = some v) : v ≠ w := by
  cases d <;> simp only [meshTo, Option.ite_none_right_eq_some, Option.some.injEq] at h <;> omega

theorem underPreds_of_not {k : Wick} {q : Fin 16} {want : Bool} (h : k.preds.getLsbD q.val ≠ want) (op : WickOp) :
    underPreds k (.pred q want op) = .idle := by
  rw [underPreds, if_neg (by simpa using h)]

section Clauses

variable {s : State} {p : Phys} (w : Fin 64) (n a : Nat) (rd ra be : BitVec 8) (hswitch : (lant s p).switches = [])
  (hrill : (lant s p).rill = []) (hnone : NoOffers (lant s p))

include hswitch hrill hnone

theorem runWicks_gatherRead_awake (h : (lant s p).retain.asleep = false) :
    let t := runWicks s p n [(w, .gatherRead a rd)] []
    wickGet (lant t p) w.val = putBytes (wickGet (lant s p) w.val) rd.toNat ((lant s p).basin.readN (gatherWord a) 8)
      ∧ (lant t p).basin = (lant s p).basin ∧ (lant t p).cycle = (lant s p).cycle + n := by
  intro t
  have hl : lant t p = _ := lant_runWicks_gather (.gatherRead a rd) n 0 hswitch hrill rfl rfl (fun _ => rfl)
    (issueCycles_gatherRead w a rd) (lant_gatherRead_awake s p w a rd h) hnone
  rw [hl]
  exact ⟨wickGet_of_put_same (touchedLant (lant s p) w) rfl rfl, rfl, rfl⟩

theorem runWicks_gatherWrite_awake (h : (lant s p).retain.asleep = false) :
    let t := runWicks s p n [(w, .gatherWrite a be ra)] []
    wickGet (lant t p) w.val = wickGet (lant s p) w.val
      ∧ (lant t p).basin = (lant s p).basin.writeN (gatherWord a) (mergeBytes be ((lant s p).basin.readN (gatherWord a) 8)
        (regBytes (wickGet (lant s p) w.val) ra.toNat 2)) := by
  intro t
  have hl : lant t p = _ := lant_runWicks_gather (.gatherWrite a be ra) n 0 hswitch hrill rfl rfl (fun _ => rfl)
    (issueCycles_gatherWrite w a be ra) (lant_gatherWrite_awake s p w a ra be h) hnone
  rw [hl, wickGet_passCycles, wickGet_rillDone, wickGet_basin, wickGet_touchedLant, passCycles_basin, rillDone_basin]
  exact ⟨rfl, by dsimp only⟩

theorem runWicks_gatherAtomic_awake (h : (lant s p).retain.asleep = false) (op : AtomicOp)
    (hvalid : atomicValid (.basin p (a % basinSize)) op = true) :
    let t := runWicks s p n [(w, .gatherAtomic op a ra rd)] []
    let r := atomicOn op (word8 (placeRead s (.basin p (a % basinSize)) (atomicBytes op)))
      (word8 (regBytes (wickGet (lant s p) w.val) ra.toNat 2))
    wickGet (lant t p) w.val = putBytes (wickGet (lant s p) w.val) rd.toNat (leBytes 8 r.2.toNat)
      ∧ (lant t p).basin = (lant (placeWrite s (.basin p (a % basinSize)) (leBytes (atomicBytes op) r.1.toNat)) p).basin
      ∧ (lant t p).cycle = (lant s p).cycle + n + 1 := by
  intro t r
  have hl : lant t p = _ := lant_runWicks_gather (.gatherAtomic op a ra rd) n 1 hswitch hrill rfl rfl (fun _ => rfl)
    (issueCycles_gatherAtomic w op a ra rd) (lant_gatherAtomic_awake s p w a rd ra h op hvalid) hnone
  rw [hl]
  exact ⟨wickGet_of_put_same (touchedLant (lant s p) w) rfl rfl, rfl, rfl⟩

/-- A refused read gives zeros (R57). -/
theorem runWicks_gatherRead_asleep (h : (lant s p).retain.asleep = true) :
    let t := runWicks s p n [(w, .gatherRead a rd)] []
    wickGet (lant t p) w.val = putBytes (wickGet (lant s p) w.val) rd.toNat (zeros 8)
      ∧ (lant t p).basin = (lant s p).basin := by
  intro t
  obtain ⟨g, hg⟩ := lant_gatherRead_asleep s p w a rd h
  have hl : lant t p = _ := lant_runWicks_gather (.gatherRead a rd) n 0 hswitch hrill rfl rfl (fun _ => rfl)
    (issueCycles_gatherRead w a rd) hg hnone
  rw [hl]
  exact ⟨wickGet_of_put_same (touchedLant (lant s p) w) rfl rfl, rfl⟩

/-- A refused write stores nothing (R57). -/
theorem runWicks_gatherWrite_asleep (h : (lant s p).retain.asleep = true) :
    (lant (runWicks s p n [(w, .gatherWrite a be ra)] []) p).basin = (lant s p).basin := by
  obtain ⟨g, hg⟩ := lant_gatherWrite_asleep s p w a ra be h
  rw [lant_runWicks_gather (.gatherWrite a be ra) n 0 hswitch hrill rfl rfl (fun _ => rfl)
    (issueCycles_gatherWrite w a be ra) hg hnone]
  rfl

/-- A mesh transfer writes the neighbour with eight registers of the sender (R21). -/
theorem runWicks_mesh {d : MeshDir} {v : Nat} (hto : meshTo d w.val = some v) :
    let t := runWicks s p n [(w, .mesh d ra rd)] []
    wickGet (lant t p) v = putBytes (wickGet (lant s p) v) rd.toNat (regBytes (wickGet (lant s p) w.val) ra.toNat 8)
      ∧ wickGet (lant t p) w.val = wickGet (lant s p) w.val := by
  intro t
  have hrest : lant (modLant (touchWick s p w) p rillDone) p = rillDone (touchedLant (lant s p) w) := by
    rw [lant_modLant, if_pos rfl, lant_touchWick]
  have hsend : meshSend (lant s p) p (modLant (touchWick s p w) p rillDone) (w, .mesh d ra rd)
      = modWick (modLant (touchWick s p w) p rillDone) p v fun k =>
        putBytes k rd.toNat (regBytes (wickGet (lant s p) w.val) ra.toNat 8) := by simp only [meshSend, hto]
  have hacts : lant (wickActs s p w (.mesh d ra rd)) p = { rillDone (touchedLant (lant s p) w) with
      wicks := (touchedLant (lant s p) w).wicks.put v
        (putBytes (wickGet (lant s p) v) rd.toNat (regBytes (wickGet (lant s p) w.val) ra.toNat 8)) } := by
    rw [wickActs_portOp s p w _ rfl]
    refine (congrArg (lant · p) hsend).trans ?_
    rw [lant_modWick, if_pos rfl, hrest, wickGet_rillDone, wickGet_touchedLant]
    rfl
  have hl : lant t p = _ := lant_runWicks_portOp n hswitch hrill rfl (by rw [hacts]; exact hnone)
  have hget : ∀ x, wickGet (lant t p) x = if v = x then
      putBytes (wickGet (lant s p) v) rd.toNat (regBytes (wickGet (lant s p) w.val) ra.toNat 8)
      else wickGet (touchedLant (lant s p) w) x := by
    intro x
    rw [hl, hacts, wickGet_passCycles]
    exact wickGet_of_put (touchedLant (lant s p) w) (by rfl) (by rfl) x
  exact ⟨by rw [hget, if_pos rfl], by rw [hget, if_neg (meshTo_ne hto), wickGet_touchedLant]⟩

/-- An operation whose predicate does not hold leaves every wick and the basin, whatever its issue takes (R22). -/
theorem runWicks_of_not {q : Fin 16} {want : Bool} (h : (wickGet (lant s p) w.val).preds.getLsbD q.val ≠ want) (op : WickOp) :
    let t := runWicks s p n [(w, .pred q want op)] []
    (∀ v, wickGet (lant t p) v = wickGet (lant s p) v) ∧ (lant t p).basin = (lant s p).basin := by
  intro t
  obtain ⟨c, hc⟩ : ∃ c, issueCycles w (.pred q want op) = c + 1 :=
    ⟨issueCycles w (.pred q want op) - 1, by rw [issueCycles]; omega⟩
  have hl : lant t p = _ := lant_runWicks_gather .idle n c hswitch hrill (underPreds_of_not h op) rfl (fun _ => rfl) hc
    (lant_touchWick s p w) hnone
  rw [hl]
  exact ⟨fun v => by rw [wickGet_passCycles, wickGet_rillDone, wickGet_touchedLant], rfl⟩

/-- An instruction of one ECC event: the event, after the lantern's cycles (R29). -/
theorem runWicks_eccRead (st : FabricStore) (double : Bool) :
    ∃ t, runWicks s p n [(w, .eccRead st double)] [] = eccOp p t (w, .eccRead st double) ∧ LanternFrame p s t
      ∧ (lant t p).eccCorr = (lant s p).eccCorr := by
  have hacts : lant (wickActs s p w (.eccRead st double)) p = rillDone (touchedLant (lant s p) w) :=
    (lant_modLant (touchWick s p w) p p rillDone).trans ((if_pos rfl).trans (congrArg rillDone (lant_touchWick s p w)))
  have hframe : LanternFrame p s (wickActs s p w (.eccRead st double)) :=
    (modLant_frame s p _).trans (modLant_frame (touchWick s p w) p rillDone)
  obtain ⟨hend, hlant⟩ := endIssue_of_noOffers (s := wickActs s p w (.eccRead st double)) (p := p) (by rw [hacts]; exact hnone)
    (n + (issueCycles w (.eccRead st double) - 1))
  refine ⟨_, ?_, hframe.trans hend, ?_⟩
  · have hcounts : wickCounts s p w (.eccRead st double) = 0 := Nat.min_zero 8
    rw [runWicks_single s p w _ n hswitch hrill, hcounts, countRange_zero]
    rfl
  · rw [hlant, hacts, passCycles_eccCorr, rillDone_eccCorr, touchedLant_eccCorr]

end Clauses

/-- An S1 event that is not suppressed asserts STOP_REQ_N (R285). -/
theorem raise_stops {s : State} {cls : EventClass} (words : List W32) (h : cls.severity = 1) (hs : suppressed s cls = false) :
    (raise s cls words).pwr.stop = true := by
  have hresponse : ∀ t, (respondS1 t cls).pwr.stop = true := by
    intro t
    have hstop : (emberFlushStart (assertStop t)).pwr.stop = true := (emberFlushStart_kept _).stop rfl
    unfold respondS1
    dsimp only
    split
    · exact (enterHalt_kept _).stop hstop
    · split
      · exact hstop
      · exact (handlerArrive_kept _ cls).stop hstop
  simp only [raise, raiseEv, hs, h, Bool.false_eq_true, if_false, if_true]
  exact hresponse _

/-- While the device serves, its dies are not in reset. -/
theorem suppressed_of_served {s : State} (hs : Served s) (cls : EventClass) : suppressed s cls = false := by
  obtain ⟨-, hready, hstate⟩ := hs
  simp [suppressed, diesReset, hready, hstate]

/-- Settles O15: each operation by what its instruction leaves of the lantern. -/
theorem wickMemoryOps : Obligations.WickMemoryOps := by
  unfold Obligations.WickMemoryOps
  intro s p w n a rd ra be hs hrun hswitch hrill hoffers hfresh l k at_
  have hnone : NoOffers l := ⟨hoffers, hfresh⟩
  have hexec := fun op => exec_wickInstruction hs hrun n [(w, op)] []
  refine ⟨fun hawake => ?awake, fun hretained => ?retained, fun d v hto => ?mesh, fun q want op hpred => ?pred,
    fun st => ⟨?fatal, ?corrected⟩⟩
  case awake =>
    have hasleep : l.retain.asleep = false := by rw [hawake]; rfl
    refine ⟨⟨_, hexec _, runWicks_gatherRead_awake w n a rd hswitch hrill hnone hasleep⟩,
      ⟨_, hexec _, runWicks_gatherWrite_awake w n a ra be hswitch hrill hnone hasleep⟩, ?_⟩
    intro op pl r hvalid
    exact ⟨_, hexec _, runWicks_gatherAtomic_awake w n a rd ra hswitch hrill hnone hasleep op hvalid⟩
  case retained =>
    have hasleep : l.retain.asleep = true := by rw [hretained]; rfl
    exact ⟨⟨_, hexec _, runWicks_gatherRead_asleep w n a rd hswitch hrill hnone hasleep⟩,
      ⟨_, hexec _, runWicks_gatherWrite_asleep w n a ra be hswitch hrill hnone hasleep⟩⟩
  case mesh => exact ⟨_, hexec _, runWicks_mesh w n rd ra hswitch hrill hnone hto⟩
  case pred => exact ⟨_, hexec _, runWicks_of_not w n hswitch hrill hnone hpred op⟩
  case fatal =>
    obtain ⟨t, ht, ⟨⟨v, js, rfl⟩, -⟩, -⟩ := runWicks_eccRead w n hswitch hrill hnone st true
    refine ⟨_, hexec _, ?_⟩
    rw [ht]
    exact raise_stops [] rfl (suppressed_of_served hs .fabricEccFatal)
  case corrected =>
    obtain ⟨t, ht, -, hecc⟩ := runWicks_eccRead w n hswitch hrill hnone st false
    obtain ⟨g, hg⟩ := raise_lant (modLant t p fun l => { l with eccCorr := satInc l.eccCorr }) .fabricEccCorr [] p
    rw [lant_modLant, if_pos rfl, hecc] at hg
    refine ⟨_, hexec _, ?_⟩
    rw [ht]
    exact congrArg Lantern.eccCorr hg

end Sys2Proof.Machine

/-! # Jobs at a slot boundary (O36)

`endsNow` and `endStatus` are read off the end that a job carries, and `stepJob` off `endsNow`: one lemma per end, and one per
result of a job that nothing ends. -/

namespace Sys2Proof.Machine

open Sys2Proof

theorem lastSlot_iff {j : Job} (h : j.kind = .work) : lastSlot j = true ↔ j.img.slotCount ≤ j.slot + 1 := by
  simp [lastSlot, h]

theorem endsNow_of_none {j : Job} (h : j.endAs = .none) : endsNow j = lastSlot j := by rw [endsNow, h]

theorem endsNow_of_fault {j : Job} {c : EventClass} (h : j.endAs = .fault c) : endsNow j = lastSlot j := by rw [endsNow, h]

/-- A job between two of its slots, which no boundary ends or aborts, goes on to its next slot (R77). -/
theorem stepJob_of_continues (s : State) {j : Job} (hkind : j.kind ≠ .save) (habort : j.endAs ≠ .abort)
    (hends : endsNow j = false) : stepJob s j = modJob s j.ref nextSlot := by
  simp [stepJob, hkind, habort, hends]

theorem nextSlot_slot_of_work {j : Job} (h : j.kind = .work) : (nextSlot j).slot = j.slot + 1 := by
  simp only [nextSlot, h]

/-- A job that publishes nothing ends `OK` (R211). -/
theorem endStatus_of_silent {j : Job} (hend : j.endAs = .none) (h : j.img.publishes = false) : endStatus j = (.ok, 0) := by
  simp [endStatus, hend, h]

/-- A job that published a trajectory ends `OK` (R211). -/
theorem endStatus_of_published {j : Job} (hend : j.endAs = .none) (hrestored : j.restored = false)
    (h : j.published.isSome = true) : endStatus j = (.ok, 0) := by
  simp [endStatus, hend, hrestored, h]

section Unpublished

variable {j : Job} (hend : j.endAs = .none) (hpub : j.img.publishes = true) (hrestored : j.restored = false)
  (hnone : j.published = none)
include hend hpub hrestored hnone

/-- A job that selected candidates and confirmed none (R244). -/
theorem endStatus_of_selected (h : j.selected = true) : endStatus j = (.noConfirmedPlan, 0) := by
  simp [endStatus, hend, hpub, hrestored, hnone, h]

/-- A job that selected nothing: its route's status decides (R211). -/
theorem endStatus_of_unselected (h : j.selected = false) :
    endStatus j = (if j.route.status = .noRoute then .noRoute else .infeasibleBest, 0) := by
  by_cases hroute : j.route.status = .noRoute <;> simp [endStatus, hend, hpub, hrestored, hnone, h, hroute]

end Unpublished

/-- Settles O36, one clause for each end of a job. -/
theorem jobsContinueOrEnd : Obligations.JobsContinueOrEnd := by
  unfold Obligations.JobsContinueOrEnd
  intro s j hwork
  refine ⟨fun hend hmore => ?continues, fun hend => ?cancelled, fun c hend => ?faultNow, fun c hend => ?fault,
    fun hend hpub => endStatus_of_silent hend hpub, fun hend hpub hrestored => ?publishes⟩
  case continues =>
    have hends : endsNow j = false := by
      rw [endsNow_of_none hend, ← Bool.not_eq_true, lastSlot_iff hwork]
      omega
    exact ⟨stepJob_of_continues s (by simp [hwork]) (by simp [hend]) hends, nextSlot_slot_of_work hwork⟩
  case cancelled => exact ⟨by rw [endsNow, hend], by rw [endStatus, hend]⟩
  case faultNow => exact ⟨by rw [endsNow, hend], by rw [endStatus, hend]⟩
  case fault => exact ⟨by rw [endStatus, hend], by rw [endsNow_of_fault hend, lastSlot_iff hwork]⟩
  case publishes =>
    exact ⟨endStatus_of_published hend hrestored, endStatus_of_selected hend hpub hrestored,
      endStatus_of_unselected hend hpub hrestored⟩

end Sys2Proof.Machine

/-! # The walk dispatches or refuses (O35)

Both a dispatch and a refusal end in a round of settling, which may bring waiting jobs to ready, ready ones back, and wake
basins. What settling leaves comes first: the running jobs, what a lantern runs, and every descriptor that neither waits nor is
ready. Then the parts of a dispatch, and last the two outcomes of the walk. -/

namespace Sys2Proof.Machine

open Sys2Proof

/-! ## Who runs on which lantern -/

/-- The jobs are the same, and each lantern keeps the job that it runs and its range counter. -/
def SameRuns (s t : State) : Prop :=
  t.jobs = s.jobs ∧ ∀ p, (lant t p).job = (lant s p).job ∧ (lant t p).rangeCtr = (lant s p).rangeCtr

theorem SameRuns.refl (s : State) : SameRuns s s := ⟨rfl, fun _ => ⟨rfl, rfl⟩⟩

theorem SameRuns.trans {a b c : State} (h : SameRuns a b) (k : SameRuns b c) : SameRuns a c :=
  ⟨k.1.trans h.1, fun p => ⟨(k.2 p).1.trans (h.2 p).1, (k.2 p).2.trans (h.2 p).2⟩⟩

theorem sameRuns_modLant (s : State) (p : Phys) {f : Lantern → Lantern} (hjob : ∀ l, (f l).job = l.job)
    (hctr : ∀ l, (f l).rangeCtr = l.rangeCtr) : SameRuns s (modLant s p f) := by
  refine ⟨rfl, fun q => ?_⟩
  rw [lant_modLant]
  split
  case isTrue h => exact h ▸ ⟨hjob _, hctr _⟩
  case isFalse => exact ⟨rfl, rfl⟩

/-- A wake of basins writes lanterns and the power state alone, whatever state the device is in. -/
theorem wakeLanterns_writes (s : State) (ps : List Phys) : WakeFrame s (wakeLanterns s ps) ∧ SameRuns s (wakeLanterns s ps) := by
  by_cases hwake : CanWake s
  · have hframe := wakeLanterns_frame hwake ps
    refine ⟨hframe, ?_, fun q => ?_⟩
    · obtain ⟨v, st, heq, -⟩ := hframe
      rw [heq]
    · rw [lant_wakeLanterns hwake]
      split <;> exact ⟨rfl, rfl⟩
  · have hnone : wakeLanterns s ps = s := by
      have : s.pwr.pstate = .doze ∨ s.pwr.pstate = .pilot := by simpa only [CanWake, not_and_or, not_not] using hwake
      rcases this with h | h <;> simp [wakeLanterns, h]
    rw [hnone]
    exact ⟨.refl s, .refl s⟩

theorem wakeJob_writes (s : State) (d : DescEntry) : (wakeJob s d).descs = s.descs ∧ SameRuns s (wakeJob s d) := by
  unfold wakeJob
  split
  case h_1 img _ =>
    obtain ⟨⟨v, st, heq, -⟩, hruns⟩ := wakeLanterns_writes s (maskPhys s img.lanternSet)
    exact ⟨by rw [heq], hruns⟩
  case h_2 => exact ⟨rfl, .refl s⟩

/-! ## The stage at which a descriptor stands -/

theorem findDesc_congr {s t : State} (h : t.descs = s.descs) (r : JobRef) : findDesc t r = findDesc s r := by
  rw [findDesc, h, findDesc]

/-- A descriptor of this reference is held, and each one held stands at this stage. -/
def StandsAt (r : JobRef) (st : Stage) (s : State) : Prop :=
  (∃ e ∈ s.descs, e.ref = r) ∧ ∀ e ∈ s.descs, e.ref = r → e.stage = st

theorem StandsAt.stage {r : JobRef} {st : Stage} {s : State} (h : StandsAt r st s) : (findDesc s r).map (·.stage) = some st := by
  obtain ⟨⟨e, he, href⟩, hall⟩ := h
  obtain ⟨d, hd⟩ : ∃ d, findDesc s r = some d := by
    rw [← Option.isSome_iff_exists, findDesc, List.find?_isSome]
    exact ⟨e, he, by simp [href]⟩
  rw [hd, Option.map_some, hall d (List.mem_of_find?_eq_some hd) (findDesc_ref hd)]

theorem StandsAt.congr {r : JobRef} {st : Stage} {s t : State} (h : StandsAt r st s) (hd : t.descs = s.descs) : StandsAt r st t := by
  rw [StandsAt, hd]
  exact h

/-- An update of a descriptor that is found brings it to the stage that the update sets. -/
theorem standsAt_modDesc {s : State} {r : JobRef} {d : DescEntry} (hd : findDesc s r = some d) {f : DescEntry → DescEntry}
    {st : Stage} (href : ∀ e, (f e).ref = e.ref) (hst : ∀ e, (f e).stage = st) : StandsAt r st (modDesc s r f) := by
  have hmem : d ∈ s.descs := List.mem_of_find?_eq_some hd
  have hdr : d.ref = r := findDesc_ref hd
  refine ⟨⟨f d, List.mem_map.mpr ⟨d, hmem, by simp [hdr]⟩, (href d).trans hdr⟩, fun e he her => ?_⟩
  obtain ⟨a, -, rfl⟩ := List.mem_map.mp he
  by_cases har : a.ref = r
  · rw [if_pos (beq_iff_eq.mpr har)]
    exact hst a
  · rw [if_neg (by simpa using har)] at her
    exact absurd her har

/-- An update of another descriptor leaves the stage. -/
theorem StandsAt.modDesc_other {r q : JobRef} {st : Stage} {s : State} (h : StandsAt r st s) (hq : q ≠ r)
    {f : DescEntry → DescEntry} (href : ∀ e, (f e).ref = e.ref) : StandsAt r st (modDesc s q f) := by
  obtain ⟨⟨e, he, her⟩, hall⟩ := h
  refine ⟨⟨e, List.mem_map.mpr ⟨e, he, by simp [her, hq.symm]⟩, her⟩, fun x hx hxr => ?_⟩
  obtain ⟨a, ha, rfl⟩ := List.mem_map.mp hx
  by_cases haq : a.ref = q
  · rw [if_pos (beq_iff_eq.mpr haq), href] at hxr
    exact absurd (haq.symm.trans hxr) hq
  · rw [if_neg (by simpa using haq)] at hxr ⊢
    exact hall a ha hxr

/-! ## Settling and matching (R336, R340) -/

/-- Settling brings a waiting job to ready, takes a ready one back, or does nothing. -/
theorem settleReady_cases (s : State) (d : DescEntry) : settleReady s d = s
    ∨ (d.stage = .waiting
      ∧ settleReady s d = wakeJob (traceDesc (modDesc s d.ref fun e => { e with stage := .ready }) 2 d 0 0) d)
    ∨ (d.stage = .ready ∧ settleReady s d = modDesc s d.ref fun e => { e with stage := .waiting }) := by
  unfold settleReady
  split
  case h_1 hstage =>
    split
    · exact .inr (.inl ⟨hstage, rfl⟩)
    · exact .inl rfl
  case h_2 hstage =>
    split
    · exact .inl rfl
    · exact .inr (.inr ⟨hstage, rfl⟩)
  case h_3 => exact .inl rfl

theorem matchToken_cases (b : Nat) (s : State) (d : DescEntry) : matchToken b s d = s
    ∨ (d.stage = .waiting ∧ matchToken b s d
      = traceDesc (modDesc s d.ref fun e => { e with matched := e.matched ||| BitVec.ofNat 4 (2 ^ b) }) 1 d (2 ^ b) 0) := by
  unfold matchToken
  split
  case isTrue h =>
    simp only [Bool.and_eq_true, beq_iff_eq] at h
    exact .inr ⟨h.2, rfl⟩
  case isFalse => exact .inl rfl

theorem traceDesc_frame (s : State) (kind : Nat) (d : DescEntry) (arg : Nat) (detail : Byte) :
    ∃ x, traceDesc s kind d arg detail = { s with sluice := x } := ⟨_, rfl⟩

theorem sameRuns_settleReady (s : State) (d : DescEntry) : SameRuns s (settleReady s d) := by
  rcases settleReady_cases s d with h | ⟨-, h⟩ | ⟨-, h⟩
  · rw [h]
    exact .refl s
  · obtain ⟨x, hx⟩ := traceDesc_frame (modDesc s d.ref fun e => { e with stage := .ready }) 2 d 0 0
    rw [h, hx]
    exact (wakeJob_writes { modDesc s d.ref fun e => { e with stage := .ready } with sluice := x } d).2
  · rw [h]
    exact .refl s

theorem sameRuns_settleAll (s : State) : SameRuns s (settleAll s) :=
  List.foldlRecOn s.descs settleReady (SameRuns.refl s) fun t ht d _ => ht.trans (sameRuns_settleReady t d)

section Stands

variable {r : JobRef} {st : Stage} (hwaiting : st ≠ .waiting) (hready : st ≠ .ready)
include hwaiting

theorem standsAt_matchToken {s : State} (h : StandsAt r st s) (b : Nat) {d : DescEntry} (hd : d.ref = r → d.stage = st) :
    StandsAt r st (matchToken b s d) := by
  rcases matchToken_cases b s d with heq | ⟨hstage, heq⟩
  · rw [heq]
    exact h
  · have hother : d.ref ≠ r := fun href => hwaiting ((hd href).symm.trans hstage)
    rw [heq]
    exact (h.modDesc_other hother (f := fun e => { e with matched := e.matched ||| BitVec.ofNat 4 (2 ^ b) }) fun _ => rfl).congr rfl

include hready

theorem standsAt_settleReady {s : State} (h : StandsAt r st s) {d : DescEntry} (hd : d.ref = r → d.stage = st) :
    StandsAt r st (settleReady s d) := by
  rcases settleReady_cases s d with heq | ⟨hstage, heq⟩ | ⟨hstage, heq⟩
  · rw [heq]
    exact h
  · have hother : d.ref ≠ r := fun href => hwaiting ((hd href).symm.trans hstage)
    rw [heq]
    exact (h.modDesc_other hother (f := fun e => { e with stage := .ready }) fun _ => rfl).congr (wakeJob_writes _ d).1
  · have hother : d.ref ≠ r := fun href => hready ((hd href).symm.trans hstage)
    rw [heq]
    exact h.modDesc_other hother fun _ => rfl

theorem standsAt_settleAll {s : State} (h : StandsAt r st s) : StandsAt r st (settleAll s) :=
  List.foldlRecOn s.descs settleReady h fun _ ht d hd => standsAt_settleReady hwaiting hready ht (h.2 d hd)

theorem standsAt_matchWhere {s : State} (h : StandsAt r st s) (b : Nat) (p : DescEntry → Bool) :
    StandsAt r st (matchWhere s b p) := by
  have hmatched : StandsAt r st ((s.descs.filter p).foldl (matchToken b) s) :=
    List.foldlRecOn _ _ h fun _ ht d hd => standsAt_matchToken hwaiting ht b (h.2 d (List.mem_of_mem_filter hd))
  exact standsAt_settleAll hwaiting hready hmatched

end Stands

/-! ## Completion and refusal (R93, R329) -/

/-- A descriptor that completes stands done with its result; a replayed `OK` is `OK_REPLAYED`. -/
theorem doneAs_complete {s : State} {r : JobRef} {d : DescEntry} (hd : findDesc s r = some d) (res : Result) :
    DoneAs (complete s r res) r
      { res with status := if d.replayed && res.status == .ok then .okReplayed else res.status } := by
  have hbusy : findDesc (if d.stage.inWeir then busyNow s else s) r = some d := by split <;> exact hd
  simp only [complete, hd, matchAfter]
  refine (standsAt_matchWhere Stage.noConfusion Stage.noConfusion (StandsAt.congr ?_ rfl) 3 _).stage
  exact standsAt_modDesc hbusy (fun _ => rfl) fun _ => rfl

theorem doneAs_finish {s : State} {r : JobRef} {d : DescEntry} (hd : findDesc s r = some d) {st : Status} (hst : st ≠ .ok)
    (detail : Nat) : DoneAs (finish s r st detail) r (plainResult st detail) := by
  have h := doneAs_complete hd (plainResult st detail)
  have hok : ((plainResult st detail).status == .ok) = false := by simpa [plainResult] using hst
  rw [hok, Bool.and_false] at h
  exact h

theorem sendAbort_descs (s : State) (img : PlanImage) (tag : W32) : (sendAbort s img tag).descs = s.descs := by
  obtain ⟨k, hk⟩ := sendAbort_frame s img tag
  rw [hk]

/-- A refusal may log its event and tell the group; then the job completes. -/
theorem refuseJob_eq (s : State) (d : DescEntry) (x : Refused) :
    ∃ t, t.descs = s.descs ∧ refuseJob s d x = finish t d.ref x.1 x.2.1 := by
  obtain ⟨st, det, ev⟩ := x
  refine ⟨_, ?_, rfl⟩
  cases ev with
  | none =>
    cases jobImage s d with
    | none => rfl
    | some img => exact sendAbort_descs s img d.desc.tag
  | some cls =>
    have hraise := raise_descs s cls []
    cases jobImage s d with
    | none => exact hraise
    | some img => exact (sendAbort_descs _ img d.desc.tag).trans hraise

theorem doneAs_refuseJob {s : State} {d : DescEntry} (hd : findDesc s d.ref = some d) {st : Status} (hst : st ≠ .ok) (det : Nat)
    (ev : Option EventClass) : DoneAs (refuseJob s d (st, det, ev)) d.ref (plainResult st det) := by
  obtain ⟨t, hdescs, heq⟩ := refuseJob_eq s d (st, det, ev)
  rw [heq]
  exact doneAs_finish ((findDesc_congr hdescs d.ref).trans hd) hst det

/-! ## The parts of a dispatch (R39, R83) -/

/-- A dispatched job runs the image with which it is dispatched. -/
theorem newJob_img (s : State) (d : DescEntry) (img : PlanImage) (spec : Bool) : (newJob s d img spec).img = img := by
  cases h : d.ctx <;> simp only [newJob, h, blankJob]

/-- The entry of a descriptor whose job is dispatched. -/
def dispatchedEntry (e : DescEntry) : DescEntry := { e with stage := .running, begun := true, ever := true, resume := none }

/-- An ordinary dispatch before it takes lanterns: it is traced, its descriptor runs, and the job is the newest. -/
def jobStarted (s : State) (d : DescEntry) (img : PlanImage) : State :=
  let j := newJob s d img false
  let s1 := traceAdd s 3 d.ref (traceFlags false d.replayed j.restored) 0 j.slot 0 img.planId
  let s2 := modDesc s1 d.ref dispatchedEntry
  dropHubIn { s2 with jobs := s2.jobs ++ [j] } d.ref

theorem jobStarted_standsAt {s : State} {d : DescEntry} (hd : findDesc s d.ref = some d) (img : PlanImage) :
    StandsAt d.ref .running (jobStarted s d img) :=
  (standsAt_modDesc hd (f := dispatchedEntry) (fun _ => rfl) fun _ => rfl).congr rfl

/-- The lanterns become the job's. -/
def claimAll (r : JobRef) (ps : List Phys) (s : State) : State := ps.foldl (fun s p => modLant s p (claimLantern r)) s

/-- An ordinary dispatch once the job has its lanterns, before their basins are filled. -/
def jobClaimed (s : State) (d : DescEntry) (img : PlanImage) : State :=
  busyNow (claimAll d.ref (maskPhys s img.lanternSet) (jobStarted s d img))

theorem dispatchJob_of_ordinary (s : State) (d : DescEntry) (img : PlanImage) :
    let j := newJob s d img false
    dispatchJob s d img false = beginFusion (coldCopies (fillBasins (jobClaimed s d img) j) j) j := by
  intro j
  have hps : maskPhys s img.lanternSet = jobPhys (jobStarted s d img) j :=
    congrArg (fun i => maskPhys s i.lanternSet) (newJob_img s d img false).symm
  rw [jobClaimed, hps]
  rfl

/-- Updates of lanterns write lanterns alone. -/
theorem modLants_frame (g : State → Phys → Lantern → Lantern) (ps : List Phys) (s : State) :
    ∃ v, ps.foldl (fun s p => modLant s p (g s p)) s = { s with lanterns := v } :=
  List.foldlRecOn (motive := fun t : State => ∃ v, t = { s with lanterns := v }) ps _ ⟨s.lanterns, rfl⟩
    fun _ ⟨_, ht⟩ _ _ => ht ▸ ⟨_, rfl⟩

theorem jobClaimed_frame (s : State) (d : DescEntry) (img : PlanImage) :
    ∃ v, jobClaimed s d img = busyNow { jobStarted s d img with lanterns := v } := by
  obtain ⟨v, hv⟩ := modLants_frame (fun _ _ => claimLantern d.ref) (maskPhys s img.lanternSet) (jobStarted s d img)
  exact ⟨v, congrArg busyNow hv⟩

/-- A lantern runs the job, with nothing in its range counter. -/
def RunsFresh (r : JobRef) (l : Lantern) : Prop := l.job = some r ∧ l.rangeCtr = 0

theorem claimAll_runsFresh (r : JobRef) (ps : List Phys) (s : State) {p : Phys} (h : p ∈ ps ∨ RunsFresh r (lant s p)) :
    RunsFresh r (lant (claimAll r ps s) p) := by
  induction ps generalizing s with
  | nil => exact h.resolve_left List.not_mem_nil
  | cons q ps ih =>
    refine ih (modLant s q (claimLantern r)) ?_
    rw [lant_modLant]
    split
    case isTrue => exact .inr ⟨rfl, rfl⟩
    case isFalse hne => exact h.imp_left fun hmem => (List.mem_cons.mp hmem).resolve_left (Ne.symm hne)

theorem RunsFresh.of_sameRuns {r : JobRef} {s t : State} {p : Phys} (h : RunsFresh r (lant s p)) (k : SameRuns s t) :
    RunsFresh r (lant t p) := ⟨(k.2 p).1.trans h.1, (k.2 p).2.trans h.2⟩

theorem fillBasins_frame (s : State) (j : Job) : ∃ v, fillBasins s j = { s with lanterns := v } := modLants_frame _ _ s

theorem sameRuns_fillBasins (s : State) (j : Job) : SameRuns s (fillBasins s j) :=
  List.foldlRecOn _ _ (SameRuns.refl s) fun t ht p _ => ht.trans (sameRuns_modLant t p (fun _ => rfl) fun _ => rfl)

/-- While no bank group of the cistern sleeps, no copy meets one that does (R57). -/
theorem coldCopies_of_awake {s : State} (h : ∀ g : Fin 48, (s.mem.groups.get g).asleep = false) (j : Job) : coldCopies s j = s := by
  have hrange : ∀ a n, rangeAsleep s (.cistern a) n = false := by simp [rangeAsleep, h]
  simp [coldCopies, hrange]

/-! ## The fusion run of a dispatch (R106, R141) -/

theorem fillProbes_frame (s : State) (r : Recipe) (set : FrameSet) :
    ∃ w m, fillProbes s r set = { s with world := w, mem := m } :=
  List.foldlRecOn (motive := fun t : State => ∃ w m, t = { s with world := w, mem := m }) _ _ ⟨s.world, s.mem, rfl⟩
    fun _ ⟨_, _, ht⟩ _ _ => ht ▸ ⟨_, _, rfl⟩

/-- What a fusion run takes at its dispatch is the world's and the memory's; then the other fusion jobs settle. -/
theorem beginFusion_cases (s : State) (j : Job) :
    beginFusion s j = s ∨ ∃ w m, beginFusion s j = settleAll { s with world := w, mem := m } := by
  unfold beginFusion
  split
  case h_1 set r _ _ =>
    right
    extract_lets w e k
    obtain ⟨w', m, h⟩ := fillProbes_frame { s with world := { w with
      waiting := w.waiting.drop 1, places := j.img.body.places, fullLogged := false, hotLogged := false
      trackLogged := false, buffers := if w.primed then w.buffers.set k (some (e, set)) else w.buffers } } r set
    exact ⟨w', m, congrArg settleAll h⟩
  case h_2 => exact .inl rfl

theorem sameRuns_beginFusion (s : State) (j : Job) : SameRuns s (beginFusion s j) := by
  rcases beginFusion_cases s j with h | ⟨w, m, h⟩
  · rw [h]
    exact .refl s
  · exact h ▸ sameRuns_settleAll { s with world := w, mem := m }

theorem standsAt_beginFusion {r : JobRef} {st : Stage} (hwaiting : st ≠ .waiting) (hready : st ≠ .ready) {s : State}
    (h : StandsAt r st s) (j : Job) : StandsAt r st (beginFusion s j) := by
  rcases beginFusion_cases s j with heq | ⟨w, m, heq⟩
  · rw [heq]
    exact h
  · exact heq ▸ standsAt_settleAll hwaiting hready (h.congr rfl)

/-! ## The outcomes of the walk (R342) -/

/-- An ordinary dispatch while no bank group sleeps: the job is the newest, its descriptor runs, its lanterns are its own. -/
theorem dispatchJob_runs {s : State} {d : DescEntry} (hd : findDesc s d.ref = some d) (img : PlanImage)
    (hgroups : ∀ g : Fin 48, (s.mem.groups.get g).asleep = false) :
    let t := dispatchJob s d img false
    t.jobs = s.jobs ++ [newJob s d img false] ∧ StandsAt d.ref .running t
      ∧ ∀ p ∈ maskPhys s img.lanternSet, RunsFresh d.ref (lant t p) := by
  intro t
  have hfilled : (fillBasins (jobClaimed s d img) (newJob s d img false)).mem.groups = s.mem.groups
      ∧ StandsAt d.ref .running (fillBasins (jobClaimed s d img) (newJob s d img false)) := by
    obtain ⟨v, hv⟩ := jobClaimed_frame s d img
    obtain ⟨b, hb⟩ := fillBasins_frame (jobClaimed s d img) (newJob s d img false)
    rw [hb, hv]
    exact ⟨rfl, (jobStarted_standsAt hd img).congr rfl⟩
  obtain ⟨hmem, hstands⟩ := hfilled
  have ht : t = beginFusion (fillBasins (jobClaimed s d img) (newJob s d img false)) (newJob s d img false) :=
    (dispatchJob_of_ordinary s d img).trans
      (congrArg (beginFusion · _) (coldCopies_of_awake (fun g => by rw [hmem]; exact hgroups g) _))
  have hruns : SameRuns (jobClaimed s d img) t := ht ▸ (sameRuns_fillBasins _ _).trans (sameRuns_beginFusion _ _)
  refine ⟨?jobs, ?stands, fun p hp => ?lanterns⟩
  case jobs =>
    obtain ⟨v, hv⟩ := jobClaimed_frame s d img
    exact hruns.1.trans (by rw [hv]; rfl)
  case stands => exact ht ▸ standsAt_beginFusion Stage.noConfusion Stage.noConfusion hstands _
  case lanterns => exact (claimAll_runsFresh d.ref _ (jobStarted s d img) (.inl hp)).of_sameRuns hruns

theorem mayspeculate_of_ready {s : State} {d : DescEntry} (h : d.stage = .ready) : mayspeculate s d = false := by
  simp [mayspeculate, h]

section Walk

variable {s : State} {res : List Phys} {d : DescEntry} (hd : findDesc s d.ref = some d) (hready : d.stage = .ready)
include hd hready

theorem walkJob_of_refusal {x : Refused} (hrefuse : dispatchRefusal s d = some x) :
    walkJob (s, res) (d.ref, true) = (refuseJob s d x, res) := by
  simp [walkJob, hd, hready, hrefuse]

theorem walkJob_of_free {img : PlanImage} (hrefuse : dispatchRefusal s d = none) (himg : jobImage s d = some img)
    (hwaits : waits s d img = false) (hheld : held s img = false) (hfree : canDispatch s res d img = true) :
    walkJob (s, res) (d.ref, true) = (dispatchJob s d img false, res) := by
  simp [walkJob, hd, hready, hrefuse, himg, hwaits, hheld, hfree, mayspeculate_of_ready hready]

end Walk

/-- Settles O35: a job that the walk dispatches runs on lanterns of its own; one that it refuses completes. -/
theorem walkDispatchesOrRefuses : Obligations.WalkDispatchesOrRefuses := by
  unfold Obligations.WalkDispatchesOrRefuses
  intro s res d hd hready
  refine ⟨fun img hrefuse himg hwaits hheld hfree hgroups => ?dispatched, fun st det ev hrefuse hst => ?refused⟩
  case dispatched =>
    rw [walkJob_of_free hd hready hrefuse himg hwaits hheld hfree]
    obtain ⟨hjobs, hstands, hlants⟩ := dispatchJob_runs hd img hgroups
    exact ⟨hjobs, hstands.stage, hlants, rfl⟩
  case refused =>
    rw [walkJob_of_refusal hd hready hrefuse]
    exact ⟨doneAs_refuseJob hd hst det ev, rfl⟩

end Sys2Proof.Machine

/-! # What settling, completing and filling write

Readiness, tokens and completions write the descriptors, the lanterns that a wake reaches, the trace, and of the power
registers the power state and the tick from which the device idles; a fill writes the memories and what a wake from doze
does. The facts about the rest of the state follow from these two frames. -/

namespace Sys2Proof.Machine

open Sys2Proof

/-! ## Settling and completing (R329, R336, R340, R349) -/

/-- Only what readiness, tokens and completions write differs. -/
def WeirFrame (s t : State) : Prop :=
  ∃ v st idle ds n tr, t = { s with
    lanterns := v, descs := ds, pwr := { s.pwr with pstate := st, idleSince := idle }
    sluice := { s.sluice with traceSeq := n, trace := tr } }

theorem WeirFrame.refl (s : State) : WeirFrame s s :=
  ⟨s.lanterns, s.pwr.pstate, s.pwr.idleSince, s.descs, s.sluice.traceSeq, s.sluice.trace, rfl⟩

theorem WeirFrame.trans {a b c : State} (h : WeirFrame a b) (k : WeirFrame b c) : WeirFrame a c := by
  obtain ⟨_, _, _, _, _, _, rfl⟩ := h
  obtain ⟨_, _, _, _, _, _, rfl⟩ := k
  exact ⟨_, _, _, _, _, _, rfl⟩

theorem WeirFrame.world {s t : State} (h : WeirFrame s t) : t.world = s.world := by
  obtain ⟨_, _, _, _, _, _, rfl⟩ := h; rfl

/-- A fold of steps that each keep to the frame keeps to it. -/
theorem WeirFrame.foldl {α : Type} {f : State → α → State} (hf : ∀ s a, WeirFrame s (f s a)) (l : List α) (s : State) :
    WeirFrame s (l.foldl f s) :=
  List.foldlRecOn l f (WeirFrame.refl s) fun t ht a _ => ht.trans (hf t a)

theorem weirFrame_modDesc (s : State) (r : JobRef) (f : DescEntry → DescEntry) : WeirFrame s (modDesc s r f) :=
  ⟨_, _, _, _, _, _, rfl⟩

theorem weirFrame_busyNow (s : State) : WeirFrame s (busyNow s) := ⟨_, _, _, _, _, _, rfl⟩

theorem weirFrame_traceDesc (s : State) (kind : Nat) (d : DescEntry) (arg : Nat) (detail : Byte) :
    WeirFrame s (traceDesc s kind d arg detail) := by
  unfold traceDesc traceAdd
  dsimp only
  split
  case isTrue => exact ⟨_, _, _, _, _, _, rfl⟩
  case isFalse => exact .refl s

theorem weirFrame_wakeJob (s : State) (d : DescEntry) : WeirFrame s (wakeJob s d) := by
  unfold wakeJob
  split
  case h_1 img _ =>
    obtain ⟨v, st, heq, -⟩ := (wakeLanterns_writes s (maskPhys s img.lanternSet)).1
    exact ⟨v, st, _, _, _, _, heq⟩
  case h_2 => exact .refl s

theorem weirFrame_settleReady (s : State) (d : DescEntry) : WeirFrame s (settleReady s d) := by
  rcases settleReady_cases s d with h | ⟨-, h⟩ | ⟨-, h⟩ <;> rw [h]
  · exact .refl s
  · exact ((weirFrame_modDesc ..).trans (weirFrame_traceDesc ..)).trans (weirFrame_wakeJob ..)
  · exact weirFrame_modDesc ..

theorem weirFrame_settleAll (s : State) : WeirFrame s (settleAll s) := .foldl weirFrame_settleReady s.descs s

theorem weirFrame_matchToken (b : Nat) (s : State) (d : DescEntry) : WeirFrame s (matchToken b s d) := by
  rcases matchToken_cases b s d with h | ⟨-, h⟩ <;> rw [h]
  · exact .refl s
  · exact (weirFrame_modDesc ..).trans (weirFrame_traceDesc ..)

theorem weirFrame_matchWhere (s : State) (b : Nat) (p : DescEntry → Bool) : WeirFrame s (matchWhere s b p) :=
  (WeirFrame.foldl (weirFrame_matchToken b) _ s).trans (weirFrame_settleAll _)

theorem weirFrame_complete (s : State) (r : JobRef) (res : Result) : WeirFrame s (complete s r res) := by
  unfold complete
  split
  case h_1 => exact .refl s
  case h_2 d _ =>
    have hbusy : WeirFrame s (if d.stage.inWeir then busyNow s else s) := by
      split
      · exact weirFrame_busyNow s
      · exact .refl s
    exact ((hbusy.trans (weirFrame_modDesc ..)).trans (weirFrame_traceDesc ..)).trans (weirFrame_matchWhere ..)

theorem weirFrame_finish (s : State) (r : JobRef) (st : Status) (detail : Nat) : WeirFrame s (finish s r st detail) :=
  weirFrame_complete s r _

theorem weirFrame_beginExec (s : State) (d : DescEntry) : WeirFrame s (beginExec s d) :=
  ((weirFrame_traceDesc ..).trans (weirFrame_busyNow _)).trans (weirFrame_modDesc ..)

/-- A descriptor that completes `OK` stands done with the result of R329. -/
theorem doneAs_finish_ok {s : State} {r : JobRef} {d : DescEntry} (hd : findDesc s r = some d) (detail : Nat) :
    DoneAs (finish s r .ok detail) r (okResult d detail) := by
  have h := doneAs_complete hd (plainResult .ok detail)
  have hok : ((plainResult .ok detail).status == .ok) = true := rfl
  rw [hok, Bool.and_true] at h
  exact h

/-! ## Filling regions (R58, R72) -/

/-- Only what a fill and a wake from doze write differs: lanterns, power registers, slot grid and memories. -/
def FillFrame (s t : State) : Prop := ∃ v p g m, t = { s with lanterns := v, pwr := p, grid := g, mem := m }

theorem FillFrame.refl (s : State) : FillFrame s s := ⟨s.lanterns, s.pwr, s.grid, s.mem, rfl⟩

theorem FillFrame.trans {a b c : State} (h : FillFrame a b) (k : FillFrame b c) : FillFrame a c := by
  obtain ⟨_, _, _, _, rfl⟩ := h
  obtain ⟨_, _, _, _, rfl⟩ := k
  exact ⟨_, _, _, _, rfl⟩

theorem fillFrame_dozeLeave (s : State) : FillFrame s (dozeLeave s) := by
  by_cases h : s.pwr.pstate = .doze
  · obtain ⟨v, st, ht, -⟩ := dozeLeave_frame h
    exact ht ▸ ⟨_, _, _, _, rfl⟩
  · exact (dozeLeave_of_awake h).symm ▸ .refl s

theorem fillFrame_placeWrite (s : State) (pl : Place) (bs : List Byte) : FillFrame s (placeWrite s pl bs) := by
  cases pl <;> exact ⟨_, _, _, _, rfl⟩

theorem fillFrame_wakeRange (s : State) (f : Fill) (n : Nat) : FillFrame s (wakeRange s (fillPlace f) n) := by
  unfold fillPlace
  split
  case isTrue => exact fillFrame_dozeLeave s
  case isFalse => exact (fillFrame_dozeLeave s).trans ⟨_, _, _, _, rfl⟩

theorem fillFrame_placeFill (s : State) (f : Fill) : FillFrame s (placeFill s f) :=
  (fillFrame_wakeRange s f _).trans (fillFrame_placeWrite ..)

theorem fillFrame_fillRegions (s : State) (owner : FillOwner) (fs : List Fill) : FillFrame s (fillRegions s owner fs) := by
  have hfills : FillFrame s (fs.foldl placeFill s) :=
    List.foldlRecOn fs placeFill (FillFrame.refl s) fun t ht f _ => ht.trans (fillFrame_placeFill t f)
  exact hfills.trans ⟨_, _, _, _, rfl⟩

end Sys2Proof.Machine

/-! # The world epoch (O54)

A start-up and the steps of a relight never write the world but for `loseWorld`, which leaves the epoch, and `freshHub`, which
gives the reset value. -/

namespace Sys2Proof.Machine

open Sys2Proof

/-! ## Start-up leaves the world (R471) -/

theorem foldl_world {α : Type} {f : State → α → State} (hf : ∀ s a, (f s a).world = s.world) (l : List α) (s : State) :
    (l.foldl f s).world = s.world :=
  List.foldlRecOn (motive := fun t : State => t.world = s.world) l f rfl fun t ht a _ => (hf t a).trans ht

@[simp] theorem klCtrlWrite_world (s : State) (v : W32) : (klCtrlWrite s v).world = s.world := by
  obtain ⟨k, h⟩ := klCtrlWrite_frame s v
  rw [h]

@[simp] theorem loadConfig_world (o : StartupObs) (s : State) : (loadConfig o s).world = s.world := by
  unfold loadConfig
  extract_lets c period links grid mem motion sec s1 s2 s3 mgmt s4 flush
  have hlinked : s2.world = s.world := klCtrlWrite_world _ _
  have hevent : s3.world = s2.world := by
    unfold s3
    split
    · rfl
    · exact raise_world s2 _ _
  have himage : s4.world = s3.world := by
    unfold s4
    split <;> rfl
  have hflush : (if flush then emberFlushStart s4 else s4).world = s4.world := by
    split
    · exact emberFlushStart_world s4
    · rfl
  exact ((hflush.trans himage).trans hevent).trans hlinked

@[simp] theorem trainDies_world (o : StartupObs) (s : State) : (trainDies o s).world = s.world := by
  have hraise : ∀ (m : BitVec 4) (cls : EventClass) (t : State) (d : Nat),
      (if m.getLsbD d then raise t cls [] else t).world = t.world := by
    intro m cls t d
    split
    · exact raise_world t cls []
    · rfl
  unfold trainDies
  dsimp only
  rw [foldl_world (hraise o.d2dFail .d2dTrainFail), foldl_world (hraise o.ddrFail .ddrTrainFail)]

@[simp] theorem retire_world (s : State) (failed : List Phys) : (retire s failed).world = s.world :=
  foldl_world (fun t p => by split <;> rfl) failed s

@[simp] theorem startHalt_world (s : State) (fail : Byte) : (startHalt s fail).world = s.world := enterHalt_world _

theorem handleNow_world (s : State) (e : EventClass × Nat) : (handleNow s e).world = s.world := (handleNow_kept s e).world

@[simp] theorem startFinish_world (s : State) (reflectorOk : Bool) : (startFinish s reflectorOk).world = s.world := by
  unfold startFinish
  dsimp only
  split
  case isTrue => simp
  case isFalse =>
    split
    · exact refreshHeader_world _
    · exact handleNow_world _ _

@[simp] theorem startDies_world (o : StartupObs) (s : State) : (startDies o s).world = s.world := by
  unfold startDies
  dsimp only
  split
  · simp
  · have hmapped : (freshLanterns (assignMap (retire (stepDone (trainDies o s) 7) o.selftestFail))).world = s.world :=
      (retire_world _ _).trans (trainDies_world o s)
    split
    · exact (startHalt_world _ _).trans hmapped
    · split
      · exact hmapped
      · exact (startFinish_world _ _).trans hmapped

theorem startRun_world (o : StartupObs) (s : State) : (startRun o s).world = s.world := by
  unfold startRun
  dsimp only
  split
  · exact startHalt_world _ _
  · rw [startDies_world, loadConfig_world]
    rfl

theorem startFrom3_world (o : StartupObs) (s : State) : (startFrom3 o s).world = s.world := by
  unfold startFrom3
  dsimp only
  split
  · rfl
  · split
    · rfl
    · exact startRun_world o _

theorem freshHub_epoch (s : State) (powerOn : Bool) : (freshHub s powerOn).world.epoch = 0 := rfl

theorem startFrom3_freshHub_epoch (o : StartupObs) (s : State) (powerOn : Bool) :
    (startFrom3 o (freshHub s powerOn)).world.epoch = 0 :=
  (congrArg World.epoch (startFrom3_world o _)).trans (freshHub_epoch s powerOn)

/-! ## A relight leaves the epoch (R305) -/

theorem excludeDies_world (s : State) (fail : BitVec 4) : (excludeDies s fail).world = s.world := by
  unfold excludeDies
  dsimp only
  split <;> rfl

theorem relightDies_epoch (s : State) (o : RelightObs) : (relightDies s o).world.epoch = s.world.epoch :=
  calc (relightDies s o).world.epoch = (excludeDies s o.diesFail).world.epoch := rfl
    _ = s.world.epoch := congrArg World.epoch (excludeDies_world s o.diesFail)

theorem admitRun_world (s : State) (d : DescEntry) : (admitRun s d).world = s.world := by
  unfold admitRun
  extract_lets s1 self s2 hit s3
  have hself : s2.world = s.world := by
    unfold s2
    split
    · exact raise_world s1 _ _
    · rfl
  have hhit : ∀ t b, (hit t b).world = t.world := by
    intro t b
    unfold hit
    split
    · split
      · exact (weirFrame_matchToken _ _ _).world
      · rfl
    · rfl
  have htokens : s3.world = s.world := (foldl_world hhit _ s2).trans hself
  split
  · exact (weirFrame_settleReady _ _).world.trans htokens
  · exact htokens

theorem admitRuns_world (s : State) : (admitRuns s).world = s.world :=
  foldl_world (fun t d => by split <;> [exact admitRun_world t d; rfl]) s.descs s

theorem weirFrame_requeue (s : State) (d : DescEntry) : WeirFrame s (requeue s d) := by
  unfold requeue
  split
  · exact .refl s
  · dsimp only
    split
    · exact (weirFrame_modDesc ..).trans (weirFrame_finish ..)
    · split
      · exact (weirFrame_modDesc ..).trans (weirFrame_finish ..)
      · exact weirFrame_modDesc ..

theorem requeueAll_world (s : State) : (requeueAll s).world = s.world := (WeirFrame.foldl weirFrame_requeue s.descs s).world

theorem postEmptySeeds_world (s : State) : (postEmptySeeds s).world = s.world := (weirFrame_matchWhere _ _ _).world

theorem nextS1_getD_world (s : State) : ((nextS1 s).getD s).world = s.world := by
  cases h : nextS1 s with
  | none => rfl
  | some t => exact (nextS1_kept s t h).world

theorem relightReady_world (s : State) : (relightReady s).world = s.world := by
  unfold relightReady
  extract_lets s1 pwr safety s2 s3
  have hready : s3.world = s.world := by
    unfold s3
    rw [(weirFrame_settleAll _).world, postEmptySeeds_world, requeueAll_world, admitRuns_world, refreshHeader_world]
    rfl
  split
  · exact hready
  · exact (nextS1_getD_world s3).trans hready

theorem haltFail_world (old s : State) (fail : Byte) : (haltFail old s fail).world = s.world := enterHalt_world _

theorem relightTest_world (old s : State) (o : RelightObs) : (relightTest old s o).world = s.world := by
  unfold relightTest
  dsimp only
  split
  · rw [enterHalt_world]
    simp [keepShown]
  · split
    · exact (haltFail_world _ _ _).trans (retire_world _ _)
    · exact (relightReady_world _).trans (retire_world _ _)

/-- The steps of a relight, in a device whose hub is up. -/
def relightStep (o : RelightObs) (s : State) : State :=
  if s.safety.state != .relight then s
  else
    let s1 := relightDies { s with pwr := { s.pwr with ticks := s.pwr.ticks + o.ticks } } o
    if presentDies s1 < 3 then haltFail s s1 2 else relightTest s s1 o

theorem exec_relight (o : RelightObs) (s : State) : exec (.relight o) s = live s (relightStep o) := rfl

theorem relightStep_epoch (o : RelightObs) (s : State) : (relightStep o s).world.epoch = s.world.epoch := by
  have hdies := relightDies_epoch { s with pwr := { s.pwr with ticks := s.pwr.ticks + o.ticks } } o
  unfold relightStep
  dsimp only
  split
  · rfl
  · split
    · exact (congrArg World.epoch (haltFail_world _ _ _)).trans hdies
    · exact (congrArg World.epoch (relightTest_world _ _ o)).trans hdies

/-! ## The statement -/

/-- R139: serial-number order is the comparison of the difference with half the range. -/
theorem serialLe_iff (a b : W32) : serialLe b a = true ↔ (a.toNat + 2 ^ 32 - b.toNat) % 2 ^ 32 < 2 ^ 31 := by
  have hdiff : (a - b).toNat = (a.toNat + 2 ^ 32 - b.toNat) % 2 ^ 32 := by
    have hb := b.isLt
    rw [BitVec.toNat_sub]
    congr 1
    omega
  rw [← hdiff]
  by_cases h : b = a
  · simp [serialLe, h]
  · simp [serialLe, serialLt, h]

/-- Settles O54: a start-up runs from the reset world, and no step of a relight writes the epoch. -/
theorem epochRule : Obligations.EpochRule := by
  unfold Obligations.EpochRule
  refine ⟨fun s t o hgood h => ?powerOn, fun s t o hgood hpend hfail h => ?deviceReset, fun s t o h => ?relight, serialLe_iff⟩
  case powerOn =>
    simp only [exec, execPowerOn, hgood, Bool.false_eq_true, if_false, Host.Outcome.next.injEq] at h
    subst h
    split
    · exact freshHub_epoch _ _
    · exact startFrom3_freshHub_epoch o _ _
  case deviceReset =>
    simp only [exec, execPerstDeassert, hgood, hpend, restart, hfail, Bool.and_self, Bool.not_true, Bool.and_false, Bool.or_false,
      Bool.false_eq_true, if_true, if_false, Host.Outcome.next.injEq] at h
    subst h
    exact startFrom3_freshHub_epoch o _ _
  case relight =>
    simp only [exec_relight, live, Host.Outcome.next.injEq] at h
    subst h
    split
    · exact relightStep_epoch o s
    · rfl

end Sys2Proof.Machine

/-! # Starts-of-frame and frame sets (O37)

A start-of-frame gives the port its counts and may open or join a set; an accepted frame reaches `joinFrame` with its port as
the start-of-frame left it; a set that closes waits for fusion. -/

namespace Sys2Proof.Machine

open Sys2Proof

/-! ## Starts-of-frame (R108, R392) -/

/-- A port after a start-of-frame, which is in a set or not. -/
def sofPort (s : State) (p : Fin 4) (ns : Nat) (joined : Bool) : CamPort :=
  { camGet s p with
    sofs := (camGet s p).sofs + 1, lastSof := s.pwr.ticks, sofNs := ns, late := false, inSet := joined
    early := (camGet s p).accepted.any fun t => ns < t + 16000000 }

/-- The state after a start-of-frame that leaves the world `w`. -/
def afterSof (s : State) (p : Fin 4) (ns : Nat) (joined : Bool) (w : World) : State :=
  { camSet s p (sofPort s p ns joined) with world := w }

@[simp] theorem camGet_afterSof (s : State) (p : Fin 4) (ns : Nat) (joined : Bool) (w : World) :
    camGet (afterSof s p ns joined w) p = sofPort s p ns joined :=
  (camGet_camSet s p p _).trans (if_pos rfl)

/-- A start-of-frame counts for the sets: its camera takes part, and the device does not doze. -/
abbrev Joins (s : State) (p : Fin 4) : Prop := takesPart s p = true ∧ s.pwr.pstate ≠ .doze

/-- A start lies within `tol` of the set's first, and its camera has not joined yet. -/
def joinsSet (o : OpenSet) (p : Fin 4) (ns tol : Nat) : Bool :=
  ns ≤ o.teNs + tol && o.teNs ≤ ns + tol && o.ports.contains p && !o.joined.contains p

/-- `SYNC_TOL` of the recipe in ns. -/
def syncTol (s : State) : Nat := 1000 * ((s.sluice.recipe.map (·.syncTolUs)).getD 0)

/-- A start-of-frame of a port from state 2 on. -/
def sofStep (s : State) (p : Fin 4) (ns : Nat) : State :=
  if takesPart s p && s.pwr.pstate != .doze then
    match s.world.openSet with
    | none => afterSof s p ns true { s.world with
        openSet := some ⟨ns, s.pwr.ticks, (List.finRange 4).filter (takesPart s), [p], []⟩ }
    | some o =>
      if joinsSet o p ns (syncTol s) then
        afterSof s p ns true { s.world with openSet := some { o with joined := o.joined ++ [p] } }
      else afterSof s p ns false s.world
  else afterSof s p ns false s.world

theorem exec_startOfFrame {s : State} (hs : Live s) (p : Fin 4) (ns : Nat) :
    exec (.startOfFrame p ns) s = .next (if (camGet s p).state < 2 then s else sofStep s p ns) :=
  live_of_hub hs fun s => if (camGet s p).state < 2 then s else sofStep s p ns

section Start

variable {s : State} {p : Fin 4} (ns : Nat)

/-- Whatever a start-of-frame is to the sets, it counts at its port. -/
theorem sofStep_cases : ∃ joined w, sofStep s p ns = afterSof s p ns joined w := by
  unfold sofStep
  split
  · split
    · exact ⟨_, _, rfl⟩
    · split <;> exact ⟨_, _, rfl⟩
  · exact ⟨_, _, rfl⟩

theorem sofStep_of_not_joins (h : ¬ Joins s p) : sofStep s p ns = afterSof s p ns false s.world := by
  have hno : ¬ (takesPart s p && s.pwr.pstate != .doze) = true := by simpa only [Bool.and_eq_true, bne_iff_ne] using h
  exact if_neg hno

theorem sofStep_of_none (h : Joins s p) (hnone : s.world.openSet = none) :
    sofStep s p ns = afterSof s p ns true { s.world with
      openSet := some ⟨ns, s.pwr.ticks, (List.finRange 4).filter (takesPart s), [p], []⟩ } := by
  rw [sofStep, h.1, bne_iff_ne.mpr h.2, hnone]
  rfl

theorem sofStep_of_open (h : Joins s p) {o : OpenSet} (ho : s.world.openSet = some o) :
    sofStep s p ns = if joinsSet o p ns (syncTol s) then
      afterSof s p ns true { s.world with openSet := some { o with joined := o.joined ++ [p] } }
      else afterSof s p ns false s.world := by
  rw [sofStep, h.1, bne_iff_ne.mpr h.2, ho]
  rfl

end Start

theorem joinsSet_of_within {o : OpenSet} {p : Fin 4} {ns tol : Nat} (hafter : ns ≤ o.teNs + tol) (hbefore : o.teNs ≤ ns + tol)
    (hport : p ∈ o.ports) (hnew : p ∉ o.joined) : joinsSet o p ns tol = true := by
  simp [joinsSet, hafter, hbefore, hport, hnew]

theorem joinsSet_of_outside {o : OpenSet} {p : Fin 4} {ns tol : Nat} (h : o.teNs + tol < ns ∨ ns + tol < o.teNs) :
    joinsSet o p ns tol = false := by
  rcases h with h | h <;> simp [joinsSet, Nat.not_le.mpr h]

/-! ## A set closes (R17, R108, R291) -/

/-- The sets that wait for fusion once one more does: a fourth takes the oldest one's place. -/
def queueSet (w : List FrameSet) (f : FrameSet) : List FrameSet :=
  if w.length < 3 then w ++ [f] else (w ++ [f]).drop 1

theorem pushSet_world (s : State) (f : FrameSet) :
    (pushSet s f).world = { s.world with waiting := queueSet s.world.waiting f } := by
  have hlen : (s.world.waiting ++ [f]).length ≤ 3 ↔ s.world.waiting.length < 3 := by
    rw [List.length_append, List.length_singleton]
    omega
  unfold pushSet queueSet
  simp only [hlen]
  split
  · rfl
  · exact raise_world _ _ _

theorem tapFrame_world (s : State) (f : SetFrame) : (tapFrame s f).world = s.world := by
  unfold tapFrame applyTap
  split
  · split <;> rfl
  · rfl

section Close

variable {s : State} {o : OpenSet} (ho : s.world.openSet = some o)
include ho

theorem closeSet_of_empty (h : o.got = []) : (closeSet s).world = { s.world with openSet := none } := by
  simp [closeSet, ho, h]

theorem closeSet_of_frames (h : o.got ≠ []) :
    (closeSet s).world = { s.world with openSet := none, waiting := queueSet s.world.waiting ⟨o.teNs, o.got⟩ } := by
  have hgot : o.got.isEmpty = false := by simpa using h
  simp only [closeSet, ho, hgot, Bool.false_eq_true, if_false]
  rw [(weirFrame_settleAll _).world, pushSet_world, foldl_world tapFrame_world]

theorem settleSet_of_missing (h : ∃ q ∈ o.ports, ∀ x ∈ o.got, x.port ≠ q) : settleSet s = s := by
  obtain ⟨q, hq, hnone⟩ := h
  have hopen : (o.ports.all fun p => o.got.any fun f => f.port == p) = false := by
    rw [List.all_eq_false]
    exact ⟨q, hq, by simpa using hnone⟩
  simp [settleSet, ho, hopen]

theorem settleSet_of_complete (h : ∀ q ∈ o.ports, ∃ x ∈ o.got, x.port = q) : settleSet s = closeSet s := by
  have hall : (o.ports.all fun p => o.got.any fun f => f.port == p) = true := by simpa using h
  simp [settleSet, ho, hall]

end Close

/-! ## The timeout (R108, R395) -/

theorem exec_setTimeout {s : State} (hs : Live s) : exec .setTimeout s = .next (if setDue s then closeSet s else s) :=
  live_of_hub hs fun s => if setDue s then closeSet s else s

/-! ## An accepted frame (R298, R300, R387) -/

/-- Leaving out older frames leaves out pairs of verdicts. -/
theorem twoRunning_take {v : Bool} {l : List SeenFrame} (h : twoRunning v l = false) (n : Nat) :
    twoRunning v (l.take n) = false := by
  induction l generalizing n with
  | nil => rw [List.take_nil]; rfl
  | cons x l ih =>
    match l, n with
    | _, 0 => rfl
    | [], n + 1 => rw [List.take_succ_cons, List.take_nil]; rfl
    | y :: t, 1 => rfl
    | y :: t, n + 2 =>
      simp only [twoRunning, Bool.or_eq_false_iff] at h
      simp only [List.take_succ_cons, twoRunning, h.1, Bool.false_or]
      exact ih h.2 (n + 1)

/-- A frame without a verdict completes no pair. -/
theorem twoRunning_cons_of_none {v : Bool} {x : SeenFrame} {l : List SeenFrame} (hx : x.verdict = none)
    (h : twoRunning v l = false) : twoRunning v (x :: l) = false := by
  cases l with
  | nil => rfl
  | cons y t =>
    have hpair : (x.verdict == some v) = false := by rw [hx]; rfl
    rw [twoRunning, h, hpair]
    rfl

/-- Of what an accepted frame of an admitted camera leaves of the port, only this matters to the sets. -/
structure SetPort (c d : CamPort) : Prop where
  late : d.late = c.late
  inSet : d.inSet = c.inSet
  sofNs : d.sofNs = c.sofNs

theorem camSet_camSet (s : State) (p : Fin 4) (c d : CamPort) : camSet (camSet s p c) p d = camSet s p d := by
  simp [camSet, Vector.set_set]

/-- An admitted camera whose newest frames complete no pair of failures is judged to stay admitted. -/
theorem judge_of_no_pair {s : State} {p : Fin 4} (h3 : (camGet s p).state = 3)
    (hpair : twoRunning false (camGet s p).hist = false) :
    ∃ c, judge s p = camSet s p c ∧ SetPort (camGet s p) c := by
  simp only [judge, h3, hpair, Bool.and_false, Bool.false_eq_true, if_false]
  exact ⟨_, rfl, rfl, rfl, rfl⟩

/-- The port once its frame is accepted, before the frame's history is judged. -/
def acceptedPort (c : CamPort) (f : FrameObs) : CamPort :=
  note { takeRef c f with patFail := false, accepted := some c.sofNs } (frameCtr c f) f.patchErr none

theorem takeRef_frame (c : CamPort) (f : FrameObs) : ∃ r n, takeRef c f = { c with refCtr := r, sofs := n } := by
  unfold takeRef
  split
  · exact ⟨_, _, rfl⟩
  · exact ⟨c.refCtr, c.sofs, rfl⟩

theorem acceptedPort_frame (c : CamPort) (f : FrameObs) :
    SetPort c (acceptedPort c f) ∧ (acceptedPort c f).state = c.state
      ∧ ∃ x, x.verdict = none ∧ (acceptedPort c f).hist = (x :: c.hist).take 8 := by
  obtain ⟨r, n, h⟩ := takeRef_frame c f
  rw [acceptedPort, h]
  exact ⟨⟨rfl, rfl, rfl⟩, rfl, _, rfl, rfl⟩

/-- A whole, timely frame with the right pattern goes to the port, which stays admitted, and then to the sets. -/
theorem frameIn_of_accepted {s : State} {p : Fin 4} {f : FrameObs} (h3 : (camGet s p).state = 3)
    (hearly : (camGet s p).early = false) (hpat : patternOk (camGet s p) f = true)
    (hpair : twoRunning false (camGet s p).hist = false) :
    ∃ c, SetPort (camGet s p) c ∧ frameIn s p true f = joinFrame (camSet s p c) p (frameCtr (camGet s p) f) f := by
  obtain ⟨hport, hstate, x, hx, hhist⟩ := acceptedPort_frame (camGet s p) f
  have hget : camGet (camSet s p (acceptedPort (camGet s p) f)) p = acceptedPort (camGet s p) f := by simp
  have hnone : twoRunning false (acceptedPort (camGet s p) f).hist = false :=
    hhist ▸ twoRunning_take (twoRunning_cons_of_none hx hpair) 8
  obtain ⟨c, hjudge, hc⟩ := judge_of_no_pair (s := camSet s p (acceptedPort (camGet s p) f)) (p := p)
    (by rw [hget, hstate, h3]) (by rw [hget, hnone])
  rw [hget] at hc
  refine ⟨c, ⟨hc.late.trans hport.late, hc.inSet.trans hport.inSet, hc.sofNs.trans hport.sofNs⟩, ?_⟩
  rw [camSet_camSet] at hjudge
  have hbody : frameIn s p true f
      = joinFrame (judge (camSet s p (acceptedPort (camGet s p) f)) p) p (frameCtr (camGet s p) f) f := by
    simp only [frameIn, hearly, hpat, h3, Bool.not_true, Bool.or_false, Bool.false_eq_true, if_false]
    rfl
  rw [hbody, hjudge]

/-- A timely frame of a camera that its set expects enters the set. -/
theorem joinFrame_of_expected {s : State} {p : Fin 4} {o : OpenSet} (ho : s.world.openSet = some o)
    (hlate : (camGet s p).late = false) (hin : (camGet s p).inSet = true) (hdoze : s.pwr.pstate ≠ .doze) (ctr : W32)
    (f : FrameObs) : ∃ t, joinFrame s p ctr f = settleSet t
      ∧ t.world = { s.world with openSet := some { o with got := o.got ++ [setFrame s p ctr f] } } := by
  have hawake : (s.pwr.pstate == .doze) = false := beq_eq_false_iff_ne.mpr hdoze
  cases htakes : takesPart s p <;>
    simp only [joinFrame, htakes, hlate, hin, hawake, ho, camMod, camSet, Bool.false_eq_true, if_false, if_true] <;>
    exact ⟨_, rfl, rfl⟩

/-- The open set with a frame of a camera entered. -/
def enteredSet (s : State) (p : Fin 4) (o : OpenSet) (f : FrameObs) : OpenSet :=
  { o with got := o.got ++ [setFrame s p (frameCtr (camGet s p) f) f] }

/-- An accepted frame of an admitted camera that the open set expects enters the set. -/
theorem exec_frameReceived_enters {s : State} {p : Fin 4} {cfg : CamCfg} {f : FrameObs} {o : OpenSet} (hs : Live s)
    (ho : s.world.openSet = some o) (hcfg : camCfg s p = some cfg) (hdepth : hasDepth cfg f = true)
    (hwhole : frameWhole cfg f = true) (h3 : (camGet s p).state = 3) (hearly : (camGet s p).early = false)
    (hpat : patternOk (camGet s p) (assigned cfg f) = true) (hlate : (camGet s p).late = false)
    (hin : (camGet s p).inSet = true) (hdoze : s.pwr.pstate ≠ .doze) (hpair : twoRunning false (camGet s p).hist = false) :
    ∃ t, exec (.frameReceived p f) s = .next (settleSet t)
      ∧ t.world = { s.world with openSet := some (enteredSet s p o (assigned cfg f)) } := by
  have hrun : exec (.frameReceived p f) s = .next (frameIn s p true (assigned cfg f)) := by
    have hdef : exec (.frameReceived p f) s = live s fun s => match camCfg s p with
      | some c => if (camGet s p).state < 2 || !hasDepth c f then s else frameIn s p (frameWhole c f) (assigned c f)
      | none => s := rfl
    rw [hdef, live_of_hub hs, hcfg]
    simp [h3, hdepth, hwhole]
  obtain ⟨c, hc, hframe⟩ := frameIn_of_accepted h3 hearly hpat hpair
  have hget : camGet (camSet s p c) p = c := by simp
  obtain ⟨t, hjoin, hworld⟩ := joinFrame_of_expected (s := camSet s p c) (p := p) ho (by rw [hget, hc.late, hlate])
    (by rw [hget, hc.inSet, hin]) hdoze (frameCtr (camGet s p) (assigned cfg f)) (assigned cfg f)
  refine ⟨t, by rw [hrun, hframe, hjoin], ?_⟩
  rw [hworld, enteredSet, setFrame, setFrame, hget, hc.sofNs]
  rfl

/-! ## The statement -/

/-- Settles O37: each way in which a start-of-frame meets the open set, then a frame that enters the set and the timeout. -/
theorem frameSetsForm : Obligations.FrameSetsForm := by
  unfold Obligations.FrameSetsForm
  refine ⟨fun s p ns hs => ⟨fun h => ?ignored, fun h2 => ⟨sofStep s p ns, ?starts, ?counts⟩⟩,
    fun s p cfg f o hs ho => ⟨?frame, fun hdue => ?early, fun hdue hgot => ?dropped, fun hdue hgot => ?timedOut⟩⟩
  case ignored => rw [exec_startOfFrame hs, if_pos h]
  case starts => rw [exec_startOfFrame hs, if_neg (Nat.not_lt.mpr h2)]
  case counts =>
    obtain ⟨joined, w, hcase⟩ := sofStep_cases (s := s) (p := p) ns
    have hport : camGet (sofStep s p ns) p = sofPort s p ns joined := by rw [hcase, camGet_afterSof]
    refine ⟨congrArg CamPort.sofs hport, congrArg CamPort.sofNs hport, congrArg CamPort.lastSof hport,
      congrArg CamPort.early hport, fun hno => ?apart, fun hjoins hnone => ?opens,
      fun o hjoins ho => ⟨fun hafter hbefore hmember hnew => ?joins, fun hout => ?outside⟩, ?fabric, ?faults, ?work⟩
    case apart => rw [sofStep_of_not_joins ns hno]; rfl
    case opens => rw [sofStep_of_none ns hjoins hnone, camGet_afterSof]; exact ⟨rfl, rfl⟩
    case joins =>
      have hwithin : joinsSet o p ns (syncTol s) = true := joinsSet_of_within hafter hbefore hmember hnew
      rw [sofStep_of_open ns hjoins ho, if_pos hwithin, camGet_afterSof]
      exact ⟨rfl, rfl⟩
    case outside =>
      have hout' : joinsSet o p ns (syncTol s) = false := joinsSet_of_outside hout
      rw [sofStep_of_open ns hjoins ho, if_neg (Bool.eq_false_iff.mp hout'), camGet_afterSof]
      exact ⟨ho, rfl⟩
    case fabric => rw [hcase]; exact ⟨rfl, rfl, rfl⟩
    case faults => rw [hcase]; exact ⟨rfl, rfl⟩
    case work => rw [hcase]; exact ⟨rfl, rfl, rfl, rfl⟩
  case frame =>
    intro hcfg hdepth hwhole h3 hearly hpat hlate hin hdoze hpair
    obtain ⟨t, hrun, hworld⟩ := exec_frameReceived_enters hs ho hcfg hdepth hwhole h3 hearly hpat hlate hin hdoze hpair
    have hopen : t.world.openSet = some (enteredSet s p o (assigned cfg f)) := by rw [hworld]
    have hwaiting : t.world.waiting = s.world.waiting := by rw [hworld]
    refine ⟨_, hrun, fun hmissing => ?goesOn, fun hall => ?completes⟩
    case goesOn =>
      rw [settleSet_of_missing hopen hmissing]
      exact ⟨hopen, hwaiting⟩
    case completes =>
      have hnew : (enteredSet s p o (assigned cfg f)).got ≠ [] := List.append_ne_nil_of_right_ne_nil _ (List.cons_ne_nil _ _)
      rw [settleSet_of_complete hopen hall, closeSet_of_frames hopen hnew, hwaiting]
      exact ⟨rfl, rfl⟩
  case early => rw [exec_setTimeout hs, hdue]; rfl
  case dropped =>
    refine ⟨closeSet s, by rw [exec_setTimeout hs, if_pos hdue], ?_⟩
    rw [closeSet_of_empty ho hgot]
    exact ⟨rfl, rfl⟩
  case timedOut =>
    refine ⟨closeSet s, by rw [exec_setTimeout hs, if_pos hdue], ?_⟩
    rw [closeSet_of_frames ho hgot]
    exact ⟨rfl, rfl⟩

end Sys2Proof.Machine

/-! # Recipe loads (O28)

The three commands of a `RECIPE_LOAD`: the load whose blob checks pass, the end of glow's parse, and glow's absence. Each
ends in a completion, whose frame says that what the command installed stays. -/

namespace Sys2Proof.Machine

open Sys2Proof

/-! ## What a beginning and a completion leave (R329, R335) -/

/-- The unit of security, the log, and of the sluice the recipes and the parses under way stay. -/
structure KeepsLoads (s t : State) : Prop where
  sec : t.sec = s.sec
  ember : t.ember = s.ember
  recipe : t.sluice.recipe = s.sluice.recipe
  nextRec : t.sluice.nextRec = s.sluice.nextRec
  parse : t.sluice.parse = s.sluice.parse

theorem WeirFrame.keepsLoads {s t : State} (h : WeirFrame s t) : KeepsLoads s t := by
  obtain ⟨_, _, _, _, _, _, rfl⟩ := h
  exact ⟨rfl, rfl, rfl, rfl, rfl⟩

theorem finish_keeps (s : State) (r : JobRef) (st : Status) (detail : Nat) : KeepsLoads s (finish s r st detail) :=
  (weirFrame_finish s r st detail).keepsLoads

/-! ## The load (R420, R432) -/

theorem exec_recipeLoad {s : State} (hs : Live s) {r : RingId} {d : DescEntry} (hd : beginable s r = some d) {src len : Nat}
    (hbody : d.desc.body = .recipeLoad src len) (raw : Blob) :
    exec (.recipeLoad r raw) s
      = .next (recipeLoad (beginExec s d) d { raw with bytes := srcBytes s d raw.bytes } len) := by
  have hdef : exec (.recipeLoad r raw) s = live s fun s => runHead s r DescBody.isRecipeLoad fun s d =>
      match d.desc.body with
      | .recipeLoad _ len => recipeLoad s d { raw with bytes := srcBytes s d raw.bytes } len
      | _ => s := rfl
  have hkey : srcBytes (beginExec s d) d raw.bytes = srcBytes s d raw.bytes := rfl
  rw [hdef, live_of_hub hs]
  simp only [runHead, hd, hbody, DescBody.isRecipeLoad, if_true, hkey]

theorem blobRefusal_beginExec (s : State) (d : DescEntry) (b : Blob) (len : Nat) (idOk : Bool) :
    blobRefusal (beginExec s d) b len idOk = blobRefusal s b len idOk := rfl

theorem recipeLoad_parse {s : State} {d : DescEntry} {b : Blob} {len : Nat} (hblob : blobRefusal s b len true = none)
    (hhdr : recipeHdrOk (decodeBlob b.bytes) = true) :
    (recipeLoad s d b len).sluice.parse
      = s.sluice.parse ++ [⟨d.ref.ring, d.ref.index, decodeBlob b.bytes, s.pwr.ticks⟩] := by
  simp [recipeLoad, hblob, hhdr]

/-! ## The end of the parse (R107, R432) -/

theorem exec_recipeParseDone {s : State} (hs : Live s) (hhalt : s.safety.state ≠ .halt) {r : RingId} {w : RecipeWork}
    (hw : parseOn s r = some w) (hglow : glowRuns s = true) {p : ParseResult} (hp : p.digestOk = true) :
    exec (.recipeParseDone r p) s = .next (if recipeOk s.motion.spWin (parsedTables p) then
      installRecipe (dropParse s r) w (parsedTables p)
      else finish (dropParse s r) ⟨w.ring, w.index⟩ .planMismatch 0x01) := by
  have hstate : (s.safety.state == .halt) = false := beq_eq_false_iff_ne.mpr hhalt
  have hdef : exec (.recipeParseDone r p) s = execRecipeParseDone r p s := rfl
  rw [hdef, execRecipeParseDone, live_of_hub hs]
  simp only [hw, hglow, hstate, hp, Bool.not_true, Bool.or_false, Bool.false_eq_true, if_false]
  cases recipeOk s.motion.spWin (parsedTables p) <;> rfl

/-- The state of an installed recipe before its load completes. -/
def recipeInstalled (s : State) (w : RecipeWork) (r : Recipe) : State :=
  let s1 := fillRegions (extend s 4 w.hdr.bodyDigest) .recipe (recipeFills s r)
  { s1 with
    ember := { s1.ember with triggers := r.triggers }
    sluice := { s1.sluice with nextRec := some { r with bodyDigest := w.hdr.bodyDigest } } }

theorem installRecipe_eq (s : State) (w : RecipeWork) (r : Recipe) :
    installRecipe s w r = finish (recipeInstalled s w r) ⟨w.ring, w.index⟩ .ok 0 := rfl

/-- M4 takes the digest of the recipe's body (R415). -/
theorem extend_meas (s : State) (i : Fin 8) (d : Digest) :
    (extend s i d).sec.meas.get i = Config.sm3 (digestBytes (s.sec.meas.get i) ++ digestBytes d) := by
  simp [extend, Vector.get_eq_getElem]

/-- The tables are the next recipe's, the triggers are the log's and M4 is extended; the recipe in force and the descriptors
stay. -/
structure InstalledFrom (s : State) (w : RecipeWork) (r : Recipe) (t : State) : Prop where
  nextRec : t.sluice.nextRec = some { r with bodyDigest := w.hdr.bodyDigest }
  recipe : t.sluice.recipe = s.sluice.recipe
  triggers : t.ember.triggers = r.triggers
  meas : t.sec.meas.get 4 = Config.sm3 (digestBytes (s.sec.meas.get 4) ++ digestBytes w.hdr.bodyDigest)
  descs : t.descs = s.descs

theorem recipeInstalled_installs (s : State) (w : RecipeWork) (r : Recipe) : InstalledFrom s w r (recipeInstalled s w r) := by
  have hmeas := extend_meas s 4 w.hdr.bodyDigest
  obtain ⟨v, p, g, m, hfill⟩ := fillFrame_fillRegions (extend s 4 w.hdr.bodyDigest) .recipe (recipeFills s r)
  rw [recipeInstalled, hfill]
  exact ⟨rfl, rfl, rfl, hmeas, rfl⟩

/-- A recipe that is installed completes its load `OK`, and the completion leaves what was installed. -/
theorem installRecipe_installs {s : State} {w : RecipeWork} {d : DescEntry} (hd : findDesc s ⟨w.ring, w.index⟩ = some d)
    (r : Recipe) : (installRecipe s w r).sluice.nextRec = some { r with bodyDigest := w.hdr.bodyDigest }
      ∧ (installRecipe s w r).sluice.recipe = s.sluice.recipe ∧ (installRecipe s w r).ember.triggers = r.triggers
      ∧ (installRecipe s w r).sec.meas.get 4 = Config.sm3 (digestBytes (s.sec.meas.get 4) ++ digestBytes w.hdr.bodyDigest)
      ∧ DoneAs (installRecipe s w r) ⟨w.ring, w.index⟩ (okResult d 0) := by
  have hin := recipeInstalled_installs s w r
  have hkeep := finish_keeps (recipeInstalled s w r) ⟨w.ring, w.index⟩ .ok 0
  rw [installRecipe_eq, hkeep.nextRec, hkeep.recipe, hkeep.ember, hkeep.sec]
  exact ⟨hin.nextRec, hin.recipe, hin.triggers, hin.meas, doneAs_finish_ok ((findDesc_congr hin.descs _).trans hd) 0⟩

/-! ## Glow's absence (R433) -/

theorem exec_glowUnavailable {s : State} (hs : Live s) (hhalt : s.safety.state ≠ .halt) {r : RingId} {w : RecipeWork}
    (hw : parseOn s r = some w) (hglow : glowRuns s = false) :
    exec (.glowUnavailable r) s = .next (if s.pwr.ticks < w.started + 6400000 then s
      else finish (raise (dropParse s r) .glowUnavailable []) ⟨w.ring, w.index⟩ .jobFault 0x48) := by
  have hstate : (s.safety.state == .halt) = false := beq_eq_false_iff_ne.mpr hhalt
  have hdef : exec (.glowUnavailable r) s = execGlowUnavailable r s := rfl
  have hms : 200 * ticksPerMs = 6400000 := rfl
  have hclass : EventClass.glowUnavailable.number = 0x48 := rfl
  rw [hdef, execGlowUnavailable, live_of_hub hs]
  simp only [hw, hglow, hstate, hms, hclass, Bool.or_false, Bool.false_or, decide_eq_true_eq]

/-! ## The statement -/

/-- Settles O28: the load by its blob checks, the parse by its tables' limits, and glow's absence by its 200 ms. -/
theorem recipesLoad : Obligations.RecipesLoad := by
  unfold Obligations.RecipesLoad
  refine fun s r d raw w p src len hs hhalt => ⟨fun hd hbody hblob hhdr => ?load,
    fun hw hd hglow hp => ⟨fun hok => ?installed, fun hbad => ?refused⟩,
    fun hw hd hglow => ⟨fun hlate => ?ended, fun hearly => ?waits⟩⟩
  case load =>
    have hblob' := (blobRefusal_beginExec s d _ len true).trans hblob
    refine ⟨_, exec_recipeLoad hs hd hbody raw, ?_⟩
    rw [recipeLoad_parse hblob' hhdr, (weirFrame_beginExec s d).keepsLoads.parse]
    rfl
  case installed =>
    refine ⟨_, (exec_recipeParseDone hs hhalt hw hglow hp).trans (congrArg _ (if_pos hok)), ?_⟩
    exact installRecipe_installs (s := dropParse s r) hd _
  case refused =>
    refine ⟨_, (exec_recipeParseDone hs hhalt hw hglow hp).trans (congrArg _ (if_neg (Bool.eq_false_iff.mp hbad))), ?_⟩
    have hkeep := finish_keeps (dropParse s r) ⟨w.ring, w.index⟩ .planMismatch 0x01
    exact ⟨hkeep.nextRec, hkeep.sec, doneAs_finish (s := dropParse s r) hd Status.noConfusion 0x01⟩
  case ended =>
    refine ⟨_, (exec_glowUnavailable hs hhalt hw hglow).trans (congrArg _ (if_neg (Nat.not_lt.mpr hlate))), ?_, ?_⟩
    · have hkept : findDesc (raise (dropParse s r) .glowUnavailable []) ⟨w.ring, w.index⟩ = some d :=
        (findDesc_congr (raise_descs _ _ _) _).trans hd
      exact doneAs_finish hkept Status.noConfusion 0x48
    · rw [(finish_keeps _ _ _ _).parse, raise_sluice]
      rfl
  case waits => rw [exec_glowUnavailable hs hhalt hw hglow, if_pos hearly]

end Sys2Proof.Machine

/-! # The budget guard and the measurement transfer (O17)

The guard writes candidates of one job alone. A transfer out of awake basins writes bytes of the pools that carry the
assembler; what it notes of the seeds then is one write of the job. -/

namespace Sys2Proof.Machine

open Sys2Proof

/-! ## The budget guard (R167) -/

/-- A job after the guard: on the lantern, each candidate whose queries are not done is cut off. -/
def guardedJob (l : Logical) (j : Job) : Job := { j with cands := j.cands.map fun c =>
  if c.lantern = l.val ∧ c.queries < 1456 then { c with marks := c.marks ||| 8, coarse := [], fine := [], least := none } else c }

theorem modCand_cutOff (s : State) (j : Job) (l : Logical) :
    modCand s j (fun c => c.lantern == l.val && decide (c.queries < queryCount)) cutOff = modJob s j.ref (guardedJob l) := by
  have hopen : ∀ c : Cand, (c.lantern == l.val && decide (c.queries < queryCount)) = true
      ↔ c.lantern = l.val ∧ c.queries < 1456 := fun c => by
    simp only [Bool.and_eq_true, beq_iff_eq, decide_eq_true_eq]
    rfl
  unfold modCand guardedJob
  simp only [hopen, cutOff, addMark]

theorem exec_budgetGuard {s : State} (hs : Served s) {job : JobRef} {j : Job} (hj : findJob s job = some j) {l : Logical}
    (hl : (checkers j).contains l.val = true) :
    exec (.budgetGuard job l) s = .next (modJob s job (guardedJob l)) := by
  have harm : exec (.budgetGuard job l) s = execBudgetGuard job l s := rfl
  rw [harm, execBudgetGuard, serve_of_served hs]
  simp only [hj, hl, if_true, modCand_cutOff, findJob_ref hj]

/-! ## Bytes into the pools of a set of lanterns -/

/-- Lanterns are all that differs, none outside the set, and each basin's retention stands. -/
structure PoolWrites (P : Phys → Prop) (s t : State) : Prop where
  frame : ∃ v, t = { s with lanterns := v }
  retain : ∀ p, (lant t p).retain = (lant s p).retain
  others : ∀ p, ¬ P p → lant t p = lant s p

theorem PoolWrites.refl (P : Phys → Prop) (s : State) : PoolWrites P s s := ⟨⟨s.lanterns, rfl⟩, fun _ => rfl, fun _ _ => rfl⟩

theorem PoolWrites.trans {P : Phys → Prop} {a b c : State} (h : PoolWrites P a b) (k : PoolWrites P b c) : PoolWrites P a c := by
  obtain ⟨v, hv⟩ := h.frame
  obtain ⟨w, hw⟩ := k.frame
  exact ⟨⟨w, by rw [hw, hv]⟩, fun p => (k.retain p).trans (h.retain p), fun p hp => (k.others p hp).trans (h.others p hp)⟩

/-- A fold of steps that each write the set's pools, from every state that such writes reach. -/
theorem PoolWrites.foldl {α : Type} {P : Phys → Prop} {f : State → α → State} {s : State} (l : List α)
    (hf : ∀ t, PoolWrites P s t → ∀ a ∈ l, PoolWrites P t (f t a)) : PoolWrites P s (l.foldl f s) :=
  List.foldlRecOn l f (PoolWrites.refl P s) fun t ht a ha => ht.trans (hf t ht a ha)

theorem PoolWrites.map {P : Phys → Prop} {s t : State} (h : PoolWrites P s t) : t.map = s.map := by
  obtain ⟨v, rfl⟩ := h.frame; rfl

theorem PoolWrites.jobs {P : Phys → Prop} {s t : State} (h : PoolWrites P s t) : t.jobs = s.jobs := by
  obtain ⟨v, rfl⟩ := h.frame; rfl

theorem poolWrites_placeWrite {P : Phys → Prop} (s : State) {p : Phys} (hp : P p) (a : Nat) (bs : List Byte) :
    PoolWrites P s (placeWrite s (.basin p a) bs) := by
  have hlant : ∀ q, lant (placeWrite s (.basin p a) bs) q = if p = q then { lant s p with
      basin := (lant s p).basin.writeWhere (placeHas s (.basin p a)) a bs } else lant s q := fun q => lant_modLant s p q _
  refine ⟨⟨_, rfl⟩, fun q => ?_, fun q hq => ?_⟩
  · rw [hlant]
    by_cases h : p = q
    · rw [if_pos h, h]
    · rw [if_neg h]
  · have hne : p ≠ q := fun h => hq (h ▸ hp)
    rw [hlant, if_neg hne]

theorem poolWrites_poolPut {P : Phys → Prop} (s : State) {p : Phys} (hp : P p) (a : Nat) (bs : List Byte) :
    PoolWrites P s (poolPut s p a bs) :=
  .foldl _ fun t _ _ _ => poolWrites_placeWrite t hp _ _

/-! ## The measurement transfer (R177) -/

/-- Every basin can be read and written by a plan (R57). -/
def AllAwake (s : State) : Prop := ∀ p, (lant s p).retain.asleep = false

theorem PoolWrites.allAwake {P : Phys → Prop} {s t : State} (h : PoolWrites P s t) (hs : AllAwake s) : AllAwake t :=
  fun p => by rw [h.retain]; exact hs p

/-- The lantern carries the assembler in the job's slot. -/
def Assembles (s : State) (j : Job) (p : Phys) : Prop := ∃ n ∈ stageLanterns j 4, physOf s n = some p

theorem assembles_congr {s t : State} (h : t.map = s.map) (j : Job) : Assembles t j = Assembles s j := by
  funext p
  simp only [Assembles, physOf, h]

/-- A block that moves between awake basins is written to the assembler's lanterns. -/
theorem poolWrites_moveBlock {s : State} (hs : AllAwake s) (j : Job) (k : Nat) :
    PoolWrites (Assembles s j) s (moveBlock j s k) := by
  have hawake : ∀ {t : State}, AllAwake t → ∀ p, placeAsleep t (.basin p 0) = false := fun ht p => ht p
  unfold moveBlock
  dsimp only
  split
  case h_1 => exact .refl _ s
  case h_2 src _ =>
    simp only [hawake hs src, Bool.false_eq_true, if_false]
    refine .foldl _ fun t ht p hp => ?_
    have hcarries : Assembles s j p := by simpa [Assembles] using hp
    rw [if_neg (by rw [hawake (ht.allAwake hs)]; exact Bool.false_ne_true)]
    exact poolWrites_poolPut t hcarries _ _

theorem poolWrites_moveBlocks {s : State} (hs : AllAwake s) (j : Job) (ks : List Nat) :
    PoolWrites (Assembles s j) s (ks.foldl (moveBlock j) s) :=
  .foldl ks fun t ht k _ => by
    rw [← assembles_congr ht.map]
    exact poolWrites_moveBlock (ht.allAwake hs) j k

/-- The seeds of a job whose blocks are complete, by their place in the job. -/
def measuredSeeds (j : Job) : List Nat := (List.range j.seeds.length).filter fun k => (nth j.seeds k default).measured

/-- A seed after the transfer: moved, or flagged unless its check begins in the next slot (R177, R178). -/
def transferSeed (j : Job) (x : JobSeed) : JobSeed :=
  if x.measured then { x with moved := true, status := x.status &&& ~~~ noMeasure }
  else if uncheckedSeed j x then x else { x with status := x.status ||| noMeasure }

/-- A job after the transfer: a checked seed without a complete block is counted. -/
def transferredJob (j : Job) : Job := { j with
  seeds := j.seeds.map (transferSeed j)
  counts := { j.counts with noMeasure := j.counts.noMeasure
    + (j.seeds.filter fun x => !x.measured && !uncheckedSeed j x).length } }

theorem exec_measurementTransfer {s : State} (hs : Served s) {job : JobRef} {j : Job} (hj : findJob s job = some j) :
    exec (.measurementTransfer job) s
      = .next (modJob ((measuredSeeds j).foldl (moveBlock j) s) job transferredJob) := by
  have harm : exec (.measurementTransfer job) s = execMeasurementTransfer job s := rfl
  rw [harm, execMeasurementTransfer, serve_of_served hs]
  simp only [hj]
  rfl

/-- A seed waits for the next slot where a boundary other than the first put it in (R178). -/
theorem transferSeed_eq (j : Job) (x : JobSeed) : transferSeed j x
    = if x.measured then { x with moved := true, status := x.status &&& ~~~ noMeasure }
      else if x.fresh ∧ j.slot ≠ 0 then x else { x with status := x.status ||| noMeasure } := by
  simp only [transferSeed, uncheckedSeed, Bool.and_eq_true, bne_iff_ne]

/-- A seed is counted when it has no complete block and its check did not wait for the next slot. -/
theorem isMissing_eq (j : Job) (x : JobSeed) :
    (!x.measured && !uncheckedSeed j x) = decide (x.measured = false ∧ (x.fresh = false ∨ j.slot = 0)) := by
  rw [Bool.eq_iff_iff]
  simp only [uncheckedSeed, Bool.and_eq_true, Bool.not_eq_true', Bool.and_eq_false_iff, bne_eq_false_iff_eq,
    decide_eq_true_eq]

/-- Settles O17: the guard is one write of candidates, the transfer `PoolWrites` and then one write of the job. -/
theorem planningGuards : Obligations.PlanningGuards := by
  unfold Obligations.PlanningGuards
  intro s job j l hs hj
  refine ⟨fun hl => ?guard, fun hawake => ?transfer⟩
  case guard =>
    obtain ⟨hboard, hfield, hfaults, hfabric⟩ := modJob_frame s job (guardedJob l)
    exact ⟨_, exec_budgetGuard hs hj hl, findJob_modJob s job (guardedJob l) j hj rfl, hboard, hfield, hfaults, hfabric, rfl, rfl⟩
  case transfer =>
    have hmoves := poolWrites_moveBlocks hawake j (measuredSeeds j)
    have hfound : findJob ((measuredSeeds j).foldl (moveBlock j) s) job = some j := by
      rw [findJob, hmoves.jobs]; exact hj
    refine ⟨_, exec_measurementTransfer hs hj, ?_⟩
    rw [findJob_modJob _ job transferredJob j hfound rfl]
    have hothers : ∀ p, (∀ n ∈ stageLanterns j 4, physOf s n ≠ some p) →
        lant ((measuredSeeds j).foldl (moveBlock j) s) p = lant s p := fun p hp =>
      hmoves.others p fun ⟨n, hn, hphys⟩ => hp n hn hphys
    obtain ⟨v, hv⟩ := hmoves.frame
    rw [hv] at hothers ⊢
    refine ⟨?seeds, ?counts, ?_, ?_, ?_, rfl, rfl, rfl, rfl, hothers⟩
    case seeds => exact congrArg some (List.map_congr_left fun x _ => transferSeed_eq j x)
    case counts =>
      simp only [Option.map_some, transferredJob, isMissing_eq]
    all_goals simp [SameBoard, SameField, SameFaults]

end Sys2Proof.Machine

/-! # Goals, seeds and queries (O26)

The three commands run the flow's head descriptor and complete it. A completion's frame keeps what the command wrote; what
it answers depends of the descriptor on its name and on whether it is re-executed, which settling leaves. -/

namespace Sys2Proof.Machine

open Sys2Proof

/-! ## What a completion and a beginning leave (R154, R318, R329) -/

/-- Of the sluice the stores that goals, seeds and queries concern, and the host's memory, stay. -/
structure KeepsStores (s t : State) : Prop where
  goals : t.sluice.goals = s.sluice.goals
  libs : t.sluice.libs = s.sluice.libs
  images : t.sluice.images = s.sluice.images
  weights : t.sluice.weights = s.sluice.weights
  recipe : t.sluice.recipe = s.sluice.recipe
  host : t.host = s.host

theorem KeepsStores.trans {a b c : State} (h : KeepsStores a b) (k : KeepsStores b c) : KeepsStores a c :=
  ⟨k.goals.trans h.goals, k.libs.trans h.libs, k.images.trans h.images, k.weights.trans h.weights, k.recipe.trans h.recipe,
    k.host.trans h.host⟩

theorem WeirFrame.keepsStores {s t : State} (h : WeirFrame s t) : KeepsStores s t := by
  obtain ⟨_, _, _, _, _, _, rfl⟩ := h
  exact ⟨rfl, rfl, rfl, rfl, rfl, rfl⟩

theorem finish_keepsStores (s : State) (r : JobRef) (st : Status) (detail : Nat) : KeepsStores s (finish s r st detail) :=
  (weirFrame_finish s r st detail).keepsStores

theorem beginExec_keepsStores (s : State) (d : DescEntry) : KeepsStores s (beginExec s d) := (weirFrame_beginExec s d).keepsStores

theorem KeepsStores.goalInRange {s t : State} (h : KeepsStores s t) (g : Goal) : goalInRange t g = goalInRange s g := by
  simp only [Machine.goalInRange, recipeOf, h.recipe]

theorem KeepsStores.seedInRange {s t : State} (h : KeepsStores s t) : seedInRange t = seedInRange s := by
  funext x
  simp only [Machine.seedInRange, recipeOf, h.recipe]

theorem KeepsStores.queryBytes {s t : State} (h : KeepsStores s t) (kind : Nat) : queryBytes t kind = queryBytes s kind := by
  unfold Machine.queryBytes
  rw [h.images, h.weights, h.libs]

/-! ## Which descriptors are re-executed -/

/-- The descriptors' names, and which are re-executed, stay in order. -/
def SameReplays (s t : State) : Prop :=
  t.descs.map (fun e => (e.ref, e.replayed)) = s.descs.map fun e => (e.ref, e.replayed)

theorem sameReplays_modDesc (s : State) (r : JobRef) {f : DescEntry → DescEntry}
    (hf : ∀ e, (f e).ref = e.ref ∧ (f e).replayed = e.replayed) : SameReplays s (modDesc s r f) := by
  simp only [SameReplays, modDesc, List.map_map]
  refine List.map_congr_left fun e _ => ?_
  obtain ⟨href, hreplayed⟩ := hf e
  simp only [Function.comp_apply]
  split
  case isTrue => rw [href, hreplayed]
  case isFalse => rfl

theorem sameReplays_congr {s t : State} (h : t.descs = s.descs) : SameReplays s t := by rw [SameReplays, h]

theorem sameReplays_settleReady (s : State) (d : DescEntry) : SameReplays s (settleReady s d) := by
  rcases settleReady_cases s d with h | ⟨-, h⟩ | ⟨-, h⟩ <;> rw [h]
  · exact rfl
  · exact (sameReplays_congr (wakeJob_writes _ d).1).trans (sameReplays_modDesc s d.ref fun _ => ⟨rfl, rfl⟩)
  · exact sameReplays_modDesc s d.ref fun _ => ⟨rfl, rfl⟩

theorem sameReplays_matchToken (b : Nat) (s : State) (d : DescEntry) : SameReplays s (matchToken b s d) := by
  rcases matchToken_cases b s d with h | ⟨-, h⟩ <;> rw [h]
  · exact rfl
  · exact sameReplays_modDesc s d.ref (f := fun e => { e with matched := e.matched ||| BitVec.ofNat 4 (2 ^ b) })
      fun _ => ⟨rfl, rfl⟩

theorem SameReplays.foldl {f : State → DescEntry → State} (hf : ∀ s d, SameReplays s (f s d)) (l : List DescEntry) (s : State) :
    SameReplays s (l.foldl f s) :=
  List.foldlRecOn l f rfl fun t ht d _ => (hf t d).trans ht

theorem sameReplays_matchGoal (s : State) (n : Nat) : SameReplays s (matchGoal s n) :=
  (SameReplays.foldl sameReplays_settleReady _ _).trans (SameReplays.foldl (sameReplays_matchToken 1) _ s)

/-- A descriptor that is found is still found, and re-executed as it was. -/
theorem SameReplays.findDesc {s t : State} (h : SameReplays s t) {r : JobRef} {d : DescEntry} (hd : findDesc s r = some d) :
    ∃ e, findDesc t r = some e ∧ e.replayed = d.replayed := by
  have hfind : ∀ u : State, (Machine.findDesc u r).map (fun e => (e.ref, e.replayed))
      = (u.descs.map fun e => (e.ref, e.replayed)).find? fun x => x.1 == r := fun u => by
    rw [List.find?_map]; rfl
  have hsome : (Machine.findDesc t r).map (fun e => (e.ref, e.replayed)) = some (d.ref, d.replayed) := by
    rw [hfind t, h, ← hfind s, hd]; rfl
  obtain ⟨e, he, hpair⟩ := Option.map_eq_some_iff.mp hsome
  exact ⟨e, he, congrArg Prod.snd hpair⟩

/-! ## A descriptor that begins and completes (R329, R335) -/

/-- The descriptor whose execution has begun. -/
def begunEntry (d : DescEntry) : DescEntry := { d with stage := .executing, begun := true, ever := true }

theorem findDesc_beginExec {s : State} {d : DescEntry} (hd : findDesc s d.ref = some d) :
    findDesc (beginExec s d) d.ref = some (begunEntry d) :=
  findDesc_modDesc (busyNow (traceDesc s 2 d 0 0)) d.ref begunEntry d hd rfl

theorem doneAs_begun_ok {s : State} {d : DescEntry} (hd : findDesc s d.ref = some d) {t : State}
    (ht : SameReplays (beginExec s d) t) : DoneAs (finish t d.ref .ok 0) d.ref (okResult d 0) := by
  obtain ⟨e, he, hreplayed⟩ := ht.findDesc (findDesc_beginExec hd)
  have hsame : okResult e 0 = okResult d 0 := by rw [okResult, hreplayed]; rfl
  exact hsame ▸ doneAs_finish_ok he 0

/-- The head of a ring's flow is a descriptor of the ring. -/
theorem ring_of_beginable {s : State} {r : RingId} {d : DescEntry} (h : beginable s r = some d) : d.ref.ring = r := by
  unfold beginable at h
  split at h
  case h_1 e he =>
    obtain rfl : e = d := by
      split at h
      case isTrue => exact Option.some.inj h
      case isFalse => cases h
    have hhead := List.find?_some he
    simp only [Bool.and_eq_true, beq_iff_eq] at hhead
    exact hhead.1.1.1
  case h_2 => cases h

theorem runHead_of_beginable {s : State} {r : RingId} {d : DescEntry} (hd : beginable s r = some d) {isIt : DescBody → Bool}
    (h : isIt d.desc.body = true) (f : State → DescEntry → State) : runHead s r isIt f = f (beginExec s d) d := by
  simp only [runHead, hd, h, if_true]

/-! ## GOAL_SET (R337) -/

theorem exec_goalSet {s : State} (hs : Live s) {r : RingId} {d : DescEntry} (hd : beginable s r = some d) {src len n : Nat}
    (hbody : d.desc.body = .goalSet src len n) (raw : List Byte) :
    exec (.goalSet r raw) s = .next (goalSet (beginExec s d) d n (srcBytes s d raw)) := by
  have harm : exec (.goalSet r raw) s = execGoalSet r raw s := rfl
  rw [harm, execGoalSet, live_of_hub hs, runHead_of_beginable hd (by rw [hbody]; rfl)]
  simp only [hbody]
  rfl

theorem goalSet_of_none (s : State) (d : DescEntry) (n : Nat) {bytes : List Byte} (h : decodeGoal bytes = none) :
    goalSet s d n bytes = finish s d.ref .planMismatch 0x0C := by
  simp only [goalSet, h]

theorem goalSet_of_some (s : State) (d : DescEntry) (n : Nat) {bytes : List Byte} {g : Goal} (h : decodeGoal bytes = some g) :
    goalSet s d n bytes
      = if goalInRange s g then setGoal s d.ref n g else finish s d.ref .rangeExceeded 0 := by
  simp only [goalSet, h]

/-- A goal's matching of tokens leaves the goal in its place. -/
theorem setGoal_goals (s : State) (ref : JobRef) (n : Nat) (g : Goal) :
    (setGoal s ref n g).sluice.goals = s.sluice.goals.put n g :=
  ((weirFrame_matchWhere _ 1 _).keepsStores.trans (finish_keepsStores _ ref .ok 0)).goals

theorem setGoal_done {s : State} {d : DescEntry} (hd : findDesc s d.ref = some d) (n : Nat) (g : Goal) :
    DoneAs (setGoal (beginExec s d) d.ref n g) d.ref (okResult d 0) :=
  doneAs_begun_ok hd (sameReplays_matchGoal _ n)

/-! ## SEEDS_LOAD (R154) -/

theorem exec_seedsLoad {s : State} (hs : Live s) {r : RingId} {d : DescEntry} (hd : beginable s r = some d)
    {src len cls mode : Nat} (hbody : d.desc.body = .seedsLoad src len cls mode) (raw : List Byte) :
    exec (.seedsLoad r raw) s = .next (seedsLoad (beginExec s d) d len cls mode (srcBytes s d raw)) := by
  have harm : exec (.seedsLoad r raw) s = execSeedsLoad r raw s := rfl
  rw [harm, execSeedsLoad, live_of_hub hs, runHead_of_beginable hd (by rw [hbody]; rfl)]
  simp only [hbody]
  rfl

/-- The seeds of a class once a buffer is loaded under its mode. -/
def loadedSeeds (s : State) (cls mode : Nat) (xs : List LibSeed) : List LibSeed :=
  if mode = 1 then xs else (s.sluice.libs.find cls).getD [] ++ xs

/-- Seeds in range that their class has room for are stored. -/
theorem seedsLoad_of_fits {s : State} {d : DescEntry} {len cls mode : Nat} {bytes : List Byte} {xs : List LibSeed}
    (hxs : decodeSeeds (len / 1600) bytes = some xs) (hrange : xs.all (seedInRange s) = true)
    (hfits : (loadedSeeds s cls mode xs).length ≤ 1024) : seedsLoad s d len cls mode bytes
      = finish { s with sluice := { s.sluice with libs := s.sluice.libs.put cls (loadedSeeds s cls mode xs) } } d.ref .ok 0 := by
  have hload : loadedSeeds s cls mode xs = (if mode = 1 then [] else (s.sluice.libs.find cls).getD []) ++ xs := by
    rw [loadedSeeds]; split <;> rfl
  rw [hload] at hfits ⊢
  rw [List.length_append] at hfits
  simp only [seedsLoad, hxs, hrange, if_true, loadSeeds, if_neg (Nat.not_lt.mpr hfits)]

/-! ## QUERY (R318, R331) -/

theorem exec_query {s : State} (hs : Live s) {r : RingId} {d : DescEntry} (hd : beginable s r = some d)
    {dst len kind : Nat} (hbody : d.desc.body = .query dst len kind) :
    exec (.query r) s
      = .next (finish (dstWrite (beginExec s d) r dst (queryBytes (beginExec s d) kind)) d.ref .ok 0) := by
  have harm : exec (.query r) s = execQuery r s := rfl
  rw [harm, execQuery, live_of_hub hs, runHead_of_beginable hd (by rw [hbody]; rfl)]
  simp only [hbody, ring_of_beginable hd]

theorem dstWrite_hostMem (s : State) (r : RingId) (a : Nat) (bs : List Byte) :
    (dstWrite s r a bs).host.mem = if (ringGet s r).lost then s.host.mem else s.host.mem.writeN a bs := by
  rw [dstWrite]; split <;> rfl

theorem dstWrite_descs (s : State) (r : RingId) (a : Nat) (bs : List Byte) : (dstWrite s r a bs).descs = s.descs := by
  rw [dstWrite]; split <;> rfl

/-! ## The statement -/

/-- Settles O26: each command by its equation, its result by `doneAs_begun_ok` or as a refusal. -/
theorem goalsSeedsAndQueries : Obligations.GoalsSeedsAndQueries := by
  unfold Obligations.GoalsSeedsAndQueries
  intro s r d raw hs hd hfound bytes
  have hbegin := beginExec_keepsStores s d
  have hbegun := findDesc_beginExec hfound
  refine ⟨fun src len n hbody => ⟨_, exec_goalSet hs hd hbody raw, fun g hg => ?goal, fun hnone => ?noGoal⟩,
    fun src len cls mode xs hbody hxs hrange => ?seeds, fun dst len kind hbody => ⟨_, exec_query hs hd hbody, ?query⟩,
    fun hplain => by simp [bytes, srcBytes, hplain]⟩
  case goal =>
    rw [goalSet_of_some _ d n hg, hbegin.goalInRange]
    cases goalInRange s g with
    | true => exact ⟨by rw [if_pos rfl, setGoal_goals, hbegin.goals, if_pos rfl], setGoal_done hfound n g⟩
    | false =>
      exact ⟨((finish_keepsStores _ d.ref .rangeExceeded 0).goals).trans hbegin.goals, doneAs_finish hbegun Status.noConfusion 0⟩
  case noGoal =>
    rw [goalSet_of_none _ d n hnone]
    exact ⟨((finish_keepsStores _ d.ref .planMismatch 0x0C).goals).trans hbegin.goals, doneAs_finish hbegun Status.noConfusion 0x0C⟩
  case seeds =>
    intro all hfits
    have hall : loadedSeeds (beginExec s d) cls mode xs = all := by rw [loadedSeeds, hbegin.libs]
    have hload := seedsLoad_of_fits (s := beginExec s d) (d := d) (cls := cls) (mode := mode) hxs (by rw [hbegin.seedInRange]; exact hrange)
      (by rw [hall]; exact hfits)
    refine ⟨_, exec_seedsLoad hs hd hbody raw, ?_⟩
    rw [hload, hall, (finish_keepsStores _ d.ref .ok 0).libs]
    exact ⟨congrArg (·.put cls all) hbegin.libs, doneAs_begun_ok hfound (sameReplays_congr rfl)⟩
  case query =>
    refine ⟨?_, doneAs_begun_ok hfound (sameReplays_congr (dstWrite_descs ..))⟩
    rw [(finish_keepsStores _ d.ref .ok 0).host, dstWrite_hostMem, hbegin.queryBytes, hbegin.host]
    rfl

end Sys2Proof.Machine

/-! # Runs, fences and cancels (O30)

A run enters the matching store, where its readiness is settled at once; a fence and a cancel end in completions. What a
completion does to its own descriptor and what it leaves of the others comes first, then the three commands. -/

namespace Sys2Proof.Machine

open Sys2Proof

/-! ## What a completion does to its descriptor and leaves of the others (R329) -/

theorem WeirFrame.jobs {s t : State} (h : WeirFrame s t) : t.jobs = s.jobs := by
  obtain ⟨_, _, _, _, _, _, rfl⟩ := h; rfl

theorem WeirFrame.rings {s t : State} (h : WeirFrame s t) : t.rings = s.rings := by
  obtain ⟨_, _, _, _, _, _, rfl⟩ := h; rfl

theorem findJob_congr {s t : State} (h : t.jobs = s.jobs) (r : JobRef) : findJob t r = findJob s r := by
  rw [findJob, h, findJob]

/-- What the release place takes of a result: an `OK` of a re-executed descriptor is `OK_REPLAYED`. -/
def recordedResult (d : DescEntry) (res : Result) : Result :=
  { res with status := if d.replayed && res.status == .ok then .okReplayed else res.status }

theorem recordedResult_ok (d : DescEntry) (detail : Nat) : recordedResult d (plainResult .ok detail) = okResult d detail := by
  simp [recordedResult, okResult, plainResult]

theorem recordedResult_cancelled (d : DescEntry) (detail : Nat) :
    recordedResult d (plainResult .cancelled detail) = plainResult .cancelled detail := by
  simp [recordedResult, plainResult]

/-- The descriptor with its result in its release place. -/
def doneEntry (res : Result) (e : DescEntry) : DescEntry := { e with stage := .done res }

theorem complete_of_none {s : State} {r : JobRef} (h : findDesc s r = none) (res : Result) : complete s r res = s := by
  simp only [complete, h]

/-- A completion takes its result to the release place and matches the AFTER tokens that name it. -/
theorem complete_of_found {s : State} {r : JobRef} {d : DescEntry} (hd : findDesc s r = some d) (res : Result) :
    ∃ u, u.descs = (modDesc s r (doneEntry (recordedResult d res))).descs ∧ complete s r res = matchAfter u r := by
  simp only [complete, hd]
  refine ⟨_, ?_, rfl⟩
  cases d.stage.inWeir <;> rfl

theorem sameReplays_finish (s : State) (r : JobRef) (st : Status) (detail : Nat) : SameReplays s (finish s r st detail) := by
  unfold finish
  cases hd : findDesc s r with
  | none => rw [complete_of_none hd]; rfl
  | some d =>
    obtain ⟨u, hdescs, heq⟩ := complete_of_found hd (plainResult st detail)
    have hmatched : SameReplays u (matchAfter u r) :=
      (SameReplays.foldl sameReplays_settleReady _ _).trans (SameReplays.foldl (sameReplays_matchToken 3) _ u)
    rw [heq]
    exact hmatched.trans ((sameReplays_congr hdescs).trans (sameReplays_modDesc s r fun _ => ⟨rfl, rfl⟩))

/-- A descriptor that neither waits nor is ready stays at its stage when another completes. -/
theorem StandsAt.finish_other {r q : JobRef} {st : Stage} {s : State} (h : StandsAt r st s) (hwaiting : st ≠ .waiting)
    (hready : st ≠ .ready) (hq : q ≠ r) (status : Status) (detail : Nat) : StandsAt r st (finish s q status detail) := by
  unfold finish
  cases hd : findDesc s q with
  | none => rw [complete_of_none hd]; exact h
  | some d =>
    obtain ⟨u, hdescs, heq⟩ := complete_of_found hd (plainResult status detail)
    rw [heq]
    exact standsAt_matchWhere hwaiting hready ((h.modDesc_other hq (f := doneEntry _) fun _ => rfl).congr hdescs) 3 _

/-- Each descriptor of the reference that completes stands done. -/
theorem standsAt_complete {s : State} {r : JobRef} {d : DescEntry} (hd : findDesc s r = some d) (res : Result) :
    StandsAt r (.done (recordedResult d res)) (complete s r res) := by
  obtain ⟨u, hdescs, heq⟩ := complete_of_found hd res
  rw [heq]
  exact standsAt_matchWhere Stage.noConfusion Stage.noConfusion
    ((standsAt_modDesc hd (f := doneEntry _) (fun _ => rfl) fun _ => rfl).congr hdescs) 3 _

theorem standsAt_finish_cancelled {s : State} {r : JobRef} {d : DescEntry} (hd : findDesc s r = some d) (detail : Nat) :
    StandsAt r (.done (plainResult .cancelled detail)) (finish s r .cancelled detail) :=
  recordedResult_cancelled d detail ▸ standsAt_complete hd (plainResult .cancelled detail)

/-- What completes `OK` stands done with the result of R329, by what was re-executed before. -/
theorem standsAt_finish_ok {s t : State} {r : JobRef} {d : DescEntry} (hd : findDesc s r = some d) (h : SameReplays s t)
    (detail : Nat) : StandsAt r (.done (okResult d detail)) (finish t r .ok detail) := by
  obtain ⟨e, he, hreplayed⟩ := h.findDesc hd
  have hsame : okResult e detail = okResult d detail := by rw [okResult, hreplayed, okResult]
  rw [← hsame, ← recordedResult_ok]
  exact standsAt_complete he (plainResult .ok detail)

/-! ## What was accepted before a descriptor -/

theorem takeWhile_modDesc (s : State) (r : JobRef) {f : DescEntry → DescEntry} (hf : ∀ e, (f e).ref = e.ref) :
    ((modDesc s r f).descs.takeWhile fun e => e.ref != r) = s.descs.takeWhile fun e => e.ref != r := by
  unfold modDesc
  dsimp only
  induction s.descs with
  | nil => rfl
  | cons a t ih =>
    by_cases ha : a.ref = r
    · simp [ha, hf]
    · simpa [ha] using ih

/-- The descriptor of a reference that was accepted before another one. -/
def acceptedBefore (s : State) (own target : JobRef) : Option DescEntry :=
  (s.descs.takeWhile fun e => e.ref != own).find? fun e => e.ref == target

theorem acceptedBefore_modDesc (s : State) (own target : JobRef) {f : DescEntry → DescEntry} (hf : ∀ e, (f e).ref = e.ref) :
    acceptedBefore (modDesc s own f) own target = acceptedBefore s own target := by
  rw [acceptedBefore, takeWhile_modDesc s own hf, acceptedBefore]

theorem findDesc_of_acceptedBefore {s : State} {own target : JobRef} {e : DescEntry} (h : acceptedBefore s own target = some e) :
    findDesc s target = some e := by
  rw [findDesc, ← List.takeWhile_append_dropWhile (p := fun e => e.ref != own) (l := s.descs), List.find?_append]
  exact Option.or_eq_some_iff.mpr (.inl h)

/-! ## PLAN_RUN (R336, R339, R340) -/

theorem admitAt_of_found {s : State} {r : RingId} {i : W32} {d : DescEntry} (hd : findDesc s ⟨r, i⟩ = some d)
    {isIt : DescBody → Bool} (h : isIt d.desc.body = true) : admitAt s r i isIt = admitOne s d := by
  simp only [admitAt, hd, h, if_true]

/-- The run as it enters the matching store. -/
def waitingEntry (d : DescEntry) : DescEntry := { d with stage := .waiting }

def enterStore (s : State) (d : DescEntry) : State := modDesc s d.ref waitingEntry

theorem findDesc_enterStore {s : State} {d : DescEntry} (hd : findDesc s d.ref = some d) :
    findDesc (enterStore s d) d.ref = some (waitingEntry d) := findDesc_modDesc s d.ref waitingEntry d hd rfl

theorem matchToken_of_unselected {b : Nat} {d : DescEntry} (h : (tokensOf d).getLsbD b = false) (s : State) :
    matchToken b s d = s := by simp [matchToken, h]

/-- A run no selected token of which holds at its acceptance only enters the store, and its readiness is settled. -/
theorem admitRun_of_unmatched {s : State} {d : DescEntry} (hd : findDesc s d.ref = some d)
    (h : ∀ b ∈ [0, 1, 3], (tokensOf d).getLsbD b = true → tokenNow (enterStore s d) (waitingEntry d) b = false) :
    admitRun s d = settleReady (enterStore s d) (waitingEntry d) := by
  have hfound := findDesc_enterStore hd
  have hself : ((tokensOf d).getLsbD 3 && serialLe d.ref.index (afterOf d)) = false := by
    cases hbit : (tokensOf d).getLsbD 3 with
    | false => rfl
    | true => exact (Bool.or_eq_false_iff.mp (h 3 (by decide) hbit)).1
  have hhit : ∀ b ∈ [0, 1, 3], (if tokenNow (enterStore s d) (waitingEntry d) b
      then matchToken b (enterStore s d) (waitingEntry d) else enterStore s d) = enterStore s d := by
    intro b hb
    cases hbit : (tokensOf d).getLsbD b with
    | false => rw [matchToken_of_unselected (d := waitingEntry d) hbit, ite_self]
    | true => rw [h b hb hbit]; rfl
  have hstore : modDesc s d.ref (fun e => { e with stage := .waiting }) = enterStore s d := rfl
  simp only [admitRun, hstore, hself, Bool.false_eq_true, if_false, List.foldl_cons, List.foldl_nil, hfound,
    hhit 0 (by decide), hhit 1 (by decide), hhit 3 (by decide)]

/-- The entry into the store leaves what comes before the run, and so the fences that hold it. -/
theorem fenced_enterStore (s : State) (d : DescEntry) : fenced (enterStore s d) (waitingEntry d) = fenced s d :=
  congrArg (List.any · _) (takeWhile_modDesc s d.ref (f := waitingEntry) fun _ => rfl)

theorem settleReady_of_jobReady {s : State} {d : DescEntry} (hd : findDesc s d.ref = some d) (hstage : d.stage = .waiting)
    (hready : jobReady s d = true) : (findDesc (settleReady s d) d.ref).map (·.stage) = some .ready := by
  have hfound := findDesc_modDesc s d.ref (fun e => { e with stage := .ready }) d hd rfl
  have hsettle : settleReady s d = wakeJob (traceDesc (modDesc s d.ref fun e => { e with stage := .ready }) 2 d 0 0) d := by
    simp only [settleReady, hstage, hready, if_true]
  rw [hsettle, findDesc_congr (wakeJob_writes _ d).1]
  exact congrArg (Option.map (·.stage)) hfound

theorem settleReady_of_not_jobReady {s : State} {d : DescEntry} (hstage : d.stage = .waiting) (hready : jobReady s d = false) :
    settleReady s d = s := by
  simp only [settleReady, hstage, hready, Bool.false_eq_true, if_false]

section Run

variable {s : State} {d : DescEntry} {pid m : W32} {g ss w : Nat} {tok : BitVec 4} {a : W32} {seed : W64} {res len : Nat}
  (hbody : d.desc.body = .planRun pid m g ss w tok a seed res len)
include hbody

theorem exec_planRun (hs : Live s) {r : RingId} {i : W32} (hd : findDesc s ⟨r, i⟩ = some d) (hentered : d.stage = .entered) :
    exec (.planRun r i) s = .next (admitRun s d) := by
  have harm : exec (.planRun r i) s = execPlanRun r i s := rfl
  rw [harm, execPlanRun, live_of_hub hs, admitAt_of_found hd (by rw [hbody]; rfl)]
  simp [admitOne, hentered, hbody]

theorem tokensOf_planRun : tokensOf d = tok := by rw [tokensOf, hbody]

theorem minEpoch_planRun : minEpoch d = m := by rw [minEpoch, hbody]

/-- A run is ready when its selected tokens are matched and neither a fence nor a fusion run's want of frames holds it. -/
theorem jobReady_planRun (s : State) :
    jobReady s d = ((tok &&& ~~~ d.matched) == 0 && !fenced s d && !fusionWaits s d) := by
  simp only [jobReady, tokensOf_planRun hbody, hbody, Bool.and_true]

/-- The same of the run in the store, which the same fences and the same want of frames hold. -/
theorem jobReady_enterStore : jobReady (enterStore s d) (waitingEntry d)
    = ((tok &&& ~~~ d.matched) == 0 && !fenced s d && !fusionWaits s d) := by
  have hfusion : fusionWaits (enterStore s d) (waitingEntry d) = fusionWaits s d := rfl
  have hmatched : (waitingEntry d).matched = d.matched := rfl
  rw [jobReady_planRun (d := waitingEntry d) hbody, fenced_enterStore, hfusion, hmatched]

variable {r : JobRef} (hd : findDesc s r = some d)
include hd

/-- A run with no token selected is ready at once, unless a fence or a fusion run's want of frames holds it. -/
theorem admitRun_ready (htok : tok = 0) (hfence : fenced s d = false) (hfusion : fusionWaits s d = false) :
    (findDesc (admitRun s d) r).map (·.stage) = some .ready := by
  obtain rfl := findDesc_ref hd
  have hready : jobReady (enterStore s d) (waitingEntry d) = true := by
    rw [jobReady_enterStore hbody, htok, hfence, hfusion]
    simp
  rw [admitRun_of_unmatched hd (by simp [tokensOf_planRun hbody, htok])]
  exact settleReady_of_jobReady (findDesc_enterStore hd) rfl hready

/-- A run whose WORLD token lies ahead waits. -/
theorem admitRun_waits (htok : tok = 1) (hmatched : d.matched = 0) (hahead : serialLe m s.world.epoch = false) :
    (findDesc (admitRun s d) r).map (·.stage) = some .waiting := by
  obtain rfl := findDesc_ref hd
  have hnone : ∀ b ∈ [0, 1, 3], (tokensOf d).getLsbD b = true → tokenNow (enterStore s d) (waitingEntry d) b = false := by
    rw [tokensOf_planRun hbody, htok]
    intro b _ hbit
    obtain rfl : b = 0 := by simpa using hbit
    exact (congrArg (serialLe · _) (minEpoch_planRun hbody)).trans hahead
  have hready : jobReady (enterStore s d) (waitingEntry d) = false := by
    rw [jobReady_enterStore hbody, htok, hmatched]
    rfl
  rw [admitRun_of_unmatched hd hnone, settleReady_of_not_jobReady rfl hready, findDesc_enterStore hd]
  rfl

end Run

/-! ## CANCEL (R192, R347) -/

theorem exec_cancel {s : State} (hs : Live s) (hhalt : s.safety.state ≠ .halt) {r : RingId} {i : W32} {d : DescEntry}
    (hd : findDesc s ⟨r, i⟩ = some d) (hentered : d.stage = .entered) {ring : Nat} {index : W32}
    (hbody : d.desc.body = .cancel ring index) {x : JobRef} (hx : targetRef ring index = some x) :
    exec (.cancel r i) s = .next (applyCancel s ⟨r, i⟩ x) := by
  have harm : exec (.cancel r i) s = execCancel r i s := rfl
  have hstate : (s.safety.state == .halt) = false := beq_eq_false_iff_ne.mpr hhalt
  rw [harm, execCancel, live_of_hub hs, hstate, if_neg Bool.false_ne_true, admitAt_of_found hd (by rw [hbody]; rfl)]
  simp [admitOne, hentered, hbody, admitCancel, hx, findDesc_ref hd]

/-- The state in which a cancel's execution has begun. -/
def cancelBegun (s : State) (own : JobRef) : State := modDesc s own begunEntry

theorem sameReplays_cancelBegun (s : State) (own : JobRef) : SameReplays s (cancelBegun s own) :=
  sameReplays_modDesc s own fun _ => ⟨rfl, rfl⟩

theorem acceptedBefore_cancelBegun (s : State) (own target : JobRef) :
    acceptedBefore (cancelBegun s own) own target = acceptedBefore s own target :=
  acceptedBefore_modDesc s own target fun _ => rfl

/-- The cancel mark of R329. -/
def markCancelled (e : DescEntry) : DescEntry := { e with cancelled := true }

/-- The state in which the target bears the cancel mark. -/
def cancelMarked (s : State) (own target : JobRef) (e : DescEntry) : State :=
  traceDesc (modDesc (cancelBegun s own) target markCancelled) 4 e 0 0

theorem sameReplays_cancelMarked (s : State) (own target : JobRef) (e : DescEntry) : SameReplays s (cancelMarked s own target e) :=
  (sameReplays_modDesc (cancelBegun s own) target (f := markCancelled) fun _ => ⟨rfl, rfl⟩).trans (sameReplays_cancelBegun s own)

theorem findDesc_cancelMarked {s : State} {own target : JobRef} {e : DescEntry} (h : acceptedBefore s own target = some e) :
    findDesc (cancelMarked s own target e) target = some (markCancelled e) :=
  findDesc_modDesc (cancelBegun s own) target markCancelled e
    (findDesc_of_acceptedBefore ((acceptedBefore_cancelBegun s own target).trans h)) rfl

/-- The marked state, with the other members of the group told where the target is a group's job (R385). -/
def cancelTold (s : State) (own target : JobRef) (e : DescEntry) : State :=
  match jobImage (cancelBegun s own) e with
  | some img => sendAbort (cancelMarked s own target e) img e.desc.tag
  | none => cancelMarked s own target e

theorem cancelTold_frame (s : State) (own target : JobRef) (e : DescEntry) :
    ∃ k, cancelTold s own target e = { cancelMarked s own target e with klink := k } := by
  unfold cancelTold
  split
  case h_1 img _ => exact sendAbort_frame _ img e.desc.tag
  case h_2 => exact ⟨_, rfl⟩

theorem cancelTold_descs (s : State) (own target : JobRef) (e : DescEntry) :
    (cancelTold s own target e).descs = (cancelMarked s own target e).descs := by
  obtain ⟨k, hk⟩ := cancelTold_frame s own target e; rw [hk]

theorem cancelTold_jobs (s : State) (own target : JobRef) (e : DescEntry) : (cancelTold s own target e).jobs = s.jobs := by
  obtain ⟨k, hk⟩ := cancelTold_frame s own target e; rw [hk]; rfl

/-- A job as a cancel leaves it (R192). -/
def cancelledJob (j : Job) : Job := { interruptSolves j with endAs := .cancelled }

section Cancel

variable {s : State} {own target : JobRef}

theorem applyCancel_of_none (h : acceptedBefore s own target = none) :
    applyCancel s own target = finish (cancelBegun s own) own .ok 1 := by
  have hbefore := (acceptedBefore_cancelBegun s own target).trans h
  unfold applyCancel
  extract_lets s0
  split
  case h_1 => rfl
  case h_2 e he => exact absurd (he.symm.trans hbefore) (Option.some_ne_none e)

/-- A cancel that finds nothing accepted before it under its target's name says so with DETAIL 1. -/
theorem applyCancel_without_target {d : DescEntry} (hd : findDesc s own = some d) (h : acceptedBefore s own target = none) :
    DoneAs (applyCancel s own target) own (okResult d 1) ∧ (applyCancel s own target).jobs = s.jobs := by
  rw [applyCancel_of_none h]
  exact ⟨(standsAt_finish_ok hd (sameReplays_cancelBegun s own) 1).stage, (weirFrame_finish ..).jobs⟩

variable {e : DescEntry} (h : acceptedBefore s own target = some e)
include h

/-- A target in the weir completes before the cancel does; a running one is marked, and its job ends later; nothing else is left
to cancel (R347). -/
theorem applyCancel_of_some : applyCancel s own target =
    if e.stage.inWeir then finish (finish (cancelTold s own target e) target .cancelled 0) own .ok 0
    else if e.stage == .running && (findJob s target).isSome then
      finish (modJob (cancelMarked s own target e) target cancelledJob) own .ok 0
    else finish (cancelBegun s own) own .ok 1 := by
  have hbefore := (acceptedBefore_cancelBegun s own target).trans h
  unfold applyCancel
  extract_lets s0
  split
  case h_1 hnone => exact absurd (hbefore.symm.trans hnone) (Option.some_ne_none e)
  case h_2 d hd =>
    obtain rfl : e = d := Option.some.inj (hbefore.symm.trans hd)
    rfl

/-- A cancel of a target in the weir ends it `CANCELLED`. -/
theorem applyCancel_inWeir {d : DescEntry} (hd : findDesc s own = some d) (hne : target ≠ own) (hweir : e.stage.inWeir = true) :
    DoneAs (applyCancel s own target) own (okResult d 0)
      ∧ DoneAs (applyCancel s own target) target (plainResult .cancelled 0) ∧ (applyCancel s own target).jobs = s.jobs := by
  have htold := cancelTold_descs s own target e
  have htarget := standsAt_finish_cancelled ((findDesc_congr htold target).trans (findDesc_cancelMarked h)) 0
  have hreplays : SameReplays s (finish (cancelTold s own target e) target .cancelled 0) :=
    (sameReplays_finish ..).trans ((sameReplays_congr htold).trans (sameReplays_cancelMarked s own target e))
  rw [applyCancel_of_some h, if_pos hweir]
  exact ⟨(standsAt_finish_ok hd hreplays 0).stage,
    (htarget.finish_other Stage.noConfusion Stage.noConfusion hne.symm .ok 0).stage,
    ((weirFrame_finish ..).trans (weirFrame_finish ..)).jobs.trans (cancelTold_jobs s own target e)⟩

/-- A cancel of a running job is to end it at the next boundary, its solves interrupted. -/
theorem applyCancel_running {d : DescEntry} (hd : findDesc s own = some d) (hrunning : e.stage = .running) {j : Job}
    (hj : findJob s target = some j) : DoneAs (applyCancel s own target) own (okResult d 0)
      ∧ findJob (applyCancel s own target) target = some (cancelledJob j) := by
  have hweir : ¬ e.stage.inWeir = true := by rw [hrunning]; exact Bool.false_ne_true
  have hruns : (e.stage == .running && (findJob s target).isSome) = true := by simp [hrunning, hj]
  rw [applyCancel_of_some h, if_neg hweir, if_pos hruns, findJob_congr (weirFrame_finish ..).jobs]
  have hreplays : SameReplays s (modJob (cancelMarked s own target e) target cancelledJob) :=
    sameReplays_cancelMarked s own target e
  exact ⟨(standsAt_finish_ok hd hreplays 0).stage,
    findJob_modJob (cancelMarked s own target e) target cancelledJob j hj (interruptSolves_ref j)⟩

end Cancel

/-! ## FENCE (R340) -/

theorem exec_fence {s : State} (hs : Live s) {r : RingId} {d : DescEntry} (hd : beginable s r = some d) {mask : W64}
    (hbody : d.desc.body = .fence mask) :
    exec (.fence r) s = .next (if fenceOpen s d mask then settleAll (finish (beginExec s d) d.ref .ok 0) else s) := by
  have harm : exec (.fence r) s = execFence r s := rfl
  rw [harm, execFence, live_of_hub hs]
  simp only [hd, hbody]

/-- A fence that nothing holds completes `OK`, and the jobs and rings stay. -/
theorem openFence_completes {s : State} {d : DescEntry} (hd : findDesc s d.ref = some d) :
    DoneAs (settleAll (finish (beginExec s d) d.ref .ok 0)) d.ref (okResult d 0)
      ∧ WeirFrame s (settleAll (finish (beginExec s d) d.ref .ok 0)) := by
  have hreplays : SameReplays s (beginExec s d) :=
    sameReplays_modDesc (busyNow (traceDesc s 2 d 0 0)) d.ref (f := begunEntry) fun _ => ⟨rfl, rfl⟩
  exact ⟨(standsAt_settleAll Stage.noConfusion Stage.noConfusion (standsAt_finish_ok hd hreplays 0)).stage,
    ((weirFrame_beginExec s d).trans (weirFrame_finish ..)).trans (weirFrame_settleAll _)⟩

/-! ## The statement -/

/-- Settles O30: a run by the readiness that its admission settles, a cancel by where its target stands, a fence by what it
waits for. -/
theorem runsFencesAndCancels : Obligations.RunsFencesAndCancels := by
  unfold Obligations.RunsFencesAndCancels
  refine ⟨fun s r i d hs hhalt hd hentered => ?_, fun s r d mask hs hd hfound hbody => ?fence⟩
  · refine ⟨fun pid m g ss w tok a seed res len hbody => ?run, fun ring index hbody x hx hne => ?cancel⟩
    case run =>
      have hexec := exec_planRun hbody hs hd hentered
      exact ⟨fun htok hfence hfusion => ⟨_, hexec, admitRun_ready hbody hd htok hfence hfusion⟩,
        fun htok hmatched hahead => ⟨_, hexec, admitRun_waits hbody hd htok hmatched hahead⟩⟩
    case cancel =>
      have hexec := exec_cancel hs hhalt hd hentered hbody hx
      exact ⟨fun hnone => ⟨_, hexec, applyCancel_without_target hd hnone⟩,
        fun e he hweir => ⟨_, hexec, applyCancel_inWeir he hd hne hweir⟩,
        fun e j he hrunning hj => ⟨_, hexec, applyCancel_running he hd hrunning hj⟩⟩
  case fence =>
    have hexec := exec_fence hs hd hbody
    refine ⟨fun hopen => ?_, fun hclosed => hexec.trans (congrArg _ (if_neg (Bool.eq_false_iff.mp hclosed)))⟩
    obtain ⟨hdone, hframe⟩ := openFence_completes hfound
    exact ⟨_, hexec.trans (congrArg _ (if_pos hopen)), hdone, hframe.jobs, hframe.rings⟩

end Sys2Proof.Machine

/-! # Who hands a trajectory over (O60)

`handOff` alone adds a hand-off to the motion controllers, and only a reset (`freshHub`) takes them all away. Every other
function of the model leaves `motion.trajs` as it was: one frame lemma for each, a caller's after those of the functions that
it calls. In such a proof `(rfl)` and `clear_value` keep the kernel from evaluating a large argument of the function. -/

namespace Sys2Proof.Machine

open Sys2Proof

/-! ## Folds, branches and options

A function of the model that folds over a list, or takes one branch of two, keeps the hand-offs when its parts do. -/

@[simp] theorem foldl_trajs {α : Type} {f : State → α → State} (hf : ∀ s a, (f s a).motion.trajs = s.motion.trajs)
    (l : List α) (s : State) : (l.foldl f s).motion.trajs = s.motion.trajs :=
  List.foldlRecOn (motive := fun t : State => t.motion.trajs = s.motion.trajs) l f rfl fun t ht a _ => (hf t a).trans ht

@[simp] theorem foldl_fst_trajs {α β : Type} {f : State × β → α → State × β}
    (hf : ∀ w a, (f w a).1.motion.trajs = w.1.motion.trajs) (l : List α) (w : State × β) :
    (l.foldl f w).1.motion.trajs = w.1.motion.trajs :=
  List.foldlRecOn (motive := fun t : State × β => t.1.motion.trajs = w.1.motion.trajs) l f rfl
    fun t ht a _ => (hf t a).trans ht

@[simp] theorem ite_trajs (p : Prop) [Decidable p] (a b : State) :
    (if p then a else b).motion.trajs = if p then a.motion.trajs else b.motion.trajs := apply_ite (·.motion.trajs) p a b

@[simp] theorem ite_fst_trajs {β : Type} (p : Prop) [Decidable p] (a b : State × β) :
    (if p then a else b).1.motion.trajs = if p then a.1.motion.trajs else b.1.motion.trajs :=
  apply_ite (·.1.motion.trajs) p a b

@[simp] theorem map_getD_trajs {α : Type} {s t : State} {f : α → State} (hf : ∀ a, (f a).motion.trajs = s.motion.trajs)
    (ht : t.motion.trajs = s.motion.trajs) (o : Option α) :
    ((o.map f).getD t).motion.trajs = s.motion.trajs := by
  cases o with
  | none => exact ht
  | some a => exact hf a

/-! ## Operations -/

@[simp] theorem setPlaceRam_trajs (s pl r) : (setPlaceRam s pl r).motion.trajs = s.motion.trajs := by
  unfold setPlaceRam
  split <;> simp

@[simp] theorem placeWrite_trajs (s pl bs) : (placeWrite s pl bs).motion.trajs = s.motion.trajs := by simp [placeWrite]

@[simp] theorem storeAt_trajs (s base bs) : (storeAt s base bs).motion.trajs = s.motion.trajs := by simp [storeAt]

@[simp] theorem reqReturn_trajs (s req v) : (reqReturn s req v).motion.trajs = s.motion.trajs := by
  unfold reqReturn
  split <;> simp

@[simp] theorem hostDram_trajs (s h) : (hostDram s h).motion.trajs = s.motion.trajs := by simp [hostDram]

@[simp] theorem drainWaits_trajs (s) : (drainWaits s).motion.trajs = s.motion.trajs := by simp [drainWaits]

@[simp] theorem writeEntry_trajs (s r) : (writeEntry s r).motion.trajs = s.motion.trajs := by simp [writeEntry]

@[simp] theorem setRState_trajs (s r st) : (setRState s r st).motion.trajs = s.motion.trajs := by simp [setRState]

@[simp] theorem traceAdd_trajs (s kind r fl arg slot detail planId) :
    (traceAdd s kind r fl arg slot detail planId).motion.trajs = s.motion.trajs :=
  (rfl)

@[simp] theorem traceDesc_trajs (s kind d arg detail) :
    (traceDesc s kind d arg detail).motion.trajs = s.motion.trajs := by
  simp [traceDesc]

@[simp] theorem wakeLanterns_trajs (s ps) : (wakeLanterns s ps).motion.trajs = s.motion.trajs := by
  unfold wakeLanterns
  extract_lets cold s1
  split
  · rfl
  · have h : s1.motion.trajs = s.motion.trajs := foldl_trajs (fun _ _ => by rfl) cold s
    exact h

@[simp] theorem wakeJob_trajs (s d) : (wakeJob s d).motion.trajs = s.motion.trajs := by
  unfold wakeJob
  split <;> simp

@[simp] theorem wakeReady_trajs (s) : (wakeReady s).motion.trajs = s.motion.trajs := by simp [wakeReady]

@[simp] theorem settleReady_trajs (s d) : (settleReady s d).motion.trajs = s.motion.trajs := by
  unfold settleReady
  split <;> simp

@[simp] theorem settleAll_trajs (s) : (settleAll s).motion.trajs = s.motion.trajs := by simp [settleAll]

@[simp] theorem matchToken_trajs (b s d) : (matchToken b s d).motion.trajs = s.motion.trajs := by simp [matchToken]

@[simp] theorem matchWhere_trajs (s b p) : (matchWhere s b p).motion.trajs = s.motion.trajs := by simp [matchWhere]

@[simp] theorem matchWorld_trajs (s) : (matchWorld s).motion.trajs = s.motion.trajs := by simp [matchWorld]

@[simp] theorem matchGoal_trajs (s g) : (matchGoal s g).motion.trajs = s.motion.trajs := by simp [matchGoal]

@[simp] theorem matchSeeds_trajs (s n) : (matchSeeds s n).motion.trajs = s.motion.trajs := by simp [matchSeeds]

@[simp] theorem matchAfter_trajs (s r) : (matchAfter s r).motion.trajs = s.motion.trajs := by simp [matchAfter]

@[simp] theorem sendAbort_trajs (s img tag) : (sendAbort s img tag).motion.trajs = s.motion.trajs := by simp [sendAbort]

@[simp] theorem complete_trajs (s r res) : (complete s r res).motion.trajs = s.motion.trajs := by
  unfold complete
  split <;> simp

@[simp] theorem finish_trajs (s r st detail) : (finish s r st detail).motion.trajs = s.motion.trajs := by simp [finish]

/-! ## Events -/

@[simp] theorem emberThaw_trajs (s) : (emberThaw s).motion.trajs = s.motion.trajs := (rfl)

@[simp] theorem endJobs_trajs (s) : (endJobs s).motion.trajs = s.motion.trajs := by simp [endJobs]

@[simp] theorem keepGates_trajs (s) : (keepGates s).motion.trajs = s.motion.trajs := (rfl)

@[simp] theorem handleNow_trajs (s e) : (handleNow s e).motion.trajs = s.motion.trajs := by simp [handleNow]

@[simp] theorem queueOverflow_trajs (s) : (queueOverflow s).motion.trajs = s.motion.trajs := by simp [queueOverflow]

@[simp] theorem handlerArrive_trajs (s cls) :
    (handlerArrive s cls).motion.trajs = s.motion.trajs := by simp [handlerArrive]

theorem nextS1_trajs {s t : State} (h : nextS1 s = some t) : t.motion.trajs = s.motion.trajs := by
  rw [(nextS1_kept s t h).motion]

@[simp] theorem nextS1_getD_trajs (s : State) : ((nextS1 s).getD s).motion.trajs = s.motion.trajs := by
  cases h : nextS1 s with
  | none => rfl
  | some t => exact nextS1_trajs h

@[simp] theorem handlerDone_trajs (s) : (handlerDone s).motion.trajs = s.motion.trajs := by
  unfold handlerDone
  extract_lets f s0 s1
  split
  case h_1 t _ _ hs1 =>
    by_cases hr : f.state == .relight
    · simp [s1, hr] at hs1
    · exact nextS1_trajs (s := s0) (by simpa [s1, hr] using hs1)
  all_goals simp [s0]

@[simp] theorem respondS1_trajs (s cls) : (respondS1 s cls).motion.trajs = s.motion.trajs := by simp [respondS1]

@[simp] theorem raiseEv_trajs (s cls words spec) : (raiseEv s cls words spec).motion.trajs = s.motion.trajs := by
  simp [raiseEv]

@[simp] theorem failJob_trajs (s r cls) : (failJob s r cls).motion.trajs = s.motion.trajs := by simp [failJob]

@[simp] theorem setEpoch_trajs (s e teNs) : (setEpoch s e teNs).motion.trajs = s.motion.trajs := by simp [setEpoch]

/-! ## Cameras -/

@[simp] theorem camSet_trajs (s p c) : (camSet s p c).motion.trajs = s.motion.trajs := (rfl)

@[simp] theorem camMod_trajs (s p f) : (camMod s p f).motion.trajs = s.motion.trajs := by simp [camMod]

@[simp] theorem applyTap_trajs (s c ns xs) : (applyTap s c ns xs).motion.trajs = s.motion.trajs := by
  unfold applyTap
  split <;> simp

@[simp] theorem tapFrame_trajs (s f) : (tapFrame s f).motion.trajs = s.motion.trajs := by
  unfold tapFrame
  split <;> simp

@[simp] theorem pushSet_trajs (s f) : (pushSet s f).motion.trajs = s.motion.trajs := by simp [pushSet]

@[simp] theorem closeSet_trajs (s) : (closeSet s).motion.trajs = s.motion.trajs := by
  unfold closeSet
  split <;> simp

@[simp] theorem settleSet_trajs (s) : (settleSet s).motion.trajs = s.motion.trajs := by
  unfold settleSet
  split <;> simp

@[simp] theorem leaveSets_trajs (s p) : (leaveSets s p).motion.trajs = s.motion.trajs := by
  unfold leaveSets
  split <;> simp

@[simp] theorem dropFrames_trajs (s p) : (dropFrames s p).motion.trajs = s.motion.trajs := (rfl)

@[simp] theorem judge_trajs (s p) : (judge s p).motion.trajs = s.motion.trajs := by simp [judge]

@[simp] theorem joinFrame_trajs (s p ctr f) : (joinFrame s p ctr f).motion.trajs = s.motion.trajs := by
  unfold joinFrame
  dsimp only
  repeat' split
  all_goals simp

@[simp] theorem frameIn_trajs (s p whole f) : (frameIn s p whole f).motion.trajs = s.motion.trajs := by simp [frameIn]

/-! ## Spouts -/

@[simp] theorem chanSet_trajs (s ch v) : (chanSet s ch v).motion.trajs = s.motion.trajs := by
  cases ch <;> rfl

@[simp] theorem coreSignal_trajs (s) : (coreSignal s).motion.trajs = s.motion.trajs := (rfl)

@[simp] theorem glowSignal_trajs (s) : (glowSignal s).motion.trajs = s.motion.trajs := (rfl)

@[simp] theorem driverIrq_trajs (s enableBit) :
    (driverIrq s enableBit).motion.trajs = s.motion.trajs := by simp [driverIrq]

@[simp] theorem agentIrq_trajs (s enableBit) :
    (agentIrq s enableBit).motion.trajs = s.motion.trajs := by simp [agentIrq]

@[simp] theorem signalSet_trajs (s a) : (signalSet s a).motion.trajs = s.motion.trajs := by
  unfold signalSet
  split <;> simp

@[simp] theorem signalClear_trajs (s a) : (signalClear s a).motion.trajs = s.motion.trajs := by
  unfold signalClear
  split <;> simp

@[simp] theorem signalAck_trajs (s a) : (signalAck s a).motion.trajs = s.motion.trajs := by simp [signalAck]

@[simp] theorem chanRecvReset_trajs (s ch) :
    (chanRecvReset s ch).motion.trajs = s.motion.trajs := by simp [chanRecvReset]

@[simp] theorem chanSendReset_trajs (s ch) :
    (chanSendReset s ch).motion.trajs = s.motion.trajs := by simp [chanSendReset]

@[simp] theorem dropLocks_trajs (s held) : (dropLocks s held).motion.trajs = s.motion.trajs := (rfl)

@[simp] theorem releaseLocks_trajs (s req) :
    (releaseLocks s req).motion.trajs = s.motion.trajs := by simp [releaseLocks]

@[simp] theorem lockRead_trajs (s req n) : (lockRead s req n).1.motion.trajs = s.motion.trajs := by
  unfold lockRead
  split <;> rfl

@[simp] theorem lockWrite_trajs (s req n v) : (lockWrite s req n v).motion.trajs = s.motion.trajs := by simp [lockWrite]

@[simp] theorem hostDriverReset_trajs (s) :
    (hostDriverReset s).motion.trajs = s.motion.trajs := by simp [hostDriverReset]

@[simp] theorem hostAgentReset_trajs (s) : (hostAgentReset s).motion.trajs = s.motion.trajs := by simp [hostAgentReset]

@[simp] theorem glowPartyReset_trajs (s) : (glowPartyReset s).motion.trajs = s.motion.trajs := by simp [glowPartyReset]

@[simp] theorem partnerReset_trajs (s p) : (partnerReset s p).motion.trajs = s.motion.trajs := by simp [partnerReset]

@[simp] theorem chanBothReset_trajs (s ch) :
    (chanBothReset s ch).motion.trajs = s.motion.trajs := by simp [chanBothReset]

@[simp] theorem bothEndsReset_trajs (s p) : (bothEndsReset s p).motion.trajs = s.motion.trajs := by simp [bothEndsReset]

@[simp] theorem gateDiscard_trajs (s) : (gateDiscard s).motion.trajs = s.motion.trajs := by simp [gateDiscard]

@[simp] theorem gateCheck_trajs (s) : (gateCheck s).motion.trajs = s.motion.trajs := by simp [gateCheck]

@[simp] theorem bufWrite_trajs (s ch bs off) :
    (bufWrite s ch bs off).motion.trajs = s.motion.trajs := by simp [bufWrite]

@[simp] theorem sendPost_trajs (s ch) : (sendPost s ch).motion.trajs = s.motion.trajs := by
  unfold sendPost
  split <;> simp

@[simp] theorem recvWord_trajs (s ch w) : (recvWord s ch w).1.motion.trajs = s.motion.trajs := by simp [recvWord]

@[simp] theorem partDone_trajs (s ch) : (partDone s ch).motion.trajs = s.motion.trajs := by
  unfold partDone
  split <;> simp

@[simp] theorem ackWrite_trajs (s ch seq code) :
    (ackWrite s ch seq code).motion.trajs = s.motion.trajs := by simp [ackWrite]

@[simp] theorem putMessage_trajs (s ch m) : (putMessage s ch m).motion.trajs = s.motion.trajs := by
  unfold putMessage
  split <;> simp

@[simp] theorem statusClear_trajs (s ch w) : (statusClear s ch w).motion.trajs = s.motion.trajs := by simp [statusClear]

@[simp] theorem sendOn_trajs (s ch msg) : (sendOn s ch msg).motion.trajs = s.motion.trajs := by
  unfold sendOn
  dsimp only
  split
  · cases msg <;> simp
  · split <;> simp

@[simp] theorem refuseMessage_trajs (s ch m) : (refuseMessage s ch m).motion.trajs = s.motion.trajs := by
  unfold refuseMessage
  dsimp only
  split <;> simp

/-! ## Ember -/

@[simp] theorem flashFault_trajs (s) : (flashFault s).motion.trajs = s.motion.trajs := by simp [flashFault]

@[simp] theorem flushEnd_trajs (s) : (flushEnd s).motion.trajs = s.motion.trajs := by
  unfold flushEnd
  dsimp only
  split <;> simp

@[simp] theorem flushFailed_trajs (s) : (flushFailed s).motion.trajs = s.motion.trajs := by simp [flushFailed]

@[simp] theorem freezeOn_trajs (s) : (freezeOn s).motion.trajs = s.motion.trajs := by simp [freezeOn]

@[simp] theorem cursorWrite_trajs (s v) : (cursorWrite s v).motion.trajs = s.motion.trajs := (rfl)

/-! ## K-links -/

@[simp] theorem mapDue_trajs (s) : (mapDue s).motion.trajs = s.motion.trajs := (rfl)

@[simp] theorem kTrain_trajs (s p k) : (kTrain s p k).motion.trajs = s.motion.trajs := by simp [kTrain]

@[simp] theorem kRetrain_trajs (s p) : (kRetrain s p).motion.trajs = s.motion.trajs := by simp [kRetrain]

@[simp] theorem kFail_trajs (s p) : (kFail s p).motion.trajs = s.motion.trajs := by simp [kFail]

@[simp] theorem kEnable_trajs (on s p) : (kEnable on s p).motion.trajs = s.motion.trajs := by simp [kEnable]

@[simp] theorem klCtrlWrite_trajs (s v) : (klCtrlWrite s v).motion.trajs = s.motion.trajs := by simp [klCtrlWrite]

@[simp] theorem readExchange_trajs (s j slot) : (readExchange s j slot).motion.trajs = s.motion.trajs := by
  simp [readExchange]

@[simp] theorem failNowWhere_trajs (s cls p) : (failNowWhere s cls p).motion.trajs = s.motion.trajs := (rfl)

@[simp] theorem findAgain_trajs (s) : (findAgain s).motion.trajs = s.motion.trajs := (rfl)

@[simp] theorem takeWorldSet_trajs (s set) :
    (takeWorldSet s set).motion.trajs = s.motion.trajs := by simp [takeWorldSet]

/-! ## Motion ports -/

@[simp] theorem nodeSet_trajs (s i n) : (nodeSet s i n).motion.trajs = s.motion.trajs := (rfl)

@[simp] theorem tagFail_trajs (s) : (tagFail s).motion.trajs = s.motion.trajs := by simp [tagFail]

@[simp] theorem sendSetpoints_trajs (s port) : (sendSetpoints s port).motion.trajs = s.motion.trajs := by
  unfold sendSetpoints
  extract_lets mine inOrder
  refine (foldl_trajs (fun t ic => ?_) _ _).trans rfl
  split <;> simp

@[simp] theorem syncBack_trajs (s) : (syncBack s).motion.trajs = s.motion.trajs := by simp [syncBack]

@[simp] theorem takeHello_trajs (s f i c) : (takeHello s f i c).motion.trajs = s.motion.trajs := by simp [takeHello]

@[simp] theorem takeFrame_trajs (s node counter tagOk) {f : Fin 32 → NodeCfg → State}
    (hf : ∀ i c, (f i c).motion.trajs = s.motion.trajs) :
    (takeFrame s node counter tagOk f).motion.trajs = s.motion.trajs := by
  unfold takeFrame
  split <;> simp [hf]

/-! ## Security -/

@[simp] theorem extendEvent_trajs (s code) : (extendEvent s code).motion.trajs = s.motion.trajs := by simp [extendEvent]

@[simp] theorem svcAck_trajs (s code) : (svcAck s code).motion.trajs = s.motion.trajs := by simp [svcAck]

@[simp] theorem svcTake_trajs (s) {f : State → State} (hf : (f s).motion.trajs = s.motion.trajs) :
    (svcTake s f).motion.trajs = s.motion.trajs := by
  unfold svcTake
  split <;> simp [hf]

@[simp] theorem installSession_trajs (s secret) : (installSession s secret).motion.trajs = s.motion.trajs := by
  simp [installSession]

@[simp] theorem dropExchange_trajs (s) : (dropExchange s).motion.trajs = s.motion.trajs := (rfl)

/-! ## Power -/

@[simp] theorem assignMap_trajs (s) : (assignMap s).motion.trajs = s.motion.trajs := (rfl)

@[simp] theorem extendFuses_trajs (s) : (extendFuses s).motion.trajs = s.motion.trajs := by simp [extendFuses]

@[simp] theorem retire_trajs (s failed) : (retire s failed).motion.trajs = s.motion.trajs := by simp [retire]

@[simp] theorem clearWorld_trajs (s) : (clearWorld s).motion.trajs = s.motion.trajs := (rfl)

@[simp] theorem loseWorld_trajs (s) : (loseWorld s).motion.trajs = s.motion.trajs := by simp [loseWorld]

@[simp] theorem loseMemories_trajs (s restore) : (loseMemories s restore).motion.trajs = s.motion.trajs := (rfl)

@[simp] theorem freshLanterns_trajs (s) : (freshLanterns s).motion.trajs = s.motion.trajs := (rfl)

@[simp] theorem startHalt_trajs (s fail) : (startHalt s fail).motion.trajs = s.motion.trajs := by simp [startHalt]

@[simp] theorem emberBoot_trajs (s triggers) : (emberBoot s triggers).motion.trajs = s.motion.trajs := (rfl)

@[simp] theorem loadConfig_trajs (o s) : (loadConfig o s).motion.trajs = s.motion.trajs := by simp [loadConfig]

@[simp] theorem trainDies_trajs (o s) : (trainDies o s).motion.trajs = s.motion.trajs := by simp [trainDies]

@[simp] theorem startFinish_trajs (s reflectorOk) : (startFinish s reflectorOk).motion.trajs = s.motion.trajs := by
  unfold startFinish
  repeat' split
  all_goals simp

@[simp] theorem stepDone_trajs (s n) : (stepDone s n).motion.trajs = s.motion.trajs := (rfl)

@[simp] theorem startDies_trajs (o s) : (startDies o s).motion.trajs = s.motion.trajs := by simp [startDies]

@[simp] theorem startRun_trajs (o s) : (startRun o s).motion.trajs = s.motion.trajs := by simp [startRun]

@[simp] theorem startFrom3_trajs (o s) : (startFrom3 o s).motion.trajs = s.motion.trajs := by simp [startFrom3]

@[simp] theorem freeAll_trajs (s) : (freeAll s).motion.trajs = s.motion.trajs := by simp [freeAll]

@[simp] theorem failAssert_trajs (s) : (failAssert s).motion.trajs = s.motion.trajs := by simp [failAssert]

@[simp] theorem enterDoze_trajs (s) : (enterDoze s).motion.trajs = s.motion.trajs := (rfl)

@[simp] theorem dozeLeave_trajs (s) : (dozeLeave s).motion.trajs = s.motion.trajs := by simp [dozeLeave]

@[simp] theorem pwrCtrlWrite_trajs (s v) : (pwrCtrlWrite s v).motion.trajs = s.motion.trajs := by simp [pwrCtrlWrite]

@[simp] theorem enterPilot_trajs (s) : (enterPilot s).motion.trajs = s.motion.trajs := by simp [enterPilot]

@[simp] theorem leavePilot_trajs (s) : (leavePilot s).motion.trajs = s.motion.trajs := by simp [leavePilot]

@[simp] theorem resetBegin_trajs (s) : (resetBegin s).motion.trajs = s.motion.trajs := by simp [resetBegin]

@[simp] theorem pilotTimeLatch_trajs (s) : (pilotTimeLatch s).motion.trajs = s.motion.trajs := (rfl)

/-! ## Management -/

@[simp] theorem reconfigure_trajs (s) : (reconfigure s).motion.trajs = s.motion.trajs := (rfl)

@[simp] theorem restartImage_trajs (s imageOk flashOk digest) :
    (restartImage s imageOk flashOk digest).motion.trajs = s.motion.trajs := by
  simp [restartImage]

@[simp] theorem glowRestart_trajs (s imageOk flashOk digest) :
    (glowRestart s imageOk flashOk digest).motion.trajs = s.motion.trajs := by
  simp [glowRestart]

@[simp] theorem holdGlow_trajs (s) : (holdGlow s).motion.trajs = s.motion.trajs := by simp [holdGlow]

@[simp] theorem loadCtrlWrite_trajs (s v) : (loadCtrlWrite s v).motion.trajs = s.motion.trajs := by simp [loadCtrlWrite]

@[simp] theorem loadWinWrite_trajs (s off data) : (loadWinWrite s off data).motion.trajs = s.motion.trajs := by
  simp [loadWinWrite]

/-! ## Faults -/

@[simp] theorem unitEffect_trajs (s cls unit) : (unitEffect s cls unit).motion.trajs = s.motion.trajs := by
  unfold unitEffect
  repeat' split
  all_goals simp

@[simp] theorem admitRun_trajs (s d) : (admitRun s d).motion.trajs = s.motion.trajs := by
  unfold admitRun
  extract_lets s1 self s2 hit s3
  have hhit : ∀ t b, (hit t b).motion.trajs = t.motion.trajs := by
    intro t b
    unfold hit
    split <;> simp
  have hs3 : s3.motion.trajs = s.motion.trajs := by simp [s3, hhit, s2, s1]
  split <;> simp [hs3]

@[simp] theorem admitRuns_trajs (s) : (admitRuns s).motion.trajs = s.motion.trajs := by simp [admitRuns]

@[simp] theorem requeue_trajs (s d) : (requeue s d).motion.trajs = s.motion.trajs := by
  unfold requeue
  repeat' split
  all_goals simp

@[simp] theorem requeueAll_trajs (s) : (requeueAll s).motion.trajs = s.motion.trajs := by simp [requeueAll]

@[simp] theorem postEmptySeeds_trajs (s) : (postEmptySeeds s).motion.trajs = s.motion.trajs := by simp [postEmptySeeds]

@[simp] theorem excludeDies_trajs (s fail) : (excludeDies s fail).motion.trajs = s.motion.trajs := by simp [excludeDies]

@[simp] theorem relightDies_trajs (s o) : (relightDies s o).motion.trajs = s.motion.trajs := by simp [relightDies]

@[simp] theorem relightReady_trajs (s) : (relightReady s).motion.trajs = s.motion.trajs := by
  unfold relightReady
  extract_lets s1 pwr safety s2 s3
  have hs3 : s3.motion.trajs = s.motion.trajs := by simp [s3, s2, s1]
  split <;> simp [hs3]

@[simp] theorem keepShown_trajs (old s) : (keepShown old s).motion.trajs = s.motion.trajs := (rfl)

@[simp] theorem haltFail_trajs (old s fail) : (haltFail old s fail).motion.trajs = s.motion.trajs := by simp [haltFail]

@[simp] theorem relightTest_trajs (old s o) :
    (relightTest old s o).motion.trajs = s.motion.trajs := by simp [relightTest]

@[simp] theorem passDone_trajs (s p) : (passDone s p).motion.trajs = s.motion.trajs := by simp [passDone]

@[simp] theorem stopReleaseWrite_trajs (s) :
    (stopReleaseWrite s).motion.trajs = s.motion.trajs := by simp [stopReleaseWrite]

/-! ## Memory -/

@[simp] theorem setGroup_trajs (s a r) : (setGroup s a r).motion.trajs = s.motion.trajs := by
  unfold setGroup
  split <;> simp

@[simp] theorem wakeFor_trajs (s pl) : (wakeFor s pl).motion.trajs = s.motion.trajs := by
  unfold wakeFor
  split <;> simp

@[simp] theorem wakeRange_trajs (s pl n) : (wakeRange s pl n).motion.trajs = s.motion.trajs := by
  unfold wakeRange
  split <;> simp

@[simp] theorem retainedAccess_trajs (s r) :
    (retainedAccess s r).motion.trajs = s.motion.trajs := by simp [retainedAccess]

@[simp] theorem planPut_trajs (s r pl bs) : (planPut s r pl bs).motion.trajs = s.motion.trajs := by simp [planPut]

@[simp] theorem poolPut_trajs (s p a bs) : (poolPut s p a bs).motion.trajs = s.motion.trajs := by simp [poolPut]

@[simp] theorem failReq_trajs (s req cls) : (failReq s req cls).motion.trajs = s.motion.trajs := by
  unfold failReq
  split <;> simp

@[simp] theorem atomic_trajs (s req pl op x) : (atomic s req pl op x).motion.trajs = s.motion.trajs := by simp [atomic]

@[simp] theorem setCollide_trajs (s a) : (setCollide s a).motion.trajs = s.motion.trajs := by
  unfold setCollide
  split <;> simp

@[simp] theorem wordWrite_trajs (s p w be data) : (wordWrite s p w be data).motion.trajs = s.motion.trajs := by
  simp [wordWrite]

@[simp] theorem rillAlone_trajs (s p addr acc req) : (rillAlone s p addr acc req).motion.trajs = s.motion.trajs := by
  unfold rillAlone
  split <;> simp

@[simp] theorem settleRill_trajs (s p) : (settleRill s p).motion.trajs = s.motion.trajs := by simp [settleRill]

@[simp] theorem settlePlace_trajs (s a) : (settlePlace s a).motion.trajs = s.motion.trajs := by
  unfold settlePlace
  split <;> simp

@[simp] theorem settleSleep_trajs (s now) : (settleSleep s now).motion.trajs = s.motion.trajs := (rfl)

@[simp] theorem issue_trajs (s r cycle op) {f : State → State} (hf : ∀ t, (f t).motion.trajs = t.motion.trajs) :
    (issue s r cycle op f).motion.trajs = s.motion.trajs := by
  simp [issue, hf]

@[simp] theorem dmaIssue_trajs (s req acc) {f : State → State} (hf : ∀ t, (f t).motion.trajs = t.motion.trajs) :
    (dmaIssue s req acc f).motion.trajs = s.motion.trajs := by
  unfold dmaIssue
  split <;> simp [hf]

@[simp] theorem windowMiss_trajs (s r) : (windowMiss s r).motion.trajs = s.motion.trajs := by simp [windowMiss]

@[simp] theorem planFetch_trajs (s x pl ok latency) : (planFetch s x pl ok latency).motion.trajs = s.motion.trajs := by
  simp [planFetch]

@[simp] theorem fetchAwake_trajs (s x pl latency) : (fetchAwake s x pl latency).motion.trajs = s.motion.trajs := by
  simp [fetchAwake]

@[simp] theorem planStore_trajs (s x pl isDram until_) :
    (planStore s x pl isDram until_).motion.trajs = s.motion.trajs := by
  unfold planStore
  split <;> simp

@[simp] theorem deliverTo_trajs (f s l) : (deliverTo f s l).motion.trajs = s.motion.trajs := by simp [deliverTo]

@[simp] theorem deliverAll_trajs (s f) : (deliverAll s f).motion.trajs = s.motion.trajs := by simp [deliverAll]

@[simp] theorem unsupported_trajs (s) : (unsupported s).motion.trajs = s.motion.trajs := (rfl)

@[simp] theorem winAccess_trajs (s pl n write data) : (winAccess s pl n write data).motion.trajs = s.motion.trajs := by
  unfold winAccess
  split <;> simp

@[simp] theorem memWindow_trajs (s off size write data) :
    (memWindow s off size write data).motion.trajs = s.motion.trajs := by
  unfold memWindow
  repeat' split
  all_goals simp

@[simp] theorem rillTransfer_trajs (s x far) : (rillTransfer s x far).motion.trajs = s.motion.trajs := by
  unfold rillTransfer
  repeat' split
  all_goals simp

@[simp] theorem multicast_trajs (s job cycle mask addr pl) :
    (multicast s job cycle mask addr pl).motion.trajs = s.motion.trajs := by
  simp [multicast]

@[simp] theorem modRetain_trajs (s u f) : (modRetain s u f).motion.trajs = s.motion.trajs := by
  unfold modRetain
  split <;> simp

/-! ## World -/

@[simp] theorem brickFor_trajs (s count bx by_ bz) : (brickFor s count bx by_ bz).1.motion.trajs = s.motion.trajs := by
  unfold brickFor
  dsimp only
  split
  · rfl
  · split <;> simp

@[simp] theorem storeBricks_trajs (s r) : (storeBricks s r).motion.trajs = s.motion.trajs := by simp [storeBricks]

@[simp] theorem storeCoarse_trajs (s r) : (storeCoarse s r).motion.trajs = s.motion.trajs := by simp [storeCoarse]

@[simp] theorem stageStore_trajs (r s base bs) : (stageStore r s base bs).motion.trajs = s.motion.trajs := by
  simp [stageStore]

@[simp] theorem allocate_trajs (s count bs) :
    (allocate s count bs).1.motion.trajs = s.motion.trajs := by simp [allocate]

@[simp] theorem withWorld_trajs (s : State) (w : World) :
    ({ s with world := w } : State).motion.trajs = s.motion.trajs :=
  (rfl)

@[simp] theorem mergeEntry_trajs (r touched a x) : (mergeEntry r touched a x).1.motion.trajs = a.1.motion.trajs := by
  unfold mergeEntry
  extract_lets k b
  have h := brickFor_trajs a.1 (!touched.contains b) b.1 b.2.1 b.2.2
  split
  next hb =>
    rw [hb] at h
    exact h
  next hb =>
    rw [hb] at h
    exact (withWorld_trajs _ _).trans h

@[simp] theorem mergeInbox_trajs (s r touched entries) :
    (mergeInbox s r touched entries).1.motion.trajs = s.motion.trajs := by
  simp [mergeInbox]

@[simp] theorem assignHot_trajs (s r) : (assignHot s r).motion.trajs = s.motion.trajs := by simp [assignHot]

@[simp] theorem takeClusters_trajs (s r te clusters) :
    (takeClusters s r te clusters).motion.trajs = s.motion.trajs := by
  simp [takeClusters]

/-! ## Beacon -/

@[simp] theorem modCounts_trajs (s r f) : (modCounts s r f).motion.trajs = s.motion.trajs := by simp [modCounts]

@[simp] theorem noteBadIds_trajs (s j n) : (noteBadIds s j n).motion.trajs = s.motion.trajs := by simp [noteBadIds]

@[simp] theorem noteMismatch_trajs (j s e) :
    (noteMismatch j s e).motion.trajs = s.motion.trajs := by simp [noteMismatch]

@[simp] theorem addDups_trajs (s j n) : (addDups s j n).motion.trajs = s.motion.trajs := by simp [addDups]

@[simp] theorem storeRows_trajs (s p r c b) : (storeRows s p r c b).motion.trajs = s.motion.trajs := by simp [storeRows]

@[simp] theorem offerTo_trajs (s p j l r) : (offerTo s p j l r).motion.trajs = s.motion.trajs := by
  unfold offerTo
  dsimp only
  split <;> simp

@[simp] theorem pushOffer_trajs (s p r) : (pushOffer s p r).motion.trajs = s.motion.trajs := by simp [pushOffer]

@[simp] theorem drainOffers_trajs (p n s) : (drainOffers p n s).motion.trajs = s.motion.trajs := by
  induction n generalizing s with
  | zero => rfl
  | succ n ih =>
    unfold drainOffers
    split
    · rw [ih]
      simp
    · rfl

@[simp] theorem queueOffers_trajs (s p) : (queueOffers s p).motion.trajs = s.motion.trajs := by simp [queueOffers]

@[simp] theorem cycleOffers_trajs (s p cycles) : (cycleOffers s p cycles).motion.trajs = s.motion.trajs := by
  simp [cycleOffers]

@[simp] theorem flushOffers_trajs (s p) : (flushOffers s p).motion.trajs = s.motion.trajs := by simp [flushOffers]

@[simp] theorem closeEmpty_trajs (s p r) : (closeEmpty s p r).motion.trajs = s.motion.trajs := by
  unfold closeEmpty
  split <;> simp

@[simp] theorem opMergeLists_trajs (s p j l sources) :
    (opMergeLists s p j l sources).motion.trajs = s.motion.trajs := by
  unfold opMergeLists
  extract_lets c s0 k inputs m s0' s1
  have hs0 : s0.motion.trajs = s.motion.trajs := foldl_trajs (fun t n => by split <;> simp) _ s
  simp [s1, s0', hs0]

/-! ## Planning -/

@[simp] theorem countRange_trajs (s p n) : (countRange s p n).motion.trajs = s.motion.trajs := by
  unfold countRange
  repeat' split
  all_goals simp

@[simp] theorem opDrawSeeds_trajs (s j r m) :
    (opDrawSeeds s j r m).motion.trajs = s.motion.trajs := by simp [opDrawSeeds]

@[simp] theorem addCand_trajs (s j c) : (addCand s j c).motion.trajs = s.motion.trajs := by simp [addCand]

@[simp] theorem opGenerate_trajs (s p j r m l index) :
    (opGenerate s p j r m l index).motion.trajs = s.motion.trajs := by
  unfold opGenerate
  dsimp only
  repeat' split
  all_goals simp

@[simp] theorem modCand_trajs (s j p f) : (modCand s j p f).motion.trajs = s.motion.trajs := by simp [modCand]

@[simp] theorem opTorque_trajs (s j r m l index) : (opTorque s j r m l index).motion.trajs = s.motion.trajs := by
  simp [opTorque]

@[simp] theorem opQuery_trajs (s p j r m l index) : (opQuery s p j r m l index).motion.trajs = s.motion.trajs := by
  unfold opQuery
  split <;> simp

@[simp] theorem opScore_trajs (s p j r m l index) : (opScore s p j r m l index).motion.trajs = s.motion.trajs := by
  unfold opScore
  split <;> simp

@[simp] theorem opMeasure_trajs (s p j l k) : (opMeasure s p j l k).motion.trajs = s.motion.trajs := by
  unfold opMeasure
  split <;> simp

@[simp] theorem moveBlock_trajs (j s k) : (moveBlock j s k).motion.trajs = s.motion.trajs := by
  unfold moveBlock
  dsimp only
  split <;> simp

/-! ## Tensor stages -/

@[simp] theorem opAssemble_trajs (s p j r m k) : (opAssemble s p j r m k).motion.trajs = s.motion.trajs := by
  unfold opAssemble
  split <;> simp

@[simp] theorem opTsSetup_trajs (s p j r m w l k) : (opTsSetup s p j r m w l k).motion.trajs = s.motion.trajs := by
  unfold opTsSetup
  split <;> simp

@[simp] theorem settleSolves_trajs (s r all) : (settleSolves s r all).motion.trajs = s.motion.trajs := by
  unfold settleSolves
  repeat' split
  all_goals simp

@[simp] theorem opIterate_trajs (s p j r m w l k kind) :
    (opIterate s p j r m w l k kind).motion.trajs = s.motion.trajs := by
  unfold opIterate
  split <;> simp

@[simp] theorem startIk_trajs (s j n target x0) : (startIk s j n target x0).motion.trajs = s.motion.trajs := by
  simp [startIk]

/-! ## Routes -/

@[simp] theorem opRoutePass_trajs (s p j r) :
    (opRoutePass s p j r).motion.trajs = s.motion.trajs := by simp [opRoutePass]

@[simp] theorem opIkGoal_trajs (s j m) : (opIkGoal s j m).motion.trajs = s.motion.trajs := by
  unfold opIkGoal
  split <;> simp

@[simp] theorem opRouteEnds_trajs (s j r m) :
    (opRouteEnds s j r m).motion.trajs = s.motion.trajs := by simp [opRouteEnds]

@[simp] theorem opRouteExtract_trajs (s p j r) : (opRouteExtract s p j r).motion.trajs = s.motion.trajs := by
  unfold opRouteExtract
  split <;> simp

@[simp] theorem opRouteTargets_trajs (s j r m) : (opRouteTargets s j r m).motion.trajs = s.motion.trajs := by
  simp [opRouteTargets]

@[simp] theorem opRouteSeed_trajs (s j r m) :
    (opRouteSeed s j r m).motion.trajs = s.motion.trajs := by simp [opRouteSeed]

/-! ## Rings -/

@[simp] theorem ringOff_trajs (s r) : (ringOff s r).motion.trajs = s.motion.trajs := by simp [ringOff]

@[simp] theorem settleRing_trajs (s r) : (settleRing s r).motion.trajs = s.motion.trajs := by
  unfold settleRing
  dsimp only
  repeat' split
  all_goals simp

@[simp] theorem ringOverrun_trajs (s r) : (ringOverrun s r).motion.trajs = s.motion.trajs := by simp [ringOverrun]

@[simp] theorem takeEntry_trajs (s0 x) : (takeEntry s0 x).motion.trajs = s0.motion.trajs := by simp [takeEntry]

@[simp] theorem acceptOne_trajs (s x) : (acceptOne s x).motion.trajs = s.motion.trajs := by simp [acceptOne]

@[simp] theorem ownerDiffers_trajs (s r) : (ownerDiffers s r).motion.trajs = s.motion.trajs := by simp [ownerDiffers]

@[simp] theorem serveRing_trajs (s r prod descs) : (serveRing s r prod descs).motion.trajs = s.motion.trajs := by
  simp [serveRing]

@[simp] theorem replayRest_trajs (s r descs) :
    (replayRest s r descs).motion.trajs = s.motion.trajs := by simp [replayRest]

@[simp] theorem lostRest_trajs (s r) : (lostRest s r).motion.trajs = s.motion.trajs := by simp [lostRest]

@[simp] theorem pollRing_trajs (doorbell descs s r) : (pollRing doorbell descs s r).motion.trajs = s.motion.trajs := by
  unfold pollRing
  dsimp only
  split <;> simp

@[simp] theorem applyCancel_trajs (s own target) : (applyCancel s own target).motion.trajs = s.motion.trajs := by
  unfold applyCancel
  dsimp only
  repeat' split
  all_goals simp

@[simp] theorem admitCancel_trajs (s d ring index) : (admitCancel s d ring index).motion.trajs = s.motion.trajs := by
  unfold admitCancel
  split <;> simp

@[simp] theorem admitOne_trajs (s d) : (admitOne s d).motion.trajs = s.motion.trajs := by
  unfold admitOne
  repeat' split
  all_goals simp

@[simp] theorem admitAll_trajs (s) : (admitAll s).motion.trajs = s.motion.trajs :=
  foldl_trajs (fun t d => by split <;> simp) s.descs s

@[simp] theorem admitAt_trajs (s ring index isIt) : (admitAt s ring index isIt).motion.trajs = s.motion.trajs := by
  unfold admitAt
  split <;> simp

@[simp] theorem writeRecord_trajs (s d res) : (writeRecord s d res).motion.trajs = s.motion.trajs := by
  unfold writeRecord
  split <;> simp

@[simp] theorem afterRelease_trajs (s d) : (afterRelease s d).motion.trajs = s.motion.trajs := by simp [afterRelease]

@[simp] theorem retireEntry_trajs (s d) : (retireEntry s d).motion.trajs = s.motion.trajs := by simp [retireEntry]

@[simp] theorem released_trajs (s d res) : (released s d res).motion.trajs = s.motion.trajs := by simp [released]

@[simp] theorem releaseOne_trajs (s r) : (releaseOne s r).motion.trajs = s.motion.trajs := by
  unfold releaseOne
  split <;> simp

@[simp] theorem enableRing_trajs (s r replay) :
    (enableRing s r replay).motion.trajs = s.motion.trajs := by simp [enableRing]

@[simp] theorem disableRing_trajs (s r) : (disableRing s r).motion.trajs = s.motion.trajs := by
  unfold disableRing
  dsimp only
  split <;> simp

@[simp] theorem ringCtrlWrite_trajs (s r v replay) : (ringCtrlWrite s r v replay).motion.trajs = s.motion.trajs := by
  simp [ringCtrlWrite]

@[simp] theorem detach_trajs (s) : (detach s).motion.trajs = s.motion.trajs := by simp [detach]

@[simp] theorem releaseRing_trajs (n s r) : (releaseRing n s r).motion.trajs = s.motion.trajs := by
  induction n generalizing s with
  | zero => rfl
  | succ n ih => simp [releaseRing, ih]

@[simp] theorem holdRecord_trajs (s d) : (holdRecord s d).motion.trajs = s.motion.trajs := by simp [holdRecord]

@[simp] theorem ownAgain_trajs (doorbell s r) : (ownAgain doorbell s r).motion.trajs = s.motion.trajs := by
  unfold ownAgain
  dsimp only
  repeat' split
  all_goals simp

@[simp] theorem readRest_trajs (replay s r) : (readRest replay s r).motion.trajs = s.motion.trajs := by simp [readRest]

@[simp] theorem reattach_trajs (doorbell replay s) : (reattach doorbell replay s).motion.trajs = s.motion.trajs := by
  simp [reattach]

/-! ## Descriptors -/

@[simp] theorem runHead_trajs (s ring isIt) {f : State → DescEntry → State}
    (hf : ∀ t d, (f t d).motion.trajs = t.motion.trajs) :
    (runHead s ring isIt f).motion.trajs = s.motion.trajs := by
  unfold runHead
  split <;> simp [hf]

@[simp] theorem dstWrite_trajs (s r a bs) : (dstWrite s r a bs).motion.trajs = s.motion.trajs := by simp [dstWrite]

@[simp] theorem setGoal_trajs (s ref n g) : (setGoal s ref n g).motion.trajs = s.motion.trajs := by simp [setGoal]

@[simp] theorem goalSet_trajs (s d n rec_) : (goalSet s d n rec_).motion.trajs = s.motion.trajs := by
  unfold goalSet
  split <;> simp

@[simp] theorem loadSeeds_trajs (s ref cls mode new) :
    (loadSeeds s ref cls mode new).motion.trajs = s.motion.trajs := by
  simp [loadSeeds]

@[simp] theorem seedsLoad_trajs (s d len cls mode buf) :
    (seedsLoad s d len cls mode buf).motion.trajs = s.motion.trajs := by
  unfold seedsLoad
  split <;> simp

/-! ## Fusion -/

@[simp] theorem fuseSet_trajs (s j r set) : (fuseSet s j r set).motion.trajs = s.motion.trajs := by
  unfold fuseSet
  extract_lets vs touched again a now beyond w s1 b anew w1 w2 w3 w4
  have ha : a.1.motion.trajs = s.motion.trajs := by rw [allocate_trajs, allocate_trajs]
  have hb : b.1.motion.trajs = a.1.motion.trajs := mergeInbox_trajs ..
  rw [takeClusters_trajs]
  exact hb.trans ha

@[simp] theorem formDistances_trajs (s ref r) : (formDistances s ref r).motion.trajs = s.motion.trajs := by
  simp [formDistances]

@[simp] theorem writeMaster_trajs (s j r te x) : (writeMaster s j r te x).motion.trajs = s.motion.trajs := by
  unfold writeMaster
  dsimp only
  split <;> simp

@[simp] theorem writeMasters_trajs (s j r te) : (writeMasters s j r te).motion.trajs = s.motion.trajs := by
  simp [writeMasters]

@[simp] theorem runPhase_trajs (s ref k) : (runPhase s ref k).motion.trajs = s.motion.trajs := by
  unfold runPhase
  repeat' split
  all_goals simp

@[simp] theorem finishRun_trajs (s ref) : (finishRun s ref).motion.trajs = s.motion.trajs := by simp [finishRun]

@[simp] theorem fillProbes_trajs (s r set) : (fillProbes s r set).motion.trajs = s.motion.trajs := by simp [fillProbes]

@[simp] theorem judgeProbe_trajs (s j set p ctr ok) : (judgeProbe s j set p ctr ok).motion.trajs = s.motion.trajs := by
  simp [judgeProbe]

/-! ## Inference -/

@[simp] theorem modWick_trajs (s p w f) : (modWick s p w f).motion.trajs = s.motion.trajs := by simp [modWick]

@[simp] theorem opInputPixel_trajs (s p j r port decl index dst) :
    (opInputPixel s p j r port decl index dst).motion.trajs = s.motion.trajs := by
  unfold opInputPixel
  split <;> simp

@[simp] theorem opInputImage_trajs (s p j r port index dst n) :
    (opInputImage s p j r port index dst n).motion.trajs = s.motion.trajs := by
  unfold opInputImage
  split <;> simp

@[simp] theorem opChannelScale_trajs (s p w acc k bias) :
    (opChannelScale s p w acc k bias).motion.trajs = s.motion.trajs := by
  simp [opChannelScale]

@[simp] theorem putRow_trajs (s p w first xs) :
    (putRow s p w first xs).motion.trajs = s.motion.trajs := by simp [putRow]

@[simp] theorem putElems_trajs (s p w rd t xs) :
    (putElems s p w rd t xs).motion.trajs = s.motion.trajs := by simp [putElems]

@[simp] theorem opElementwise_trajs (s p w op t rd ra rb) :
    (opElementwise s p w op t rd ra rb).motion.trajs = s.motion.trajs := by
  simp [opElementwise]

@[simp] theorem opPool_trajs (s p w kind t first n rd) :
    (opPool s p w kind t first n rd).motion.trajs = s.motion.trajs := by
  simp [opPool]

@[simp] theorem opBilinear_trajs (s p w t first x y rd) :
    (opBilinear s p w t first x y rd).motion.trajs = s.motion.trajs := by
  simp [opBilinear]

@[simp] theorem opSumParts_trajs (s p w order first rd) :
    (opSumParts s p w order first rd).motion.trajs = s.motion.trajs := by
  simp [opSumParts]

@[simp] theorem opGraspPose_trajs (s j r m row) : (opGraspPose s j r m row).motion.trajs = s.motion.trajs := by
  unfold opGraspPose
  dsimp only
  repeat' split
  all_goals simp

@[simp] theorem opPostSolution_trajs (s j k) : (opPostSolution s j k).motion.trajs = s.motion.trajs := by
  unfold opPostSolution
  split <;> simp

@[simp] theorem opCarriedFit_trajs (s p j r m port maskAt n) :
    (opCarriedFit s p j r m port maskAt n).motion.trajs = s.motion.trajs := by
  unfold opCarriedFit
  dsimp only
  split <;> simp

@[simp] theorem opInboxBrick_trajs (s p w j first) : (opInboxBrick s p w j first).motion.trajs = s.motion.trajs := by
  simp [opInboxBrick]

@[simp] theorem opOffer_trajs (s p w d pos reg) : (opOffer s p w d pos reg).motion.trajs = s.motion.trajs := by
  unfold opOffer
  dsimp only
  split <;> simp

@[simp] theorem opOfferRaw_trajs (s p w first) : (opOfferRaw s p w first).motion.trajs = s.motion.trajs := by
  simp [opOfferRaw]

/-! ## Plans, weights and recipes -/

@[simp] theorem placeFill_trajs (s f) : (placeFill s f).motion.trajs = s.motion.trajs := by simp [placeFill]

@[simp] theorem fillRegions_trajs (s owner fs) : (fillRegions s owner fs).motion.trajs = s.motion.trajs := by
  simp [fillRegions]

@[simp] theorem stageRecipe_trajs (s) : (stageRecipe s).motion.trajs = s.motion.trajs := by
  unfold stageRecipe
  split <;> simp

@[simp] theorem installPlan_trajs (s img) : (installPlan s img).motion.trajs = s.motion.trajs := by simp [installPlan]

@[simp] theorem planLoad_trajs (s d b len pid) : (planLoad s d b len pid).motion.trajs = s.motion.trajs := by
  unfold planLoad
  split <;> simp

@[simp] theorem installWeights_trajs (s d bytes) : (installWeights s d bytes).motion.trajs = s.motion.trajs := by
  simp [installWeights]

@[simp] theorem weightsLoad_trajs (s d b len id) : (weightsLoad s d b len id).motion.trajs = s.motion.trajs := by
  unfold weightsLoad
  dsimp only
  repeat' split
  all_goals simp

@[simp] theorem recipeLoad_trajs (s d b len) : (recipeLoad s d b len).motion.trajs = s.motion.trajs := by
  unfold recipeLoad
  split <;> simp

@[simp] theorem dropParse_trajs (s ring) : (dropParse s ring).motion.trajs = s.motion.trajs := (rfl)

@[simp] theorem installRecipe_trajs (s w r) :
    (installRecipe s w r).motion.trajs = s.motion.trajs := by simp [installRecipe]

/-! ## Slot boundary -/

@[simp] theorem clearBytes_trajs (s) : (clearBytes s).motion.trajs = s.motion.trajs := by simp [clearBytes]

@[simp] theorem stopFusion_trajs (s) : (stopFusion s).motion.trajs = s.motion.trajs := by simp [stopFusion]

@[simp] theorem takeRecipe_trajs (s) : (takeRecipe s).motion.trajs = s.motion.trajs := by
  unfold takeRecipe
  split <;> simp

@[simp] theorem takeMap_trajs (s) : (takeMap s).motion.trajs = s.motion.trajs := by
  unfold takeMap
  split
  · rfl
  next m _ =>
    extract_lets changed s0 s1 s2 routes klink s3
    have hmap : s0 = ((lostPartners s m).map fun p => Fin.ofNat 11 (4 + p.val)).foldl releaseLocks s := List.foldl_map.symm
    have hs0 : s0.motion.trajs = s.motion.trajs := by rw [hmap, foldl_trajs releaseLocks_trajs]
    have hs1 : s1.motion.trajs = s0.motion.trajs := foldl_trajs bothEndsReset_trajs changed s0
    have hs3 : s3.motion.trajs = s1.motion.trajs := congrArg Motion.trajs (raise_motion ..)
    clear_value s3
    simp [hs3, hs1, hs0]

@[simp] theorem takeAborts_trajs (s) : (takeAborts s).motion.trajs = s.motion.trajs := by simp [takeAborts]

@[simp] theorem takeSpec_trajs (s) : (takeSpec s).motion.trajs = s.motion.trajs := (rfl)

@[simp] theorem freeLanterns_trajs (s j) : (freeLanterns s j).motion.trajs = s.motion.trajs :=
  foldl_trajs (fun _ _ => by rfl) _ s

@[simp] theorem endFusion_trajs (s j set) : (endFusion s j set).1.motion.trajs = s.motion.trajs := by
  unfold endFusion
  dsimp only
  split
  · rfl
  · split <;> simp

@[simp] theorem deliverCarried_trajs (s j) : (deliverCarried s j).1.motion.trajs = s.motion.trajs := by
  unfold deliverCarried
  split <;> simp

@[simp] theorem deliverInbox_trajs (s j) : (deliverInbox s j).1.motion.trajs = s.motion.trajs := by
  unfold deliverInbox
  split <;> simp

@[simp] theorem endInference_trajs (s j) : (endInference s j).1.motion.trajs = s.motion.trajs := by simp [endInference]

@[simp] theorem writeTensors_trajs (s r) : (writeTensors s r).motion.trajs = s.motion.trajs := by
  unfold writeTensors
  repeat' split
  all_goals simp

@[simp] theorem abortGroup_trajs (s j) : (abortGroup s j).motion.trajs = s.motion.trajs := by simp [abortGroup]

@[simp] theorem dropHubIn_trajs (s r) : (dropHubIn s r).motion.trajs = s.motion.trajs := (rfl)

@[simp] theorem finishJob_trajs (s j) : (finishJob s j).motion.trajs = s.motion.trajs := by
  unfold finishJob
  extract_lets st s1 k j0 s0 x y
  have hs0 : s0.motion.trajs = s.motion.trajs := by simp [s0, s1]
  have hx : x.1.motion.trajs = s.motion.trajs := by
    unfold x
    split <;> simp [hs0]
  simp [y, hx]

@[simp] theorem releaseAborted_trajs (s j) :
    (releaseAborted s j).motion.trajs = s.motion.trajs := by simp [releaseAborted]

@[simp] theorem takeSave_trajs (s own t j) : (takeSave s own t j).motion.trajs = s.motion.trajs := by
  unfold takeSave
  extract_lets k s1 s2
  split
  · rfl
  · exact foldl_trajs (fun _ _ => by rfl) _ s2

@[simp] theorem saveOne_trajs (s own) : (saveOne s own).motion.trajs = s.motion.trajs := by
  unfold saveOne
  repeat' split
  all_goals simp

@[simp] theorem endSave_trajs (s j) : (endSave s j).motion.trajs = s.motion.trajs := by
  unfold endSave
  split <;> simp

@[simp] theorem sendExchange_trajs (s j) : (sendExchange s j).motion.trajs = s.motion.trajs := by
  unfold sendExchange
  split <;> simp

@[simp] theorem stepJob_trajs (s j) : (stepJob s j).motion.trajs = s.motion.trajs := by simp [stepJob]

@[simp] theorem closeSlot_trajs (s j) : (closeSlot s j).motion.trajs = s.motion.trajs := by
  unfold closeSlot
  extract_lets s0 s1
  have hs0 : s0.motion.trajs = s.motion.trajs := foldl_trajs (fun t p => by simp) _ s
  have hs1 : s1.motion.trajs = s.motion.trajs := by simp [s1, hs0]
  clear_value s1
  exact (map_getD_trajs (fun j => sendExchange_trajs s1 j) rfl _).trans hs1

@[simp] theorem endSlots_trajs (s) : (endSlots s).motion.trajs = s.motion.trajs := by simp [endSlots]

@[simp] theorem idleApply_trajs (s) : (idleApply s).motion.trajs = s.motion.trajs := by simp [idleApply]

/-! ## Slot walk -/

@[simp] theorem refuseJob_trajs (s d r) : (refuseJob s d r).motion.trajs = s.motion.trajs := by
  unfold refuseJob
  repeat' split
  all_goals simp

@[simp] theorem beginFusion_trajs (s j) : (beginFusion s j).motion.trajs = s.motion.trajs := by
  unfold beginFusion
  split <;> simp

@[simp] theorem fillBasins_trajs (s j) :
    (fillBasins s j).motion.trajs = s.motion.trajs := foldl_trajs (fun _ _ => by rfl) _ s

@[simp] theorem coldCopies_trajs (s j) : (coldCopies s j).motion.trajs = s.motion.trajs := by simp [coldCopies]

@[simp] theorem dispatchJob_trajs (s d img spec) : (dispatchJob s d img spec).motion.trajs = s.motion.trajs := by
  unfold dispatchJob
  extract_lets j fl s1 s2 s3 s4 s5
  have hs5 : s5.motion.trajs = s4.motion.trajs := foldl_trajs (fun _ _ => by rfl) _ s4
  simp [hs5, s4, s3, s2, s1]

@[simp] theorem walkJob_trajs (w x) : (walkJob w x).1.motion.trajs = w.1.motion.trajs := by
  unfold walkJob
  extract_lets s
  split
  · rfl
  next d _ =>
    extract_lets spec
    generalize (!if x.2 = true then d.stage == Stage.ready else spec) = passed
    cases passed
    · rw [if_neg Bool.false_ne_true]
      split <;> simp [s]
    · rfl

@[simp] theorem walk_trajs (s) : (walk s).motion.trajs = s.motion.trajs := by
  unfold walk
  split
  · rfl
  · exact foldl_fst_trajs walkJob_trajs _ (s, [])

@[simp] theorem keepState_trajs (s j) : (keepState s j).motion.trajs = s.motion.trajs := by simp [keepState]

@[simp] theorem beginSlot_trajs (s j) : (beginSlot s j).motion.trajs = s.motion.trajs := by simp [beginSlot]

@[simp] theorem settlePower_trajs (s) : (settlePower s).motion.trajs = s.motion.trajs := (rfl)

@[simp] theorem noteBusy_trajs (s) : (noteBusy s).motion.trajs = s.motion.trajs := by simp [noteBusy]

@[simp] theorem stepGrid_trajs (s) : (stepGrid s).motion.trajs = s.motion.trajs := (rfl)

@[simp] theorem boundary_trajs (s) : (boundary s).motion.trajs = s.motion.trajs := by simp [boundary]

/-! ## Confirmation -/

@[simp] theorem settleRun_trajs (s) : (settleRun s).motion.trajs = s.motion.trajs := by
  unfold settleRun
  split <;> simp

@[simp] theorem abortSpec_trajs (s r j) : (abortSpec s r j).motion.trajs = s.motion.trajs := by simp [abortSpec]

@[simp] theorem confirmSpec_trajs (s r) : (confirmSpec s r).motion.trajs = s.motion.trajs := by simp [confirmSpec]

@[simp] theorem epochCheck_trajs (s job j) : (epochCheck s job j).motion.trajs = s.motion.trajs := by simp [epochCheck]

/-! ## Lanterns and wicks -/

@[simp] theorem stageFor_trajs (s p) {f : Job → Recipe → State} (hf : ∀ j r, (f j r).motion.trajs = s.motion.trajs) :
    (stageFor s p f).motion.trajs = s.motion.trajs := by
  unfold stageFor
  split
  · split <;> simp [hf]
  · rfl

@[simp] theorem robotFor_trajs (s p) {f : Job → Recipe → RobotModel → Nat → State}
    (hf : ∀ j r m l, (f j r m l).motion.trajs = s.motion.trajs) : (robotFor s p f).motion.trajs = s.motion.trajs :=
  stageFor_trajs s p fun j r => by split <;> simp [hf]

@[simp] theorem listFor_trajs (s p) {f : Job → Nat → State} (hf : ∀ j l, (f j l).motion.trajs = s.motion.trajs) :
    (listFor s p f).motion.trajs = s.motion.trajs := by
  unfold listFor
  split <;> simp [hf]

@[simp] theorem runStage_trajs (s p w op) : (runStage s p w op).motion.trajs = s.motion.trajs := by
  cases op <;> simp [runStage]

@[simp] theorem wickAtomic_trajs (s p w old op a ra rd) :
    (wickAtomic s p w old op a ra rd).motion.trajs = s.motion.trajs := by
  simp [wickAtomic]

@[simp] theorem gather_trajs (s p old w op) : (gather s p old w op).motion.trajs = s.motion.trajs := by
  unfold gather
  dsimp only
  repeat' split
  all_goals simp

@[simp] theorem meshSend_trajs (old p s e) : (meshSend old p s e).motion.trajs = s.motion.trajs := by
  unfold meshSend
  repeat' split
  all_goals simp

@[simp] theorem eccOp_trajs (p s e) : (eccOp p s e).motion.trajs = s.motion.trajs := by
  unfold eccOp
  split <;> simp

@[simp] theorem stageAsleep_trajs (s p w op) : (stageAsleep s p w op).motion.trajs = s.motion.trajs := by
  unfold stageAsleep
  extract_lets s1 s2
  have hs1 : s1.motion.trajs = s.motion.trajs := runStage_trajs ..
  have hs2 : s2.motion.trajs = s1.motion.trajs := (rfl)
  clear_value s2
  exact (map_getD_trajs (fun j : Job => retainedAccess_trajs s2 j.ref) rfl _).trans (hs2.trans hs1)

@[simp] theorem stageStep_trajs (p s e) : (stageStep p s e).motion.trajs = s.motion.trajs := by
  unfold stageStep
  split <;> simp

@[simp] theorem fabricCycle_trajs (p old ops s c) : (fabricCycle p old ops s c).motion.trajs = s.motion.trajs := by
  simp [fabricCycle]

@[simp] theorem wordCycle_trajs (p old ops s r c) : (wordCycle p old ops s r c).1.motion.trajs = s.motion.trajs := by
  unfold wordCycle
  dsimp only
  split
  · simp
  · split <;> simp

@[simp] theorem lineWord_trajs (p ops c s w) :
    (lineWord p ops c s w).motion.trajs = s.motion.trajs := by simp [lineWord]

@[simp] theorem setFlight_trajs (s id f) : (setFlight s id f).motion.trajs = s.motion.trajs := (rfl)

@[simp] theorem lineArrives_trajs (p old ops f k s c) :
    (lineArrives p old ops f k s c).motion.trajs = s.motion.trajs := by
  simp [lineArrives]

@[simp] theorem writeTakes_trajs (s p k w) : (writeTakes s p k w).motion.trajs = s.motion.trajs := by
  unfold writeTakes
  split <;> simp

@[simp] theorem lineTaken_trajs (p id k s) : (lineTaken p id k s).motion.trajs = s.motion.trajs := by
  unfold lineTaken
  split <;> simp

@[simp] theorem rillPop_trajs (s a) : (rillPop s a).motion.trajs = s.motion.trajs := by
  unfold rillPop
  split <;> simp

@[simp] theorem rillEnter_trajs (p cycle x r) : (rillEnter p cycle x r).1.motion.trajs = x.1.motion.trajs := by
  unfold rillEnter
  split <;> simp

@[simp] theorem rillQueue_trajs (s p old rill) : (rillQueue s p old rill).1.motion.trajs = s.motion.trajs := by
  simp [rillQueue]

@[simp] theorem rillCycle_trajs (p old ops x c) : (rillCycle p old ops x c).1.motion.trajs = x.1.motion.trajs := by
  unfold rillCycle
  dsimp only
  split
  · simp
  · split
    · simp
    · split
      · simp
      · split <;> simp
      · simp

@[simp] theorem rillAfter_trajs (p old stop s now hs) :
    (rillAfter p old stop s now hs).motion.trajs = s.motion.trajs := by
  induction hs generalizing s now with
  | nil => rfl
  | cons x t ih =>
    obtain ⟨start, h⟩ := x
    cases h with
    | word => simp [rillAfter, ih]
    | line id k =>
      have harrives := map_getD_trajs (s := s) (t := s) (fun f => lineArrives_trajs p old [] f k s (max now start)) rfl
      simp [rillAfter, ih, harrives]
    | fetch => simp [rillAfter, ih]

@[simp] theorem gatherAll_trajs (s p old ops load cycles rill) :
    (gatherAll s p old ops load cycles rill).motion.trajs = s.motion.trajs := by
  simp [gatherAll]

@[simp] theorem runWicks_trajs (s p cycles ops rill) :
    (runWicks s p cycles ops rill).motion.trajs = s.motion.trajs := by
  unfold runWicks
  extract_lets s0 old ctx sorted counted s1 load s2 s3 s4 took s5 s6
  have hs1 : s1.motion.trajs = s.motion.trajs := foldl_trajs (fun _ _ => by rfl) sorted s0
  have hs6 : s6.motion.trajs = s.motion.trajs := by simp [s6, s5, s4, s3, s2, hs1]
  clear_value s6
  rw [foldl_trajs (eccOp_trajs p)]
  exact (map_getD_trajs (fun j : Job => settleSolves_trajs s6 j.ref false) rfl _).trans hs6

@[simp] theorem contextLoad_trajs (s j p cycle target number) :
    (contextLoad s j p cycle target number).motion.trajs = s.motion.trajs := by
  simp [contextLoad]

/-! ## Registers -/

@[simp] theorem clearRc_trajs (s off counted) : (clearRc s off counted).motion.trajs = s.motion.trajs := by
  unfold clearRc
  repeat' split
  all_goals simp

@[simp] theorem readWord0_trajs (s off counted) :
    (readWord0 s off counted).1.motion.trajs = s.motion.trajs := by simp [readWord0]

@[simp] theorem readWord2_trajs (s off) : (readWord2 s off).1.motion.trajs = s.motion.trajs := by simp [readWord2]

@[simp] theorem readWord_trajs (s bar off counted) : (readWord s bar off counted).1.motion.trajs = s.motion.trajs := by
  cases bar <;> simp [readWord]

@[simp] theorem busRead_trajs (s bar off size counted) :
    (busRead s bar off size counted).motion.trajs = s.motion.trajs := by
  unfold busRead
  dsimp only
  split
  · simp
  · split
    · simp
    · split <;> simp

@[simp] theorem poolModeWrite_trajs (s v) : (poolModeWrite s v).motion.trajs = s.motion.trajs := (rfl)

@[simp] theorem gridWrite_trajs (s v) : (gridWrite s v).motion.trajs = s.motion.trajs := by simp [gridWrite]

@[simp] theorem specWrite_trajs (s v) : (specWrite s v).motion.trajs = s.motion.trajs := (rfl)

@[simp] theorem ringWrite_trajs (s r off v) : (ringWrite s r off v).motion.trajs = s.motion.trajs := by simp [ringWrite]

@[simp] theorem pollWrite_trajs (s v) : (pollWrite s v).motion.trajs = s.motion.trajs := by simp [pollWrite]

@[simp] theorem blockBase_trajs (s off v) : (blockBase s off v).motion.trajs = s.motion.trajs := by
  unfold blockBase
  repeat' split
  all_goals simp

@[simp] theorem prioWrite_trajs (s r v) : (prioWrite s r v).motion.trajs = s.motion.trajs := (rfl)

@[simp] theorem sluiceWrite_trajs (s off v) : (sluiceWrite s off v).motion.trajs = s.motion.trajs := by
  unfold sluiceWrite
  repeat' split
  all_goals simp

@[simp] theorem globalWrite_trajs (s off v) : (globalWrite s off v).motion.trajs = s.motion.trajs := by
  unfold globalWrite
  split <;> simp

@[simp] theorem collideClear_trajs (s off v) : (collideClear s off v).motion.trajs = s.motion.trajs := by
  unfold collideClear
  repeat' split
  all_goals simp

@[simp] theorem memRegWrite_trajs (s off v) : (memRegWrite s off v).motion.trajs = s.motion.trajs := by
  unfold memRegWrite
  repeat' split
  all_goals simp

@[simp] theorem freezeWrite_trajs (s on) : (freezeWrite s on).motion.trajs = s.motion.trajs := by simp [freezeWrite]

@[simp] theorem emberRegWrite_trajs (s off v) : (emberRegWrite s off v).motion.trajs = s.motion.trajs := by
  unfold emberRegWrite
  split <;> simp

@[simp] theorem senderWrite_trajs (s ch off v) : (senderWrite s ch off v).motion.trajs = s.motion.trajs := by
  simp [senderWrite]

@[simp] theorem receiverWrite_trajs (s ch off v) : (receiverWrite s ch off v).motion.trajs = s.motion.trajs := by
  simp [receiverWrite]

@[simp] theorem spoutCfgWrite_trajs (s v) : (spoutCfgWrite s v).motion.trajs = s.motion.trajs := by simp [spoutCfgWrite]

@[simp] theorem spoutBlockWrite_trajs (s off v) : (spoutBlockWrite s off v).motion.trajs = s.motion.trajs := by
  simp [spoutBlockWrite]

@[simp] theorem writeWord0_trajs (s off v) : (writeWord0 s off v).motion.trajs = s.motion.trajs := by simp [writeWord0]

@[simp] theorem writeWord2_trajs (s off v) : (writeWord2 s off v).motion.trajs = s.motion.trajs := by simp [writeWord2]

@[simp] theorem writeWord_trajs (s bar off v) : (writeWord s bar off v).motion.trajs = s.motion.trajs := by
  unfold writeWord
  split <;> simp

@[simp] theorem headerFirst_trajs (s) : (headerFirst s).motion.trajs = s.motion.trajs := by simp [headerFirst]

@[simp] theorem busWrite_trajs (s bar off size data) :
    (busWrite s bar off size data).motion.trajs = s.motion.trajs := by
  unfold busWrite
  repeat' split
  all_goals simp

@[simp] theorem setW1c_setSender_trajs (s ch sets) : (setW1c.setSender s ch sets).motion.trajs = s.motion.trajs :=
  chanSet_trajs ..

@[simp] theorem setW1c_trajs (s bar off sets) : (setW1c s bar off sets).motion.trajs = s.motion.trajs := by
  unfold setW1c
  repeat' split
  all_goals simp

@[simp] theorem setBits_trajs (s bar off size sets) : (setBits s bar off size sets).motion.trajs = s.motion.trajs := by
  unfold setBits
  split <;> simp

/-- The hand-offs of a state are those of another, or a start-up has cleared them. -/
def NoHandOff (s t : State) : Prop := t.motion.trajs = s.motion.trajs ∨ t.motion.trajs = []

/-- Whatever state the outcome leads to, no hand-off has led there. -/
def HandsNothing (s : State) (o : Out) : Prop := ∀ t, o = .next t → NoHandOff s t

@[simp] theorem handsNothing_next {s t : State} (h : NoHandOff s t) : HandsNothing s (.next t) := by
  rintro u ⟨⟩
  exact h

@[simp] theorem noHandOff_of_trajs {s t : State} (h : t.motion.trajs = s.motion.trajs) : NoHandOff s t := .inl h

@[simp] theorem noHandOff_ite {s t u : State} {p : Prop} [Decidable p] (ht : NoHandOff s t) (hu : NoHandOff s u) :
    NoHandOff s (if p then t else u) := by
  split
  · exact ht
  · exact hu

/-! ### The guards of a command

Where a guard does not admit the command, the state stays as it was. -/

section Wrappers
variable {s : State} {f : State → State} (hf : NoHandOff s (f s))
include hf

@[simp] theorem handsNothing_live : HandsNothing s (live s f) := handsNothing_next (noHandOff_ite hf (.inl rfl))

@[simp] theorem handsNothing_busLive : HandsNothing s (busLive s f) := handsNothing_next (noHandOff_ite hf (.inl rfl))

@[simp] theorem handsNothing_pilotLive :
    HandsNothing s (pilotLive s f) := handsNothing_next (noHandOff_ite hf (.inl rfl))

@[simp] theorem handsNothing_serve : HandsNothing s (serve s f) := handsNothing_live (noHandOff_ite hf (.inl rfl))

@[simp] theorem handsNothing_viaBus (host : Bool) : HandsNothing s (viaBus host s f) := by
  cases host
  · exact handsNothing_live hf
  · exact handsNothing_busLive hf

end Wrappers

/-! ### Start-ups -/

theorem restart_noHandOff {s t : State} (o : StartupObs) (h : t.motion.trajs = s.motion.trajs) :
    NoHandOff s (restart o t) := by
  refine noHandOff_ite (.inl h) (.inr ?_)
  exact startFrom3_trajs ..

theorem failDeassert_noHandOff {s t : State} (o : StartupObs) (h : t.motion.trajs = s.motion.trajs) :
    NoHandOff s (failDeassert o t) := by
  refine noHandOff_ite (.inl ?_) (noHandOff_ite (.inl h) (restart_noHandOff o h))
  simp [h]

theorem failGone_noHandOff {s t : State} (o : StartupObs) (h : t.motion.trajs = s.motion.trajs) :
    NoHandOff s (failGone o t) :=
  noHandOff_ite (failDeassert_noHandOff o h) (.inl h)

/-! ### Cameras -/

@[simp] theorem execStartOfFrame_handsNothing (port timeNs s) : HandsNothing s (execStartOfFrame port timeNs s) := by
  unfold execStartOfFrame
  apply handsNothing_live
  repeat' split
  all_goals simp

@[simp] theorem execFrameReceived_handsNothing (port frame s) : HandsNothing s (execFrameReceived port frame s) := by
  unfold execFrameReceived
  apply handsNothing_live
  split <;> simp

@[simp] theorem execSetTimeout_handsNothing (s) : HandsNothing s (execSetTimeout s) := by simp [execSetTimeout]

@[simp] theorem execCamDetached_handsNothing (port kind s) : HandsNothing s (execCamDetached port kind s) := by
  simp [execCamDetached]

@[simp] theorem execI3cInBandEvent_handsNothing (bus hotJoin s) :
    HandsNothing s (execI3cInBandEvent bus hotJoin s) := by
  simp [execI3cInBandEvent]

@[simp] theorem execCameraDiscovered_handsNothing (port bus provId s) :
    HandsNothing s (execCameraDiscovered port bus provId s) := by
  simp [execCameraDiscovered]

@[simp] theorem execCameraConfigured_handsNothing (port ok s) : HandsNothing s (execCameraConfigured port ok s) := by
  simp [execCameraConfigured]

/-! ### Spouts -/

@[simp] theorem execSpoutSend_handsNothing (ch clear msg s) : HandsNothing s (execSpoutSend ch clear msg s) := by
  simp [execSpoutSend]

@[simp] theorem execGateLockoutEnd_handsNothing (s) :
    HandsNothing s (execGateLockoutEnd s) := by simp [execGateLockoutEnd]

@[simp] theorem execSpoutReceive_handsNothing (ch word s) : HandsNothing s (execSpoutReceive ch word s) := by
  simp [execSpoutReceive]

@[simp] theorem execSpoutAck_handsNothing (ch seq code s) : HandsNothing s (execSpoutAck ch seq code s) := by
  simp [execSpoutAck]

@[simp] theorem execDriverReset_handsNothing (s) : HandsNothing s (execDriverReset s) := by simp [execDriverReset]

@[simp] theorem execAgentReset_handsNothing (s) : HandsNothing s (execAgentReset s) := by simp [execAgentReset]

@[simp] theorem execPartnerResetReport_handsNothing (partner s) :
    HandsNothing s (execPartnerResetReport partner s) := by
  simp [execPartnerResetReport]

@[simp] theorem execLockRead_handsNothing (req lock s) :
    HandsNothing s (execLockRead req lock s) := by simp [execLockRead]

@[simp] theorem execLockWrite_handsNothing (req lock value s) : HandsNothing s (execLockWrite req lock value s) := by
  simp [execLockWrite]

/-! ### Ember -/

@[simp] theorem execEmberWriteComplete_handsNothing (s) : HandsNothing s (execEmberWriteComplete s) := by
  simp [execEmberWriteComplete]

@[simp] theorem execEmberFlush_handsNothing (s) : HandsNothing s (execEmberFlush s) := by simp [execEmberFlush]

@[simp] theorem execEmberFlushComplete_handsNothing (ok s) : HandsNothing s (execEmberFlushComplete ok s) := by
  simp [execEmberFlushComplete]

@[simp] theorem execEmberFreeze_handsNothing (s) : HandsNothing s (execEmberFreeze s) := by simp [execEmberFreeze]

@[simp] theorem execEmberUnfreeze_handsNothing (cause s) : HandsNothing s (execEmberUnfreeze cause s) := by
  simp [execEmberUnfreeze]

@[simp] theorem execEmberCursorWrite_handsNothing (value s) : HandsNothing s (execEmberCursorWrite value s) := by
  simp [execEmberCursorWrite]

@[simp] theorem execEmberFillComplete_handsNothing (s) : HandsNothing s (execEmberFillComplete s) := by
  simp [execEmberFillComplete]

/-! ### K-links -/

@[simp] theorem execKlPortEnable_handsNothing (value s) : HandsNothing s (execKlPortEnable value s) := by
  simp [execKlPortEnable]

@[simp] theorem execKlinkTrained_handsNothing (port s) : HandsNothing s (execKlinkTrained port s) := by
  simp [execKlinkTrained]

@[simp] theorem execKlinkTrainTimeout_handsNothing (port s) : HandsNothing s (execKlinkTrainTimeout port s) := by
  simp [execKlinkTrainTimeout]

@[simp] theorem execKlinkCertReceived_handsNothing (port chainOk ownerKey partner s) :
    HandsNothing s (execKlinkCertReceived port chainOk ownerKey partner s) := by
  simp [execKlinkCertReceived]

@[simp] theorem execKlinkCertTimeout_handsNothing (port s) : HandsNothing s (execKlinkCertTimeout port s) := by
  simp [execKlinkCertTimeout]

@[simp] theorem execKlinkLockLoss_handsNothing (port s) : HandsNothing s (execKlinkLockLoss port s) := by
  simp [execKlinkLockLoss]

@[simp] theorem execKlinkPacketReceived_handsNothing (port packet s) :
    HandsNothing s (execKlinkPacketReceived port packet s) := by
  unfold execKlinkPacketReceived
  apply handsNothing_live
  repeat' split
  all_goals simp

@[simp] theorem execGroupMapIssue_handsNothing (map s) : HandsNothing s (execGroupMapIssue map s) := by
  simp [execGroupMapIssue]

@[simp] theorem execGroupMapReceived_handsNothing (map sigOk s) :
    HandsNothing s (execGroupMapReceived map sigOk s) := by
  simp [execGroupMapReceived]

@[simp] theorem execDeviceUnreachable_handsNothing (member s) : HandsNothing s (execDeviceUnreachable member s) := by
  simp [execDeviceUnreachable]

@[simp] theorem execKlinkExchangeReceived_handsNothing (tag data s) :
    HandsNothing s (execKlinkExchangeReceived tag data s) := by
  simp [execKlinkExchangeReceived]

@[simp] theorem execKlinkExchangeRead_handsNothing (job s) : HandsNothing s (execKlinkExchangeRead job s) := by
  unfold execKlinkExchangeRead
  apply handsNothing_live
  split <;> simp

@[simp] theorem execKlinkExchExpired_handsNothing (tag s) : HandsNothing s (execKlinkExchExpired tag s) := by
  simp [execKlinkExchExpired]

@[simp] theorem execGroupAbortReceived_handsNothing (planId tag s) :
    HandsNothing s (execGroupAbortReceived planId tag s) := by
  simp [execGroupAbortReceived]

@[simp] theorem execWorldMasterReceived_handsNothing (set s) : HandsNothing s (execWorldMasterReceived set s) := by
  simp [execWorldMasterReceived]

@[simp] theorem execPublishedTrajReceived_handsNothing (traj s) :
    HandsNothing s (execPublishedTrajReceived traj s) := by
  simp [execPublishedTrajReceived]

/-! ### Motion ports -/

@[simp] theorem execPtpFrameReceived_handsNothing (sync valid timeNs announced s) :
    HandsNothing s (execPtpFrameReceived sync valid timeNs announced s) := by
  simp [execPtpFrameReceived]

@[simp] theorem execTimeSyncLost_handsNothing (s) : HandsNothing s (execTimeSyncLost s) := by simp [execTimeSyncLost]

@[simp] theorem execQbvCycle_handsNothing (port s) : HandsNothing s (execQbvCycle port s) := by simp [execQbvCycle]

@[simp] theorem execHelloTransmit_handsNothing (s) : HandsNothing s (execHelloTransmit s) := by simp [execHelloTransmit]

@[simp] theorem execHelloReceived_handsNothing (frame tagOk s) : HandsNothing s (execHelloReceived frame tagOk s) := by
  unfold execHelloReceived
  apply handsNothing_live
  split <;> simp

@[simp] theorem execJointStateReceived_handsNothing (frame tagOk s) :
    HandsNothing s (execJointStateReceived frame tagOk s) := by
  unfold execJointStateReceived
  apply handsNothing_live
  split <;> simp

@[simp] theorem execDriveLost_handsNothing (node s) : HandsNothing s (execDriveLost node s) := by simp [execDriveLost]

@[simp] theorem execMotionPortLinkChange_handsNothing (port up s) :
    HandsNothing s (execMotionPortLinkChange port up s) := by
  simp [execMotionPortLinkChange]

/-! ### Security -/

@[simp] theorem execKeyExchange_handsNothing (msg s) : HandsNothing s (execKeyExchange msg s) := by
  unfold execKeyExchange
  apply handsNothing_live
  split <;> simp

@[simp] theorem execOwnerEnrol_handsNothing (publicKey sigOk readBackOk s) :
    HandsNothing s (execOwnerEnrol publicKey sigOk readBackOk s) := by
  unfold execOwnerEnrol
  apply handsNothing_live
  split <;> simp

@[simp] theorem execOwnerLock_handsNothing (sigOk s) : HandsNothing s (execOwnerLock sigOk s) := by
  unfold execOwnerLock
  apply handsNothing_live
  simp

@[simp] theorem execAttestationReport_handsNothing (nonce s) : HandsNothing s (execAttestationReport nonce s) := by
  unfold execAttestationReport
  apply handsNothing_live
  simp

@[simp] theorem execEmberClear_handsNothing (clearSeq signed sigOk s) :
    HandsNothing s (execEmberClear clearSeq signed sigOk s) := by
  unfold execEmberClear
  apply handsNothing_live
  simp

@[simp] theorem execDebugAttach_handsNothing (s) : HandsNothing s (execDebugAttach s) := by simp [execDebugAttach]

/-! ### Power -/

@[simp] theorem execPowerOn_handsNothing (obs s) : HandsNothing s (execPowerOn obs s) := by
  refine handsNothing_next (noHandOff_ite (.inl rfl) ?_)
  exact noHandOff_ite (.inr rfl) (.inr (startFrom3_trajs ..))

@[simp] theorem execDeviceReset_handsNothing (s) : HandsNothing s (execDeviceReset s) := by simp [execDeviceReset]

@[simp] theorem execPerstDeassert_handsNothing (obs s) : HandsNothing s (execPerstDeassert obs s) :=
  handsNothing_next (noHandOff_ite (restart_noHandOff obs rfl) (.inl rfl))

@[simp] theorem execPwrFailAssert_handsNothing (s) : HandsNothing s (execPwrFailAssert s) := by simp [execPwrFailAssert]

@[simp] theorem execPwrFailDeassert_handsNothing (obs s) : HandsNothing s (execPwrFailDeassert obs s) :=
  handsNothing_next (noHandOff_ite (failGone_noHandOff obs rfl) (.inl rfl))

@[simp] theorem execRailUndervolt_handsNothing (rail s) : HandsNothing s (execRailUndervolt rail s) := by
  simp [execRailUndervolt]

@[simp] theorem execRailRecovery_handsNothing (rail obs s) : HandsNothing s (execRailRecovery rail obs s) :=
  handsNothing_next (noHandOff_ite (failGone_noHandOff obs rfl) (.inl rfl))

@[simp] theorem execPwrGoodDeassert_handsNothing (s) : HandsNothing s (execPwrGoodDeassert s) := by
  simp [execPwrGoodDeassert]

@[simp] theorem execTempRead_handsNothing (readings s) : HandsNothing s (execTempRead readings s) := by
  unfold execTempRead
  apply handsNothing_pilotLive
  extract_lets read
  clear_value read
  split
  · simp
  · extract_lets hot v warn low trip s1 s2 s3 s4
    have hs4 : s4.motion.trajs = s.motion.trajs := by simp [s4, s3, s2, s1]
    clear_value s4
    apply noHandOff_of_trajs
    split <;> simp [hs4]

@[simp] theorem execDozeEntry_handsNothing (s) : HandsNothing s (execDozeEntry s) := by simp [execDozeEntry]

@[simp] theorem execDozeWake_handsNothing (cause s) : HandsNothing s (execDozeWake cause s) := by
  unfold execDozeWake
  apply handsNothing_live
  split <;> simp

@[simp] theorem execPilotArmWrite_handsNothing (value s) : HandsNothing s (execPilotArmWrite value s) := by
  simp [execPilotArmWrite]

@[simp] theorem execPilotEntry_handsNothing (s) : HandsNothing s (execPilotEntry s) := by simp [execPilotEntry]

@[simp] theorem execPilotWake_handsNothing (digestOk ticks obs s) :
    HandsNothing s (execPilotWake digestOk ticks obs s) := by
  refine handsNothing_next (noHandOff_ite ?_ (.inl rfl))
  exact noHandOff_ite (.inl (by simp)) (restart_noHandOff _ (by simp))

@[simp] theorem execPilotTimeRead_handsNothing (s) : HandsNothing s (execPilotTimeRead s) := by simp [execPilotTimeRead]

/-! ### Management -/

@[simp] theorem execGlowHeartbeat_handsNothing (word s) : HandsNothing s (execGlowHeartbeat word s) := by
  simp [execGlowHeartbeat]

@[simp] theorem execStartupHeartbeatTimeout_handsNothing (reflectorOk imageOk flashOk digest s) :
    HandsNothing s (execStartupHeartbeatTimeout reflectorOk imageOk flashOk digest s) := by
  simp [execStartupHeartbeatTimeout]

@[simp] theorem execGlowRestart_handsNothing (imageOk flashOk digest s) :
    HandsNothing s (execGlowRestart imageOk flashOk digest s) := by
  simp [execGlowRestart]

@[simp] theorem execGlowBusViolation_handsNothing (addr write s) :
    HandsNothing s (execGlowBusViolation addr write s) := by
  simp [execGlowBusViolation]

@[simp] theorem execGlowLoadMeasure_handsNothing (busyPercent s) : HandsNothing s (execGlowLoadMeasure busyPercent s) :=
  handsNothing_live (.inl rfl)

@[simp] theorem execGlowLoadWinWrite_handsNothing (offset data s) :
    HandsNothing s (execGlowLoadWinWrite offset data s) := by
  simp [execGlowLoadWinWrite]

@[simp] theorem execGlowLoadGo_handsNothing (ok digest s) : HandsNothing s (execGlowLoadGo ok digest s) := by
  simp [execGlowLoadGo]

/-! ### Faults -/

@[simp] theorem execFaultEvent_handsNothing (cls unit words job s) :
    HandsNothing s (execFaultEvent cls unit words job s) := by
  unfold execFaultEvent
  apply handsNothing_live
  repeat' split
  all_goals simp

@[simp] theorem execFaultHandlingComplete_handsNothing (s) : HandsNothing s (execFaultHandlingComplete s) := by
  unfold execFaultHandlingComplete
  apply handsNothing_live
  split <;> simp

@[simp] theorem execRelight_handsNothing (obs s) : HandsNothing s (execRelight obs s) := by simp [execRelight]

@[simp] theorem execLockstepMismatch_handsNothing (s) : HandsNothing s (execLockstepMismatch s) := by
  simp [execLockstepMismatch]

@[simp] theorem execStopRelease_handsNothing (s) : HandsNothing s (execStopRelease s) := by simp [execStopRelease]

@[simp] theorem execWorldStale_handsNothing (s) : HandsNothing s (execWorldStale s) := by simp [execWorldStale]

@[simp] theorem execSelftestSlice_handsNothing (l pass s) : HandsNothing s (execSelftestSlice l pass s) := by
  simp [execSelftestSlice]

@[simp] theorem execDiagOverdue_handsNothing (l s) : HandsNothing s (execDiagOverdue l s) := by simp [execDiagOverdue]

@[simp] theorem execDiagAdmitHold_handsNothing (l s) :
    HandsNothing s (execDiagAdmitHold l s) := by simp [execDiagAdmitHold]

@[simp] theorem execReflectorSelfCheck_handsNothing (ok s) : HandsNothing s (execReflectorSelfCheck ok s) := by
  simp [execReflectorSelfCheck]

/-! ### Memory -/

@[simp] theorem execAtomicOperation_handsNothing (req place op operand s) :
    HandsNothing s (execAtomicOperation req place op operand s) := by
  unfold execAtomicOperation
  apply handsNothing_serve
  split <;> simp

@[simp] theorem execRillTransfer_handsNothing (x far s) : HandsNothing s (execRillTransfer x far s) := by
  unfold execRillTransfer
  apply handsNothing_serve
  simp

@[simp] theorem execMulticast_handsNothing (job cycle mask addr src srcAddr s) :
    HandsNothing s (execMulticast job cycle mask addr src srcAddr s) := by
  refine handsNothing_serve (noHandOff_of_trajs (issue_trajs _ _ _ _ fun t => ?_))
  split <;> simp

@[simp] theorem execCisternRead_handsNothing (x s) : HandsNothing s (execCisternRead x s) := by
  unfold execCisternRead
  apply handsNothing_serve
  simp

@[simp] theorem execCisternWrite_handsNothing (x s) : HandsNothing s (execCisternWrite x s) := by
  unfold execCisternWrite
  apply handsNothing_serve
  simp

@[simp] theorem execDramRead_handsNothing (x s) : HandsNothing s (execDramRead x s) := by
  unfold execDramRead
  apply handsNothing_serve
  simp

@[simp] theorem execDramWrite_handsNothing (x s) : HandsNothing s (execDramWrite x s) := by
  unfold execDramWrite
  apply handsNothing_serve
  simp

@[simp] theorem execPlannedDelivery_handsNothing (id arrived s) :
    HandsNothing s (execPlannedDelivery id arrived s) := by
  unfold execPlannedDelivery
  apply handsNothing_serve
  split <;> simp

@[simp] theorem execMemorySleep_handsNothing (job cycle unit s) :
    HandsNothing s (execMemorySleep job cycle unit s) := by
  refine handsNothing_serve (noHandOff_of_trajs (issue_trajs _ _ _ _ fun t => ?_))
  split <;> simp

@[simp] theorem execMemoryWake_handsNothing (job cycle unit s) : HandsNothing s (execMemoryWake job cycle unit s) := by
  refine handsNothing_serve (noHandOff_of_trajs (issue_trajs _ _ _ _ fun t => ?_))
  split <;> simp

@[simp] theorem execMemoryWakeComplete_handsNothing (unit s) : HandsNothing s (execMemoryWakeComplete unit s) := by
  apply handsNothing_serve
  cases unit <;> exact .inl rfl

@[simp] theorem execDdrRefreshLimit_handsNothing (channel s) : HandsNothing s (execDdrRefreshLimit channel s) := by
  simp [execDdrRefreshLimit]

@[simp] theorem execD2dRetrain_handsNothing (die s) : HandsNothing s (execD2dRetrain die s) := by simp [execD2dRetrain]

@[simp] theorem execMemWindowAccess_handsNothing (offset size write data s) :
    HandsNothing s (execMemWindowAccess offset size write data s) := by
  simp [execMemWindowAccess]

@[simp] theorem execDebugAccess_handsNothing (place write data s) :
    HandsNothing s (execDebugAccess place write data s) := by
  simp [execDebugAccess]

/-! ### Planning -/

@[simp] theorem execBudgetGuard_handsNothing (job l s) : HandsNothing s (execBudgetGuard job l s) := by
  unfold execBudgetGuard
  apply handsNothing_serve
  split <;> simp

@[simp] theorem execMeasurementTransfer_handsNothing (job s) : HandsNothing s (execMeasurementTransfer job s) := by
  unfold execMeasurementTransfer
  apply handsNothing_serve
  split <;> simp

/-! ### Rings -/

@[simp] theorem execPoll_handsNothing (doorbell descs s) : HandsNothing s (execPoll doorbell descs s) := by
  unfold execPoll
  apply handsNothing_live
  split <;> simp

@[simp] theorem execPlanRun_handsNothing (ring index s) :
    HandsNothing s (execPlanRun ring index s) := by simp [execPlanRun]

@[simp] theorem execCancel_handsNothing (ring index s) :
    HandsNothing s (execCancel ring index s) := by simp [execCancel]

@[simp] theorem execRecordRelease_handsNothing (ring s) : HandsNothing s (execRecordRelease ring s) := by
  simp [execRecordRelease]

@[simp] theorem execShadowHeaderRefresh_handsNothing (s) : HandsNothing s (execShadowHeaderRefresh s) := by
  simp [execShadowHeaderRefresh]

@[simp] theorem execRingEnable_handsNothing (ring value replay s) :
    HandsNothing s (execRingEnable ring value replay s) := by
  simp [execRingEnable]

@[simp] theorem execRingDisable_handsNothing (ring value s) : HandsNothing s (execRingDisable ring value s) := by
  simp [execRingDisable]

@[simp] theorem execDeviceDetach_handsNothing (cause s) : HandsNothing s (execDeviceDetach cause s) := by
  simp [execDeviceDetach]

@[simp] theorem execDeviceReattach_handsNothing (doorbell replay s) :
    HandsNothing s (execDeviceReattach doorbell replay s) := by
  simp [execDeviceReattach]

/-! ### Descriptors -/

@[simp] theorem execGoalSet_handsNothing (ring record s) : HandsNothing s (execGoalSet ring record s) := by
  refine handsNothing_live (noHandOff_of_trajs (runHead_trajs _ _ _ fun t d => ?_))
  split <;> simp

@[simp] theorem execSeedsLoad_handsNothing (ring buffer s) : HandsNothing s (execSeedsLoad ring buffer s) := by
  refine handsNothing_live (noHandOff_of_trajs (runHead_trajs _ _ _ fun t d => ?_))
  split <;> simp

@[simp] theorem execQuery_handsNothing (ring s) : HandsNothing s (execQuery ring s) := by
  refine handsNothing_live (noHandOff_of_trajs (runHead_trajs _ _ _ fun t d => ?_))
  split <;> simp

@[simp] theorem execFence_handsNothing (ring s) : HandsNothing s (execFence ring s) := by
  unfold execFence
  apply handsNothing_live
  repeat' split
  all_goals simp

@[simp] theorem execContextSave_handsNothing (ring s) : HandsNothing s (execContextSave ring s) := by
  unfold execContextSave
  apply handsNothing_live
  split
  · split
    · exact .inl rfl
    · exact .inl rfl
  · exact .inl rfl

@[simp] theorem execContextSaveComplete_handsNothing (ring s) : HandsNothing s (execContextSaveComplete ring s) := by
  unfold execContextSaveComplete
  apply handsNothing_live
  repeat' split
  all_goals simp

@[simp] theorem execContextRestore_handsNothing (ring index saved s) :
    HandsNothing s (execContextRestore ring index saved s) := by
  unfold execContextRestore
  apply handsNothing_live
  split
  · simp
  · split
    · simp
    · split
      · split
        · simp
        · exact .inl rfl
      · simp

@[simp] theorem execRestoreVerified_handsNothing (ring index s) :
    HandsNothing s (execRestoreVerified ring index s) := by
  unfold execRestoreVerified
  apply handsNothing_live
  split <;> simp

/-! ### Fusion -/

@[simp] theorem execProbeCompare_handsNothing (port s) : HandsNothing s (execProbeCompare port s) := by
  unfold execProbeCompare
  apply handsNothing_live
  repeat' split
  all_goals simp

/-! ### Plans, weights and recipes -/

@[simp] theorem execPlanLoad_handsNothing (ring blob s) : HandsNothing s (execPlanLoad ring blob s) := by
  refine handsNothing_live (noHandOff_of_trajs (runHead_trajs _ _ _ fun t d => ?_))
  split <;> simp

@[simp] theorem execWeightsLoad_handsNothing (ring blob s) : HandsNothing s (execWeightsLoad ring blob s) := by
  refine handsNothing_live (noHandOff_of_trajs (runHead_trajs _ _ _ fun t d => ?_))
  split <;> simp

@[simp] theorem execWeightsReplaceWrite_handsNothing (id s) : HandsNothing s (execWeightsReplaceWrite id s) := by
  unfold execWeightsReplaceWrite
  apply handsNothing_serve
  split <;> simp

@[simp] theorem execRecipeLoad_handsNothing (ring blob s) : HandsNothing s (execRecipeLoad ring blob s) := by
  refine handsNothing_live (noHandOff_of_trajs (runHead_trajs _ _ _ fun t d => ?_))
  split <;> simp

@[simp] theorem execRecipeParseDone_handsNothing (ring parse s) :
    HandsNothing s (execRecipeParseDone ring parse s) := by
  unfold execRecipeParseDone
  apply handsNothing_live
  split <;> simp

@[simp] theorem execGlowUnavailable_handsNothing (ring s) : HandsNothing s (execGlowUnavailable ring s) := by
  unfold execGlowUnavailable
  apply handsNothing_live
  split <;> simp

/-! ### Slot walk -/

@[simp] theorem execSlotBoundary_handsNothing (late s) : HandsNothing s (execSlotBoundary late s) := by
  simp [execSlotBoundary]

/-! ### Confirmation -/

@[simp] theorem execEpochCheck_handsNothing (job s) : HandsNothing s (execEpochCheck job s) := by
  unfold execEpochCheck
  apply handsNothing_serve
  split <;> simp

@[simp] theorem execReflectorAttempt_handsNothing (job s) : HandsNothing s (execReflectorAttempt job s) := by
  unfold execReflectorAttempt
  apply handsNothing_serve
  split <;> simp

/-! ### Lanterns and wicks -/

@[simp] theorem execWickInstruction_handsNothing (l cycles ops rill s) :
    HandsNothing s (execWickInstruction l cycles ops rill s) := by
  simp [execWickInstruction]

@[simp] theorem execContextSwitch_handsNothing (l target s) : HandsNothing s (execContextSwitch l target s) := by
  simp [execContextSwitch]

@[simp] theorem execContextLoad_handsNothing (job cycle l target number s) :
    HandsNothing s (execContextLoad job cycle l target number s) := by
  refine handsNothing_serve (noHandOff_of_trajs (issue_trajs _ _ _ _ fun t => ?_))
  split <;> simp

/-! ### Registers -/

@[simp] theorem execBasinPoolModeWrite_handsNothing (value s) : HandsNothing s (execBasinPoolModeWrite value s) := by
  simp [execBasinPoolModeWrite]

@[simp] theorem execPlanGridWrite_handsNothing (value s) : HandsNothing s (execPlanGridWrite value s) := by
  simp [execPlanGridWrite]

@[simp] theorem execSpecCtrlWrite_handsNothing (value s) : HandsNothing s (execSpecCtrlWrite value s) := by
  simp [execSpecCtrlWrite]

@[simp] theorem execTraceWinRead_handsNothing (offset size s) : HandsNothing s (execTraceWinRead offset size s) := by
  simp [execTraceWinRead]

@[simp] theorem execRcFieldRead_handsNothing (bar offset size counted s) :
    HandsNothing s (execRcFieldRead bar offset size counted s) := by
  simp [execRcFieldRead]

@[simp] theorem execRegisterWrite_handsNothing (bar offset size data sets s) :
    HandsNothing s (execRegisterWrite bar offset size data sets s) := by
  simp [execRegisterWrite]

/-! ## Every command -/

/-- Every command but the reflector's verdict, by the lemma of its arm. -/
theorem exec_handsNothing {c : Instr} (hc : ∀ job, c ≠ .reflectorVerdict job) (s : State) :
    HandsNothing s (exec c s) := by
  cases c with
  | reflectorVerdict job => exact absurd rfl (hc job)
  | _ => simp [exec]

/-- Settles O60: what a start-up clears is the second case, a verdict the third, and every other command the first. -/
theorem onlyVerdictsHandOff : Obligations.OnlyVerdictsHandOff := by
  unfold Obligations.OnlyVerdictsHandOff
  intro s t c h
  by_cases hc : ∃ job, c = .reflectorVerdict job
  · exact .inr (.inr hc)
  · exact (exec_handsNothing (fun job hjob => hc ⟨job, hjob⟩) s t h).imp_right .inl

end Sys2Proof.Machine

/-! # The reflector's verdicts (O19)

`closeAttempt` ends the attempt and `judgeRow` decides: the branches of `judgeRow` are stated once each, and the clauses of the
obligation read them off. The count of disagreement slots that a collision adds survives the event that it raises. -/

namespace Sys2Proof.Machine

open Sys2Proof

/-! ## Events leave the count of disagreement slots -/

/-- The count of disagreement slots and the slots that it remembers are those of another state. -/
def SameDisagreements (s t : State) : Prop :=
  t.safety.disSlots = s.safety.disSlots ∧ t.safety.disHist = s.safety.disHist

theorem SameDisagreements.of_safety {s t : State} (h : t.safety = s.safety) : SameDisagreements s t := by
  rw [SameDisagreements, h]
  exact ⟨rfl, rfl⟩

theorem SameDisagreements.trans {a b c : State} (h : SameDisagreements a b) (k : SameDisagreements b c) :
    SameDisagreements a c :=
  ⟨k.1.trans h.1, k.2.trans h.2⟩

theorem refreshHeader_safety (s : State) : (refreshHeader s).safety = s.safety := by
  obtain ⟨r, h, heq⟩ := refreshHeader_frame s
  rw [heq]

theorem emberEvent_safety (s : State) (cls : EventClass) (words : List W32) (spec : Bool) :
    (emberEvent s cls words spec).safety = s.safety := by
  obtain ⟨e, h⟩ := emberEvent_eq s cls words spec
  rw [h]

theorem emberFlushStart_safety (s : State) : (emberFlushStart s).safety = s.safety := by
  obtain ⟨e, h⟩ := emberFlushStart_eq s
  rw [h]

theorem sameDisagreements_jobsEnd (s : State) : SameDisagreements s (endJobs (keepGates (assertStop s))) := by
  rw [SameDisagreements, endJobs_safety]
  exact ⟨rfl, rfl⟩

theorem sameDisagreements_enterHalt (s : State) : SameDisagreements s (enterHalt s) := by
  unfold enterHalt
  rw [SameDisagreements, refreshHeader_safety]
  exact sameDisagreements_jobsEnd s

theorem sameDisagreements_beginRelight (s : State) : SameDisagreements s (beginRelight s) := by
  unfold beginRelight
  split
  · exact .of_safety rfl
  · split
    · exact sameDisagreements_enterHalt s
    · rw [SameDisagreements, refreshHeader_safety]
      exact sameDisagreements_jobsEnd s

theorem sameDisagreements_handleNow (s : State) (e : EventClass × Nat) : SameDisagreements s (handleNow s e) := by
  unfold handleNow
  extract_lets f s1
  have hs1 : SameDisagreements s s1 := ⟨rfl, rfl⟩
  split
  · exact hs1.trans (sameDisagreements_beginRelight s1)
  · exact hs1

theorem sameDisagreements_stopAndFlush (s : State) : SameDisagreements s (emberFlushStart (assertStop s)) := by
  rw [SameDisagreements, emberFlushStart_safety]
  exact ⟨rfl, rfl⟩

theorem sameDisagreements_queueOverflow (s : State) : SameDisagreements s (queueOverflow s) := by
  unfold queueOverflow
  extract_lets s1
  have hs1 : SameDisagreements s s1 :=
    .trans (.of_safety (emberEvent_safety ..)) (sameDisagreements_stopAndFlush _)
  clear_value s1
  split
  · exact hs1
  · split
    · exact hs1
    · exact hs1.trans (sameDisagreements_handleNow s1 _)

theorem sameDisagreements_handlerArrive (s : State) (cls : EventClass) : SameDisagreements s (handlerArrive s cls) := by
  unfold handlerArrive
  extract_lets e now
  split
  · exact sameDisagreements_handleNow s e
  · split
    · exact ⟨rfl, rfl⟩
    · exact sameDisagreements_queueOverflow s

theorem sameDisagreements_respondS1 (s : State) (cls : EventClass) : SameDisagreements s (respondS1 s cls) := by
  unfold respondS1
  extract_lets s1
  have hs1 : SameDisagreements s s1 := sameDisagreements_stopAndFlush s
  clear_value s1
  split
  · exact hs1.trans (sameDisagreements_enterHalt s1)
  · split
    · exact hs1
    · exact hs1.trans (sameDisagreements_handlerArrive s1 cls)

theorem sameDisagreements_raiseEv (s : State) (cls : EventClass) (words : List W32) (spec : Bool) :
    SameDisagreements s (raiseEv s cls words spec) := by
  unfold raiseEv
  extract_lets s1
  have hs1 : SameDisagreements s s1 := .of_safety (emberEvent_safety ..)
  clear_value s1
  split
  · exact .of_safety rfl
  · split
    · exact hs1.trans (sameDisagreements_respondS1 s1 cls)
    · exact hs1.trans (sameDisagreements_handlerArrive s1 cls)

theorem sameDisagreements_raiseFor (s : State) (cls : EventClass) (words : List W32) (r : JobRef) :
    SameDisagreements s (raiseFor s cls words r) := by
  unfold raiseFor
  extract_lets spec s1
  have hs1 : SameDisagreements s s1 := sameDisagreements_raiseEv ..
  clear_value s1
  split
  · exact hs1
  · exact hs1

/-! ## A collision -/

/-- In a slot that is not one yet, a collision makes one more disagreement slot (R296). -/
theorem countDisagree_counts {s : State} (h : s.grid.count ∉ s.safety.disHist) :
    (countDisagree s).safety.disSlots = satInc s.safety.disSlots ∧ (countDisagree s).motion = s.motion := by
  unfold countDisagree
  extract_lets f hist s1
  have hnew : ¬ f.disHist.contains s.grid.count = true := by simpa using h
  rw [if_neg hnew]
  split
  · exact ⟨(sameDisagreements_raiseEv s1 ..).1, raise_motion s1 ..⟩
  · exact ⟨rfl, rfl⟩

theorem disagree_counts {s : State} (h : s.grid.count ∉ s.safety.disHist) (r : JobRef) (j : Job) (row : BRow)
    (x : Nat × Nat) :
    (disagree s r j row x).safety.disSlots = satInc s.safety.disSlots ∧ (disagree s r j row x).motion = s.motion := by
  unfold disagree
  generalize [row.id, BitVec.ofNat 32 j.slot, BitVec.ofNat 32 x.1, BitVec.ofNat 32 x.2] = words
  have hkept := raiseFor_kept s .reflectorDisagree words r
  obtain ⟨hslots, hhist⟩ := sameDisagreements_raiseFor s .reflectorDisagree words r
  obtain ⟨hcount, hmotion⟩ := countDisagree_counts (s := raiseFor s .reflectorDisagree words r)
    (by rwa [hkept.grid, hhist])
  exact ⟨hcount.trans (congrArg satInc hslots), hmotion.trans hkept.motion⟩

/-! ## The verdict -/

section Verdict
variable {s : State} {job : JobRef} {j : Job} {i : Nat} {row : BRow} {r : Recipe} {m : RobotModel} {t : Traj}

theorem exec_reflectorVerdict (hs : Served s) (hj : findJob s job = some j) (hactive : j.out.active = some i)
    (hcounts : attemptCounts j = true) (hrow : j.out.rows[i]? = some row) (hr : j.recipe = some r) (hm : jobModel j = some m)
    (ht : trajOf j r m row.pay = some t) :
    exec (.reflectorVerdict job) s = .next (judgeRow (closeAttempt s job) job j row r m t) := by
  have harm : exec (.reflectorVerdict job) s = execReflectorVerdict job s := rfl
  rw [harm, execReflectorVerdict, serve_of_served hs]
  simp only [hj, hactive, hcounts, hrow, hr, hm, ht, Bool.not_true, Bool.false_eq_true, if_false]

/-- Neither the search for collisions nor the splice point's age looks at the jobs. -/
theorem firstHit_closeAttempt : firstHit (closeAttempt s job) j r m t = firstHit s j r m t := rfl

theorem spliceStale_closeAttempt : spliceStale (closeAttempt s job) t = spliceStale s t := rfl

theorem judgeRow_of_long (h : 2048 < sampleCount t) : judgeRow s job j row r m t = raise s .reflectorBudget [] := if_pos h

theorem judgeRow_of_hit (h : sampleCount t ≤ 2048) {x : Nat × Nat} (hx : firstHit s j r m t = some x) :
    judgeRow s job j row r m t = disagree s job j row x := by
  rw [judgeRow, if_neg h.not_gt, hx]

theorem judgeRow_of_clear (h : sampleCount t ≤ 2048) (hclear : firstHit s j r m t = none) :
    judgeRow s job j row r m t = if !tailPasses t m then raise s .reflectorTail []
      else if spliceStale s t then raise s .spliceStale []
      else if rowLive j row then handOff s job row t
      else s := by
  rw [judgeRow, if_neg h.not_gt, hclear]

end Verdict

/-- What the job keeps of a row that was handed off. -/
def handedJob (row : BRow) (t : Traj) (k : Job) : Job := { k with published := some t, confirmedRow := some row }

/-- The attempt's row leaves the rows to try. -/
def closedJob (k : Job) : Job := { k with out := { k.out with active := none, confirmed := k.out.confirmed.drop 1 } }

theorem findJob_handOff {s : State} {job : JobRef} {j : Job} (hj : findJob s job = some j) (row : BRow) (t : Traj) :
    findJob (handOff s job row t) job = some (handedJob row t j) := findJob_modJob s job (handedJob row t) j hj rfl

theorem handOff_pwr (s : State) (job : JobRef) (row : BRow) (t : Traj) :
    (handOff s job row t).pwr = { s.pwr with stop := s.pwr.stop && stopRelHost s } := by
  have h : (handOff s job row t).pwr = { s.pwr with stop := s.pwr.stop && !!stopRelHost s } := rfl
  rw [h, Bool.not_not]

/-- Settles O19: each clause is a branch of `judgeRow` on the attempt that `closeAttempt` has closed. -/
theorem reflectorVerdicts : Obligations.ReflectorVerdicts := by
  unfold Obligations.ReflectorVerdicts
  constructor
  · intro s job j i row r m t0 hs hj hactive hcounts hrow hr hm ht hlen hclear htail hfresh hlive live
    have hjudged : judgeRow (closeAttempt s job) job j row r m t0 = handOff (closeAttempt s job) job row t0 := by
      rw [judgeRow_of_clear hlen (firstHit_closeAttempt.trans hclear), spliceStale_closeAttempt]
      simp [htail, hfresh, hlive]
    refine ⟨_, exec_reflectorVerdict hs hj hactive hcounts hrow hr hm ht, ?_⟩
    rw [hjudged]
    have hclosed : findJob (closeAttempt s job) job = some (closedJob j) := findJob_modJob s job closedJob j hj rfl
    exact ⟨rfl, rfl, handOff_pwr .., findJob_handOff hclosed row t0, rfl,
      ⟨rfl, rfl, rfl⟩, rfl, rfl, rfl, rfl, rfl, rfl⟩
  · intro s job j i row r m t0 hs hj hactive hcounts hrow hr hm ht s1
    have hclose : s1 = closeAttempt s job := rfl
    clear_value s1
    subst hclose
    rw [exec_reflectorVerdict hs hj hactive hcounts hrow hr hm ht]
    refine ⟨fun hlong => congrArg _ (judgeRow_of_long hlong),
      fun hlen => ⟨fun x hx hnew => ?hit, fun hclear => ?clear⟩⟩
    case hit =>
      rw [judgeRow_of_hit hlen (firstHit_closeAttempt.trans hx)]
      obtain ⟨hcount, hmotion⟩ := disagree_counts (s := closeAttempt s job) hnew job j row x
      exact ⟨_, rfl, hmotion, hcount⟩
    case clear =>
      rw [judgeRow_of_clear hlen (firstHit_closeAttempt.trans hclear), spliceStale_closeAttempt]
      refine ⟨fun htail => ?_, fun htail hstale => ?_, fun htail hfresh hmarked => ?_⟩
      · simp [htail]
      · simp [htail, hstale]
      · simp [htail, hfresh, hmarked]

end Sys2Proof.Machine

/-! # Context saves and restores (O29)

The obligation fails in one clause, that a verified restore becomes ready: it asks that the restore alone bears its reference, and
lets two other entries share one. Where all references are distinct the clause holds (`restoreVerified_ready`); the other clauses
hold of every state. They stand below as theorems, in the order of the obligation, and the counterexample last. -/

namespace Sys2Proof.Machine

open Sys2Proof

/-! ## What an update of a descriptor leaves of the others -/

theorem findDesc_modDesc_of_ne (s : State) {r x : JobRef} (hx : x ≠ r) {f : DescEntry → DescEntry}
    (hf : ∀ e, (f e).ref = e.ref) : findDesc (modDesc s r f) x = findDesc s x := by
  have hother : (r == x) = false := beq_eq_false_iff_ne.mpr hx.symm
  unfold findDesc modDesc
  dsimp only
  induction s.descs with
  | nil => rfl
  | cons a t ih =>
    simp only [List.map_cons, List.find?_cons, ih]
    by_cases ha : a.ref = r
    · simp [ha, hf, hother]
    · simp [ha]

/-- An update keeps each view of the descriptors that it keeps of those it reaches. -/
theorem modDesc_keeps {α : Type} {view : DescEntry → α} {s : State} {r : JobRef} {f : DescEntry → DescEntry}
    (h : ∀ e ∈ s.descs, e.ref = r → view (f e) = view e) : (modDesc s r f).descs.map view = s.descs.map view := by
  simp only [modDesc, List.map_map]
  refine List.map_congr_left fun e he => ?_
  simp only [Function.comp_apply]
  split
  case isTrue href => exact h e he (beq_iff_eq.mp href)
  case isFalse => rfl

theorem WeirFrame.mem {s t : State} (h : WeirFrame s t) : t.mem = s.mem := by
  obtain ⟨_, _, _, _, _, _, rfl⟩ := h; rfl

theorem WeirFrame.sameField {s t : State} (h : WeirFrame s t) : SameField s t := by
  obtain ⟨_, _, _, _, _, _, rfl⟩ := h; exact ⟨rfl, rfl, rfl⟩

theorem WeirFrame.sameFaults {s t : State} (h : WeirFrame s t) : SameFaults s t := by
  obtain ⟨_, _, _, _, _, _, rfl⟩ := h; exact ⟨rfl, rfl⟩

/-! ## CONTEXT_SAVE (R274, R335) -/

theorem exec_contextSave {s : State} (hs : Live s) {r : RingId} {d : DescEntry} (hd : beginable s r = some d) {ring : Nat}
    {index : W32} {dst len : Nat} (hbody : d.desc.body = .contextSave ring index dst len) :
    exec (.contextSave r) s = .next (beginExec s d) := by
  have harm : exec (.contextSave r) s = execContextSave r s := rfl
  rw [harm, execContextSave, live_of_hub hs]
  simp only [hd, hbody]

theorem findDesc_beginExec_of_ne (s : State) (d : DescEntry) {x : JobRef} (hx : x ≠ d.ref) :
    findDesc (beginExec s d) x = findDesc s x :=
  findDesc_modDesc_of_ne (busyNow (traceDesc s 2 d 0 0)) hx (f := begunEntry) fun _ => rfl

/-- A save at the head of its flow begins its execution: its entry, the trace and the time from which the device idles are all that
is written. -/
theorem contextSave_begins {s : State} (hs : Live s) {r : RingId} {d : DescEntry} (hd : beginable s r = some d)
    (hfound : findDesc s d.ref = some d) {ring : Nat} {index : W32} {dst len : Nat}
    (hbody : d.desc.body = .contextSave ring index dst len) :
    ∃ t, exec (.contextSave r) s = .next t ∧ findDesc t d.ref = some (begunEntry d)
      ∧ (∀ x, x ≠ d.ref → findDesc t x = findDesc s x) ∧ t.pwr = { s.pwr with idleSince := s.pwr.ticks }
      ∧ t.jobs = s.jobs ∧ t.rings = s.rings ∧ t.sluice = (traceDesc s 2 d 0 0).sluice ∧ t.host = s.host ∧ SameFabric s t
      ∧ SameField s t ∧ SameFaults s t :=
  ⟨_, exec_contextSave hs hd hbody, findDesc_beginExec hfound, fun _ hx => findDesc_beginExec_of_ne s d hx, rfl, rfl, rfl, rfl, rfl,
    ⟨rfl, rfl, rfl⟩, (weirFrame_beginExec s d).sameField, (weirFrame_beginExec s d).sameFaults⟩

/-! ## CONTEXT_SAVE_COMPLETE (R274) -/

theorem sameReplays_matchAfter (s : State) (r : JobRef) : SameReplays s (matchAfter s r) :=
  (SameReplays.foldl sameReplays_settleReady _ _).trans (SameReplays.foldl (sameReplays_matchToken 3) _ s)

theorem sameReplays_complete {s : State} {r : JobRef} {d : DescEntry} (hd : findDesc s r = some d) (res : Result) :
    SameReplays s (complete s r res) := by
  obtain ⟨u, hdescs, heq⟩ := complete_of_found hd res
  rw [heq]
  exact (sameReplays_matchAfter u r).trans ((sameReplays_congr hdescs).trans (sameReplays_modDesc s r fun _ => ⟨rfl, rfl⟩))

/-- The result with which a saved job completes. -/
def savedResult (j : Job) : Result := { plainResult .cancelled 1 with epoch := j.epoch, restored := j.restored }

theorem recordedResult_saved (d : DescEntry) (j : Job) : recordedResult d (savedResult j) = savedResult j := by
  simp [recordedResult, savedResult, plainResult]

/-- The save's entry once the saved job has left it. -/
def handedEntry (e : DescEntry) : DescEntry := { e with resume := none }

/-- The state in which the sealed context is in the host buffer. -/
def contextWritten (s : State) (d : DescEntry) (j : Job) (dst : Nat) : State :=
  modDesc (dstWrite s d.ref.ring dst (ctxSealed s (savedCtx s j))) d.ref handedEntry

theorem contextWritten_frame (s : State) (d : DescEntry) (j : Job) (dst : Nat) :
    ∃ h ds, contextWritten s d j dst = { s with host := h, descs := ds } := by
  unfold contextWritten dstWrite
  split <;> exact ⟨_, _, rfl⟩

theorem findDesc_contextWritten_of_ne (s : State) (d : DescEntry) (j : Job) (dst : Nat) {x : JobRef} (hx : x ≠ d.ref) :
    findDesc (contextWritten s d j dst) x = findDesc s x :=
  (findDesc_modDesc_of_ne _ hx (f := handedEntry) fun _ => rfl).trans (findDesc_congr (dstWrite_descs ..) x)

theorem sameReplays_contextWritten (s : State) (d : DescEntry) (j : Job) (dst : Nat) : SameReplays s (contextWritten s d j dst) :=
  (sameReplays_modDesc _ d.ref (f := handedEntry) fun _ => ⟨rfl, rfl⟩).trans (sameReplays_congr (dstWrite_descs ..))

/-- The saved job completes, then the save. -/
def contextHanded (s : State) (d : DescEntry) (j : Job) (dst : Nat) : State :=
  finish (complete (contextWritten s d j dst) j.ref (savedResult j)) d.ref .ok 0

theorem weirFrame_contextHanded (s : State) (d : DescEntry) (j : Job) (dst : Nat) :
    WeirFrame (contextWritten s d j dst) (contextHanded s d j dst) :=
  (weirFrame_complete ..).trans (weirFrame_finish ..)

section Complete

variable {s : State} (hs : Live s) (hhalt : s.safety.state ≠ .halt) {r : RingId} {d e : DescEntry} {j : Job}
  (hsaving : savingAt s r = some (d, j)) {ring : Nat} {index : W32} {dst len : Nat}
  (hbody : d.desc.body = .contextSave ring index dst len)
include hs hhalt hsaving hbody

theorem exec_contextSaveComplete : exec (.contextSaveComplete r) s = .next (contextHanded s d j dst) := by
  have harm : exec (.contextSaveComplete r) s = execContextSaveComplete r s := rfl
  have hstate : (s.safety.state == .halt) = false := beq_eq_false_iff_ne.mpr hhalt
  rw [harm, execContextSaveComplete, live_of_hub hs, hstate, if_neg Bool.false_ne_true]
  simp only [hsaving, hbody]
  rfl

/-- When the buffer is complete the saved job completes `CANCELLED` under the epoch that it used, and the save `OK`. -/
theorem contextSaveComplete_hands (hd : findDesc s d.ref = some d) (he : findDesc s j.ref = some e) (hne : d.ref ≠ j.ref) :
    ∃ t, exec (.contextSaveComplete r) s = .next t
      ∧ t.host.mem = (if (ringGet s d.ref.ring).lost then s.host.mem else s.host.mem.writeN dst (ctxSealed s (savedCtx s j)))
      ∧ DoneAs t d.ref (okResult d 0) ∧ DoneAs t j.ref (savedResult j)
      ∧ t.jobs = s.jobs ∧ t.rings = s.rings ∧ t.mem = s.mem ∧ SameField s t ∧ SameFaults s t := by
  have hframe := weirFrame_contextHanded s d j dst
  have htarget : findDesc (contextWritten s d j dst) j.ref = some e :=
    (findDesc_contextWritten_of_ne s d j dst hne.symm).trans he
  have hsaved : StandsAt j.ref (.done (savedResult j)) (complete (contextWritten s d j dst) j.ref (savedResult j)) := by
    simpa only [recordedResult_saved] using standsAt_complete htarget (savedResult j)
  have hreplays := (sameReplays_complete htarget (savedResult j)).trans (sameReplays_contextWritten s d j dst)
  refine ⟨_, exec_contextSaveComplete hs hhalt hsaving hbody, ?_, (standsAt_finish_ok hd hreplays 0).stage,
    (hsaved.finish_other Stage.noConfusion Stage.noConfusion hne .ok 0).stage, ?_⟩
  · rw [hframe.keepsStores.host]
    exact dstWrite_hostMem ..
  · obtain ⟨h, ds, hwritten⟩ := contextWritten_frame s d j dst
    rw [hwritten] at hframe
    exact ⟨hframe.jobs, hframe.rings, hframe.mem, hframe.sameField, hframe.sameFaults⟩

end Complete

/-! ## CONTEXT_RESTORE (R277, R278) -/

section Restore

variable {s : State} (hs : Live s) (hhalt : s.safety.state ≠ .halt) {r : RingId} {i : W32} {d : DescEntry}
  (hd : findDesc s ⟨r, i⟩ = some d) (hentered : d.stage = .entered) {src len res rlen : Nat}
  (hbody : d.desc.body = .contextRestore src len res rlen) {c : SavedCtx}
include hs hhalt hd hentered hbody

/-- A restore whose checks pass waits for its context. -/
theorem contextRestore_waits (hpass : restoreRefusal s c = none) :
    exec (.contextRestore r i c) s = .next (modDesc s ⟨r, i⟩ fun x => { x with stage := .waiting, ctx := some c }) := by
  have harm : exec (.contextRestore r i c) s = execContextRestore r i c s := rfl
  rw [harm, execContextRestore, live_of_hub hs]
  simp [hd, hhalt, hentered, hbody, hpass, findDesc_ref hd]

theorem exec_contextRestore_of_refused {st : Status} {det : Nat} (hrefused : restoreRefusal s c = some (st, det)) :
    exec (.contextRestore r i c) s = .next (finish s ⟨r, i⟩ st det) := by
  have harm : exec (.contextRestore r i c) s = execContextRestore r i c s := rfl
  rw [harm, execContextRestore, live_of_hub hs]
  simp [hd, hhalt, hentered, hbody, hrefused, findDesc_ref hd]

/-- A restore that a check refuses completes with the refusal. -/
theorem contextRestore_refuses {st : Status} {det : Nat} (hrefused : restoreRefusal s c = some (st, det)) (hst : st ≠ .ok) :
    ∃ t, exec (.contextRestore r i c) s = .next t ∧ DoneAs t ⟨r, i⟩ (plainResult st det) ∧ t.jobs = s.jobs ∧ t.mem = s.mem :=
  ⟨_, exec_contextRestore_of_refused hs hhalt hd hentered hbody hrefused, doneAs_finish hd hst det, (weirFrame_finish ..).jobs,
    (weirFrame_finish ..).mem⟩

end Restore

/-- The seal comes first of the checks. -/
theorem restoreRefusal_of_wrong_tag {s : State} {c : SavedCtx} (h : c.tag ≠ ctxTag s c) :
    restoreRefusal s c = some (.sealFail, 0) := by
  simp [restoreRefusal, h]

/-! ## RESTORE_VERIFIED (R279) -/

/-- A restore's entry once its context is verified. -/
def verifiedEntry (e : DescEntry) : DescEntry := { e with verified := true }

def restoreVerified (s : State) (r : JobRef) : State := modDesc s r verifiedEntry

/-- Settling keeps each view of the descriptors that the stages waiting and ready do not change. -/
theorem settleReady_keeps {α : Type} {view : DescEntry → α} {s : State} {d : DescEntry}
    (h : d.stage = .waiting ∨ d.stage = .ready → ∀ e ∈ s.descs, e.ref = d.ref → ∀ st, st = .waiting ∨ st = .ready →
      view { e with stage := st } = view e) : (settleReady s d).descs.map view = s.descs.map view := by
  rcases settleReady_cases s d with heq | ⟨hstage, heq⟩ | ⟨hstage, heq⟩ <;> rw [heq]
  · rw [(wakeJob_writes _ d).1]
    exact modDesc_keeps fun e he href => h (.inl hstage) e he href _ (.inr rfl)
  · exact modDesc_keeps fun e he href => h (.inr hstage) e he href _ (.inl rfl)

theorem settleAll_keeps_verified (s : State) :
    (settleAll s).descs.map (fun e => (e.ref, e.verified)) = s.descs.map fun e => (e.ref, e.verified) :=
  List.foldlRecOn (motive := fun t : State => t.descs.map (fun e => (e.ref, e.verified)) = s.descs.map fun e => (e.ref, e.verified))
    s.descs settleReady rfl fun _ ht _ _ => (settleReady_keeps fun _ _ _ _ _ _ => rfl).trans ht

theorem findDesc_verified_congr {s t : State}
    (h : t.descs.map (fun e => (e.ref, e.verified)) = s.descs.map fun e => (e.ref, e.verified)) (r : JobRef) :
    (findDesc t r).map (·.verified) = (findDesc s r).map (·.verified) := by
  have hfind : ∀ u : State, (findDesc u r).map (·.verified)
      = ((u.descs.map fun e => (e.ref, e.verified)).find? fun x => x.1 == r).map Prod.snd := fun u => by
    rw [List.find?_map, Option.map_map]; rfl
  rw [hfind t, h, ← hfind s]

/-- What fences are judged by (R340). -/
def fenceView (e : DescEntry) : JobRef × Desc × Bool := (e.ref, e.desc, e.stage.isDone)

/-- Only what settling writes differs, and every fence is as open as it was. -/
structure SameReadiness (s t : State) : Prop where
  frame : WeirFrame s t
  fences : t.descs.map fenceView = s.descs.map fenceView

theorem fenced_congr {s t : State} (h : t.descs.map fenceView = s.descs.map fenceView) (d : DescEntry) :
    fenced t d = fenced s d := by
  have hview : ∀ u : State, fenced u d = ((u.descs.map fenceView).takeWhile fun v => v.1 != d.ref).any fun v =>
      v.1.ring == d.ref.ring && v.2.1.body.isFence && !v.2.2 := fun u => by
    rw [List.takeWhile_map, List.any_map]; rfl
  rw [hview t, h, ← hview s]

theorem WeirFrame.fusionWaits {s t : State} (h : WeirFrame s t) (d : DescEntry) : fusionWaits t d = fusionWaits s d := by
  obtain ⟨_, _, _, _, _, _, rfl⟩ := h; rfl

theorem SameReadiness.jobReady {s t : State} (h : SameReadiness s t) (d : DescEntry) : jobReady t d = jobReady s d := by
  simp only [Machine.jobReady, fenced_congr h.fences, h.frame.fusionWaits]

theorem jobReady_of_verified {s : State} {d : DescEntry} (hrestore : isRestore d = true) (hverified : d.verified = true)
    (hfence : fenced s d = false) (hfusion : fusionWaits s d = false) : jobReady s d = true := by
  unfold isRestore at hrestore
  split at hrestore
  case h_1 hbody => simp [jobReady, tokensOf, hbody, hverified, hfence, hfusion]
  case h_2 => cases hrestore

/-- No two entries bear one reference. -/
def DistinctRefs (s : State) : Prop := (s.descs.map (·.ref)).Nodup

/-- The references distinct, settling opens and closes no fence: what it moves stands neither before nor after as done. -/
theorem SameReadiness.settleReady {s t : State} (hdistinct : DistinctRefs s) (h : SameReadiness s t) {d : DescEntry}
    (hd : d ∈ s.descs) : SameReadiness s (settleReady t d) := by
  refine ⟨h.frame.trans (weirFrame_settleReady t d), (settleReady_keeps fun hstage e he href st hst => ?_).trans h.fences⟩
  obtain ⟨x, hx, hview⟩ := List.mem_map.mp (h.fences ▸ List.mem_map_of_mem he : fenceView e ∈ s.descs.map fenceView)
  have hxd : x = d := List.inj_on_of_nodup_map hdistinct hx hd ((congrArg Prod.fst hview).trans href)
  have hopen : e.stage.isDone = false := by
    have hsame : x.stage.isDone = e.stage.isDone := congrArg (·.2.2) hview
    rw [← hsame, hxd]
    rcases hstage with h | h <;> rw [h] <;> rfl
  have hmoved : st.isDone = false := by rcases hst with h | h <;> rw [h] <;> rfl
  simp only [fenceView, hopen, hmoved]

theorem StandsAt.settleReady_other {r : JobRef} {st : Stage} {s : State} (h : StandsAt r st s) {d : DescEntry} (hd : d.ref ≠ r) :
    StandsAt r st (settleReady s d) := by
  rcases settleReady_cases s d with heq | ⟨-, heq⟩ | ⟨-, heq⟩ <;> rw [heq]
  · exact h
  · exact (h.modDesc_other hd (f := fun e => { e with stage := .ready }) fun _ => rfl).congr (wakeJob_writes _ d).1
  · exact h.modDesc_other hd fun _ => rfl

theorem standsAt_settleReady_ready {s : State} {d e : DescEntry} (he : findDesc s d.ref = some e) (hstage : d.stage = .waiting)
    (hready : jobReady s d = true) : StandsAt d.ref .ready (settleReady s d) := by
  have hsettle : settleReady s d = wakeJob (traceDesc (modDesc s d.ref fun e => { e with stage := .ready }) 2 d 0 0) d := by
    simp only [settleReady, hstage, hready, if_true]
  rw [hsettle]
  exact (standsAt_modDesc he (f := fun e => { e with stage := .ready }) (fun _ => rfl) fun _ => rfl).congr (wakeJob_writes _ d).1

/-- Of distinct references, a waiting job that has all it needs is ready once everything is settled. -/
theorem standsAt_settleAll_ready {s : State} (hdistinct : DistinctRefs s) {d : DescEntry} (hd : d ∈ s.descs)
    (hstage : d.stage = .waiting) (hready : jobReady s d = true) : StandsAt d.ref .ready (settleAll s) := by
  obtain ⟨before, after, hsplit⟩ := List.append_of_mem hd
  have hbefore : SameReadiness s (before.foldl settleReady s) :=
    List.foldlRecOn before settleReady ⟨.refl s, rfl⟩ fun _ ht x hx =>
      ht.settleReady hdistinct (hsplit ▸ List.mem_append_left _ hx)
  obtain ⟨x, hx, hview⟩ := List.mem_map.mp
    (hbefore.fences ▸ List.mem_map_of_mem hd : fenceView d ∈ (before.foldl settleReady s).descs.map fenceView)
  obtain ⟨e, he⟩ : ∃ e, findDesc (before.foldl settleReady s) d.ref = some e := by
    rw [← Option.isSome_iff_exists, findDesc, List.find?_isSome]
    exact ⟨x, hx, beq_iff_eq.mpr (congrArg Prod.fst hview)⟩
  have hafter : ∀ y ∈ after, y.ref ≠ d.ref := by
    rw [DistinctRefs, hsplit, List.map_append, List.map_cons, List.nodup_append, List.nodup_cons] at hdistinct
    obtain ⟨-, ⟨hfresh, -⟩, -⟩ := hdistinct
    exact fun y hy href => hfresh (href ▸ List.mem_map_of_mem hy)
  rw [settleAll, hsplit, List.foldl_append, List.foldl_cons]
  exact List.foldlRecOn after settleReady
    (standsAt_settleReady_ready he hstage ((hbefore.jobReady d).trans hready))
    fun _ ht y hy => ht.settleReady_other (hafter y hy)

section Verified

variable {s : State} (hs : Live s) {r : RingId} {i : W32} {d : DescEntry} {c : SavedCtx}
  (hd : findDesc s ⟨r, i⟩ = some d) (hstage : d.stage = .waiting) (hctx : d.ctx = some c)
include hs hd hstage hctx

theorem exec_restoreVerified : exec (.restoreVerified r i) s = .next (settleAll (restoreVerified s ⟨r, i⟩)) := by
  have harm : exec (.restoreVerified r i) s = execRestoreVerified r i s := rfl
  rw [harm, execRestoreVerified, live_of_hub hs]
  simp only [hd, hstage, hctx, findDesc_ref hd]
  rfl

/-- The context of the restore is marked verified; jobs, rings and memories stay. -/
theorem restoreVerified_verifies : ∃ t, exec (.restoreVerified r i) s = .next t
    ∧ (findDesc t ⟨r, i⟩).map (·.verified) = some true ∧ t.jobs = s.jobs ∧ t.rings = s.rings ∧ t.mem = s.mem := by
  have hfound := findDesc_modDesc s ⟨r, i⟩ verifiedEntry d hd rfl
  have hframe := (weirFrame_modDesc s ⟨r, i⟩ verifiedEntry).trans (weirFrame_settleAll _)
  refine ⟨_, exec_restoreVerified hs hd hstage hctx, ?_, hframe.jobs, hframe.rings, hframe.mem⟩
  exact (findDesc_verified_congr (settleAll_keeps_verified _) _).trans (congrArg (Option.map (·.verified)) hfound)

/-- Of distinct references, the restored job becomes ready, unless a fence before it or a fusion run's want of frames holds it. -/
theorem restoreVerified_ready (hrestore : isRestore d = true) (hfence : fenced s d = false) (hfusion : fusionWaits s d = false)
    (hdistinct : DistinctRefs s) : ∃ t, exec (.restoreVerified r i) s = .next t
      ∧ (findDesc t ⟨r, i⟩).map (·.stage) = some .ready := by
  have hfound := findDesc_modDesc s ⟨r, i⟩ verifiedEntry d hd rfl
  have hverified : DistinctRefs (restoreVerified s ⟨r, i⟩) := by
    rwa [DistinctRefs, restoreVerified, modDesc_keeps (f := verifiedEntry) fun _ _ _ => rfl]
  have hfences : (restoreVerified s ⟨r, i⟩).descs.map fenceView = s.descs.map fenceView := modDesc_keeps fun _ _ _ => rfl
  have hready : jobReady (restoreVerified s ⟨r, i⟩) (verifiedEntry d) = true :=
    jobReady_of_verified hrestore rfl ((fenced_congr hfences d).trans hfence) hfusion
  have hstands := standsAt_settleAll_ready hverified (List.mem_of_find?_eq_some hfound) hstage hready
  exact ⟨_, exec_restoreVerified hs hd hstage hctx, findDesc_ref hfound ▸ hstands.stage⟩

end Verified

/-! ## Saves at a boundary (R236, R274, R275) -/

section Boundary

variable {s : State} {own t : JobRef} {d : DescEntry} {ring addr len : Nat} {index : W32} (hown : findDesc s own = some d)
  (hbody : d.desc.body = .contextSave ring index addr len) (ht : targetRef ring index = some t)
include hown hbody ht

/-- A save whose target has ended takes nothing. -/
theorem saveOne_of_ended (hnone : saveTarget s t = none) : DoneAs (saveOne s own) own (plainResult .cancelled 2) := by
  have hsave : saveOne s own = finish s own .cancelled 2 := by simp [saveOne, hown, hbody, ht, hnone]
  rw [hsave]
  exact doneAs_finish hown Status.noConfusion 2

variable {j : Job} (hj : findJob s t = some j)
include hj

/-- A save of a running target: a speculative slot leaves it waiting, then come the refusals in their order. -/
theorem saveOne_of_running : saveOne s own =
    if j.spec then s
    else if j.kind == .save then finish s own .cancelled 2
    else if notSaveable j.img then finish s own .cancelled 3
    else if len < ctxSize (j.seeds.length + j.pool.length + j.spent.length) then finish s own .cancelled 4
    else takeSave s own t j := by
  have htarget : saveTarget s t = some j := by simp only [saveTarget, hj]
  simp only [saveOne, hown, hbody, ht, htarget, hj, Option.map_some, Option.bind_some, Option.isSome_some, if_true]

/-- The slot into which a taken save turns its target's next one. -/
def saveSlot (own : JobRef) (j : Job) : Job := { j with kind := .save, stream := [], saver := some own, spec := false }

omit hown hbody ht in
theorem findJob_takeSave : findJob (takeSave s own t j) t = some (saveSlot own j) := by
  have htake : takeSave s own t j = modJob s t fun _ => saveSlot own j := by
    simp only [takeSave, hj, Option.isSome_some, if_true, saveSlot]
  rw [htake]
  exact findJob_modJob s t (fun _ => saveSlot own j) j hj rfl

/-- Between two slots of its target a due save is taken, or completes `CANCELLED` with the detail of its case. -/
theorem saveOne_between_slots (hspec : j.spec = false) :
    (j.kind = .save → DoneAs (saveOne s own) own (plainResult .cancelled 2))
    ∧ (j.kind ≠ .save → notSaveable j.img = true → DoneAs (saveOne s own) own (plainResult .cancelled 3))
    ∧ (j.kind ≠ .save → notSaveable j.img = false → len < ctxSize (j.seeds.length + j.pool.length + j.spent.length) →
        DoneAs (saveOne s own) own (plainResult .cancelled 4))
    ∧ (j.kind ≠ .save → notSaveable j.img = false → ctxSize (j.seeds.length + j.pool.length + j.spent.length) ≤ len →
        findJob (saveOne s own) t = some (saveSlot own j)) := by
  rw [saveOne_of_running hown hbody ht hj, hspec, if_neg Bool.false_ne_true]
  refine ⟨fun hkind => ?held, fun hkind himg => ?image, fun hkind himg hshort => ?short, fun hkind himg hfits => ?taken⟩
  case held => simpa [hkind] using doneAs_finish hown Status.noConfusion 2
  case image => simpa [hkind, himg] using doneAs_finish hown Status.noConfusion 3
  case short => simpa [hkind, himg, hshort] using doneAs_finish hown Status.noConfusion 4
  case taken => simpa [hkind, himg, Nat.not_lt.mpr hfits] using findJob_takeSave hj

end Boundary

/-! ## The counterexample

A completed fence and a run without tokens share a reference. The settling that readies the run takes the fence's entry with it
from done to ready, so the fence holds the verified restore behind it, which it did not hold before. -/

/-- An entry of ring 0 at a stage. -/
def entryAt (index : W32) (st : Stage) (body : DescBody) : DescEntry :=
  { newEntry ⟨0, index⟩ ⟨false, false, false, false, 0, body⟩ false none with stage := st }

/-- A restore that waits for its context to be verified. -/
def unverifiedRestore : DescEntry := { entryAt 2 .waiting (.contextRestore 0 0 0 512) with ctx := some default }

/-- The completed fence, the run of the same reference, and the restore of its own. -/
def sharedRef : State := { State.reset with
  pwr := { Pwr.reset with pwrGood := true, hub := true, ready := true }
  safety := { Safety.reset with state := .service }
  descs := [entryAt 1 (.done (plainResult .ok 0)) (.fence 0), entryAt 1 .waiting (.planRun 0 0 0 0 0 0 0 0 0 512),
    unverifiedRestore] }

/-- The reopened fence holds the restore. -/
theorem sharedRef_restore_waits :
    (findDesc (settleAll (restoreVerified sharedRef ⟨0, 2⟩)) ⟨0, 2⟩).map (·.stage) = some .waiting := by
  decide +kernel

/-- Refutes O29: of `sharedRef`, the restore whose context is verified keeps waiting, though no fence and no want of frames holds it
when the command comes, and it alone bears its reference. -/
theorem not_contextsSaveAndRestore : ¬ Obligations.ContextsSaveAndRestore := by
  unfold Obligations.ContextsSaveAndRestore
  rintro ⟨commands, -⟩
  have hfound : findDesc sharedRef ⟨0, 2⟩ = some unverifiedRestore := by decide +kernel
  have hlive : Live sharedRef := rfl
  have hhalt : sharedRef.safety.state ≠ .halt := by decide
  obtain ⟨-, -, -, verifies⟩ := commands sharedRef 0 2 unverifiedRestore unverifiedRestore
    (blankJob sharedRef unverifiedRestore default) default hlive hhalt
  obtain ⟨t, hexec, -, -, -, -, becomesReady⟩ := verifies hfound rfl rfl
  obtain rfl : settleAll (restoreVerified sharedRef ⟨0, 2⟩) = t := by
    simpa using (exec_restoreVerified hlive hfound rfl rfl).symm.trans hexec
  have hready := becomesReady rfl (by decide +kernel) (by decide +kernel) fun x hx href => by
    simp only [sharedRef, List.mem_cons, List.not_mem_nil, or_false] at hx
    rcases hx with rfl | rfl | rfl
    · exact absurd href (by decide)
    · exact absurd href (by decide)
    · rfl
  exact absurd (sharedRef_restore_waits.symm.trans hready) (by decide)

end Sys2Proof.Machine

/-! # HALT is kept and stops the machine (O57, O58)

`haltView` is what the rules of HALT read of a state. Only `enterHalt` enters HALT, and it asserts STOP_REQ_N; an event may lead
to it. First the functions that raise no event: each leaves `haltView` as it was. Then those that may: each keeps HALT and its
rule, `HaltKept`. Start-ups and relights, which end in service or in HALT, keep the rule alone. A proof `(rfl)` is one that `simp`
takes as a rewriting step of its own, so that what a condition asks for keeps its form. -/

namespace Sys2Proof.Machine

open Sys2Proof

/-! ## What the rules of HALT read -/

/-- The state of the fault handler, whether a hand-off has followed the assertion of STOP_REQ_N, and STOP_REQ_N. -/
structure HaltView where
  state : SState
  handed : Bool
  stop : Bool

/-- What a state shows of it. -/
def haltView (s : State) : HaltView := ⟨s.safety.state, s.safety.handed, s.pwr.stop⟩

@[simp] theorem haltView_mk {pwr fuses grid lanterns map mapRetired mapSet mem world rings host sluice descs jobs safety
    motion klink spout sec mgmt ember free pending} :
    haltView ⟨pwr, fuses, grid, lanterns, map, mapRetired, mapSet, mem, world, rings, host, sluice, descs, jobs, safety, motion,
      klink, spout, sec, mgmt, ember, free, pending⟩ = ⟨safety.state, safety.handed, pwr.stop⟩ :=
  (rfl)

@[simp] theorem haltView_fields (s : State) : (⟨s.safety.state, s.safety.handed, s.pwr.stop⟩ : HaltView) = haltView s := (rfl)

/-! ## Folds, branches and options -/

@[simp] theorem foldl_haltView {α : Type} {f : State → α → State} (hf : ∀ s a, haltView (f s a) = haltView s) (l : List α)
    (s : State) : haltView (l.foldl f s) = haltView s :=
  List.foldlRecOn (motive := fun t : State => haltView t = haltView s) l f rfl fun t ht a _ => (hf t a).trans ht

@[simp] theorem foldl_fst_haltView {α β : Type} {f : State × β → α → State × β}
    (hf : ∀ w a, haltView (f w a).1 = haltView w.1) (l : List α) (w : State × β) : haltView (l.foldl f w).1 = haltView w.1 :=
  List.foldlRecOn (motive := fun t : State × β => haltView t.1 = haltView w.1) l f rfl fun t ht a _ => (hf t a).trans ht

@[simp] theorem ite_haltView (p : Prop) [Decidable p] (a b : State) :
    haltView (if p then a else b) = if p then haltView a else haltView b := apply_ite haltView p a b

@[simp] theorem ite_fst_haltView {β : Type} (p : Prop) [Decidable p] (a b : State × β) :
    haltView (if p then a else b).1 = if p then haltView a.1 else haltView b.1 := apply_ite (haltView ·.1) p a b

/-! ## Updates of one field -/

@[simp] theorem setLant_haltView (s p l) : haltView (setLant s p l) = haltView s := (rfl)
@[simp] theorem modLant_haltView (s p f) : haltView (modLant s p f) = haltView s := (rfl)
@[simp] theorem modJob_haltView (s r f) : haltView (modJob s r f) = haltView s := (rfl)
@[simp] theorem delJob_haltView (s r) : haltView (delJob s r) = haltView s := (rfl)
@[simp] theorem modDesc_haltView (s r f) : haltView (modDesc s r f) = haltView s := (rfl)
@[simp] theorem modRing_haltView (s r f) : haltView (modRing s r f) = haltView s := (rfl)
@[simp] theorem modMgmt_haltView (s f) : haltView (modMgmt s f) = haltView s := (rfl)
@[simp] theorem kSet_haltView (s p k) : haltView (kSet s p k) = haltView s := (rfl)
@[simp] theorem setBus_haltView (s x) : haltView (setBus s x) = haltView s := (rfl)
@[simp] theorem noteSpec_haltView (s k e) : haltView (noteSpec s k e) = haltView s := (rfl)
@[simp] theorem popStream_haltView (s r) : haltView (popStream s r) = haltView s := (rfl)
@[simp] theorem launch_haltView (s f) : haltView (launch s f) = haltView s := (rfl)

@[simp] theorem noteWrite_haltView (s isDram start len now until_ src) :
    haltView (noteWrite s isDram start len now until_ src) = haltView s := (rfl)

@[simp] theorem startGrid_haltView (s) : haltView (startGrid s) = haltView s := (rfl)
@[simp] theorem busyNow_haltView (s) : haltView (busyNow s) = haltView s := (rfl)
@[simp] theorem beginExec_haltView (s d) : haltView (beginExec s d) = haltView s := (rfl)
@[simp] theorem hostWrite_haltView (s a bs) : haltView (hostWrite s a bs) = haltView s := by simp [hostWrite]
@[simp] theorem raiseIrq_haltView (s x) : haltView (raiseIrq s x) = haltView s := by simp [raiseIrq]
@[simp] theorem extend_haltView (s i d) : haltView (extend s i d) = haltView s := by simp [extend]
@[simp] theorem writeHeader_haltView (s) : haltView (writeHeader s) = haltView s := by simp [writeHeader]
@[simp] theorem refreshHeader_haltView (s) : haltView (refreshHeader s) = haltView s := by simp [refreshHeader]

@[simp] theorem emberEvent_haltView (s cls words spec) : haltView (emberEvent s cls words spec) = haltView s := by
  obtain ⟨e, h⟩ := emberEvent_eq s cls words spec
  simp [h]

@[simp] theorem emberFlushStart_haltView (s) : haltView (emberFlushStart s) = haltView s := by simp [emberFlushStart]

/-! ## Operations -/

@[simp] theorem setPlaceRam_haltView (s pl r) : haltView (setPlaceRam s pl r) = haltView s := by
  unfold setPlaceRam
  split <;> simp

@[simp] theorem placeWrite_haltView (s pl bs) : haltView (placeWrite s pl bs) = haltView s := by simp [placeWrite]
@[simp] theorem storeAt_haltView (s base bs) : haltView (storeAt s base bs) = haltView s := by simp [storeAt]

@[simp] theorem reqReturn_haltView (s req v) : haltView (reqReturn s req v) = haltView s := by
  unfold reqReturn
  split <;> simp

@[simp] theorem hostDram_haltView (s h) : haltView (hostDram s h) = haltView s := by simp [hostDram]
@[simp] theorem drainWaits_haltView (s) : haltView (drainWaits s) = haltView s := by simp [drainWaits]
@[simp] theorem writeEntry_haltView (s r) : haltView (writeEntry s r) = haltView s := by simp [writeEntry]
@[simp] theorem setRState_haltView (s r st) : haltView (setRState s r st) = haltView s := by simp [setRState]

@[simp] theorem traceAdd_haltView (s kind r fl arg slot detail planId) :
    haltView (traceAdd s kind r fl arg slot detail planId) = haltView s := by
  simp [traceAdd]

@[simp] theorem traceDesc_haltView (s kind d arg detail) : haltView (traceDesc s kind d arg detail) = haltView s := by
  simp [traceDesc]

@[simp] theorem wakeLanterns_haltView (s ps) : haltView (wakeLanterns s ps) = haltView s := by
  unfold wakeLanterns
  extract_lets cold s1
  split
  · rfl
  · have h : haltView s1 = haltView s := foldl_haltView (fun _ _ => by rfl) cold s
    exact h

@[simp] theorem wakeJob_haltView (s d) : haltView (wakeJob s d) = haltView s := by
  unfold wakeJob
  split <;> simp

@[simp] theorem wakeReady_haltView (s) : haltView (wakeReady s) = haltView s := by simp [wakeReady]

@[simp] theorem settleReady_haltView (s d) : haltView (settleReady s d) = haltView s := by
  unfold settleReady
  split <;> simp

@[simp] theorem settleAll_haltView (s) : haltView (settleAll s) = haltView s := by simp [settleAll]
@[simp] theorem matchToken_haltView (b s d) : haltView (matchToken b s d) = haltView s := by simp [matchToken]
@[simp] theorem matchWhere_haltView (s b p) : haltView (matchWhere s b p) = haltView s := by simp [matchWhere]
@[simp] theorem matchWorld_haltView (s) : haltView (matchWorld s) = haltView s := by simp [matchWorld]
@[simp] theorem matchGoal_haltView (s g) : haltView (matchGoal s g) = haltView s := by simp [matchGoal]
@[simp] theorem matchSeeds_haltView (s n) : haltView (matchSeeds s n) = haltView s := by simp [matchSeeds]
@[simp] theorem matchAfter_haltView (s r) : haltView (matchAfter s r) = haltView s := by simp [matchAfter]
@[simp] theorem sendAbort_haltView (s img tag) : haltView (sendAbort s img tag) = haltView s := by simp [sendAbort]

@[simp] theorem complete_haltView (s r res) : haltView (complete s r res) = haltView s := by
  unfold complete
  split <;> simp

@[simp] theorem finish_haltView (s r st detail) : haltView (finish s r st detail) = haltView s := by simp [finish]

/-! ## Events -/

@[simp] theorem emberThaw_haltView (s) : haltView (emberThaw s) = haltView s := by simp [emberThaw]
@[simp] theorem endJobs_haltView (s) : haltView (endJobs s) = haltView s := by simp [endJobs]
@[simp] theorem failJob_haltView (s r cls) : haltView (failJob s r cls) = haltView s := by simp [failJob]
@[simp] theorem setEpoch_haltView (s e teNs) : haltView (setEpoch s e teNs) = haltView s := by simp [setEpoch]

/-! ## Cameras -/

@[simp] theorem camSet_haltView (s p c) : haltView (camSet s p c) = haltView s := by simp [camSet]
@[simp] theorem camMod_haltView (s p f) : haltView (camMod s p f) = haltView s := by simp [camMod]

@[simp] theorem applyTap_haltView (s c ns xs) : haltView (applyTap s c ns xs) = haltView s := by
  unfold applyTap
  split <;> simp

@[simp] theorem tapFrame_haltView (s f) : haltView (tapFrame s f) = haltView s := by
  unfold tapFrame
  split <;> simp

@[simp] theorem dropFrames_haltView (s p) : haltView (dropFrames s p) = haltView s := by simp [dropFrames]

/-! ## Spouts -/

@[simp] theorem chanSet_haltView (s ch v) : haltView (chanSet s ch v) = haltView s := by
  cases ch <;> rfl

@[simp] theorem coreSignal_haltView (s) : haltView (coreSignal s) = haltView s := by simp [coreSignal]
@[simp] theorem glowSignal_haltView (s) : haltView (glowSignal s) = haltView s := by simp [glowSignal]
@[simp] theorem driverIrq_haltView (s enableBit) : haltView (driverIrq s enableBit) = haltView s := by simp [driverIrq]
@[simp] theorem agentIrq_haltView (s enableBit) : haltView (agentIrq s enableBit) = haltView s := by simp [agentIrq]

@[simp] theorem signalSet_haltView (s a) : haltView (signalSet s a) = haltView s := by
  unfold signalSet
  split <;> simp

@[simp] theorem signalClear_haltView (s a) : haltView (signalClear s a) = haltView s := by
  unfold signalClear
  split <;> simp

@[simp] theorem signalAck_haltView (s a) : haltView (signalAck s a) = haltView s := by simp [signalAck]
@[simp] theorem chanRecvReset_haltView (s ch) : haltView (chanRecvReset s ch) = haltView s := by simp [chanRecvReset]
@[simp] theorem chanSendReset_haltView (s ch) : haltView (chanSendReset s ch) = haltView s := by simp [chanSendReset]
@[simp] theorem dropLocks_haltView (s held) : haltView (dropLocks s held) = haltView s := by simp [dropLocks]

@[simp] theorem lockRead_haltView (s req n) : haltView (lockRead s req n).1 = haltView s := by
  unfold lockRead
  split <;> rfl

@[simp] theorem chanBothReset_haltView (s ch) : haltView (chanBothReset s ch) = haltView s := by simp [chanBothReset]
@[simp] theorem bothEndsReset_haltView (s p) : haltView (bothEndsReset s p) = haltView s := by simp [bothEndsReset]
@[simp] theorem gateDiscard_haltView (s) : haltView (gateDiscard s) = haltView s := by simp [gateDiscard]
@[simp] theorem bufWrite_haltView (s ch bs off) : haltView (bufWrite s ch bs off) = haltView s := by simp [bufWrite]
@[simp] theorem recvWord_haltView (s ch w) : haltView (recvWord s ch w).1 = haltView s := by simp [recvWord]

@[simp] theorem partDone_haltView (s ch) : haltView (partDone s ch) = haltView s := by
  unfold partDone
  split <;> simp

@[simp] theorem ackWrite_haltView (s ch seq code) : haltView (ackWrite s ch seq code) = haltView s := by simp [ackWrite]

@[simp] theorem putMessage_haltView (s ch m) : haltView (putMessage s ch m) = haltView s := by
  unfold putMessage
  split <;> simp

@[simp] theorem statusClear_haltView (s ch w) : haltView (statusClear s ch w) = haltView s := by simp [statusClear]

@[simp] theorem sendOn_haltView (s ch msg) : haltView (sendOn s ch msg) = haltView s := by
  unfold sendOn
  dsimp only
  split
  · cases msg <;> simp
  · split <;> simp

@[simp] theorem refuseMessage_haltView (s ch m) : haltView (refuseMessage s ch m) = haltView s := by
  unfold refuseMessage
  dsimp only
  split <;> simp

/-! ## Ember -/

@[simp] theorem flushEnd_haltView (s) : haltView (flushEnd s) = haltView s := by
  unfold flushEnd
  dsimp only
  split <;> simp

@[simp] theorem cursorWrite_haltView (s v) : haltView (cursorWrite s v) = haltView s := by simp [cursorWrite]

/-! ## K-links -/

@[simp] theorem mapDue_haltView (s) : haltView (mapDue s) = haltView s := by simp [mapDue]
@[simp] theorem kTrain_haltView (s p k) : haltView (kTrain s p k) = haltView s := by simp [kTrain]
@[simp] theorem kFail_haltView (s p) : haltView (kFail s p) = haltView s := by simp [kFail]
@[simp] theorem kEnable_haltView (on s p) : haltView (kEnable on s p) = haltView s := by simp [kEnable]
@[simp] theorem klCtrlWrite_haltView (s v) : haltView (klCtrlWrite s v) = haltView s := by simp [klCtrlWrite]
@[simp] theorem failNowWhere_haltView (s cls p) : haltView (failNowWhere s cls p) = haltView s := by simp [failNowWhere]
@[simp] theorem findAgain_haltView (s) : haltView (findAgain s) = haltView s := by simp [findAgain]
@[simp] theorem takeWorldSet_haltView (s set) : haltView (takeWorldSet s set) = haltView s := by simp [takeWorldSet]

/-! ## Motion ports -/

@[simp] theorem nodeSet_haltView (s i n) : haltView (nodeSet s i n) = haltView s := by simp [nodeSet]

@[simp] theorem sendSetpoints_haltView (s port) : haltView (sendSetpoints s port) = haltView s := by
  unfold sendSetpoints
  extract_lets mine inOrder
  refine (foldl_haltView (fun t ic => ?_) _ _).trans rfl
  split <;> simp

/-! ## Security -/

@[simp] theorem extendEvent_haltView (s code) : haltView (extendEvent s code) = haltView s := by simp [extendEvent]
@[simp] theorem svcAck_haltView (s code) : haltView (svcAck s code) = haltView s := by simp [svcAck]

@[simp] theorem svcTake_haltView (s) {f : State → State} (hf : haltView (f s) = haltView s) :
    haltView (svcTake s f) = haltView s := by
  unfold svcTake
  split <;> simp [hf]

@[simp] theorem installSession_haltView (s secret) : haltView (installSession s secret) = haltView s := by
  simp [installSession]

@[simp] theorem dropExchange_haltView (s) : haltView (dropExchange s) = haltView s := by simp [dropExchange]

/-! ## Power -/

@[simp] theorem assignMap_haltView (s) : haltView (assignMap s) = haltView s := by simp [assignMap]
@[simp] theorem extendFuses_haltView (s) : haltView (extendFuses s) = haltView s := by simp [extendFuses]
@[simp] theorem retire_haltView (s failed) : haltView (retire s failed) = haltView s := by simp [retire]
@[simp] theorem clearWorld_haltView (s) : haltView (clearWorld s) = haltView s := by simp [clearWorld]
@[simp] theorem loseWorld_haltView (s) : haltView (loseWorld s) = haltView s := by simp [loseWorld]
@[simp] theorem loseMemories_haltView (s restore) : haltView (loseMemories s restore) = haltView s := by simp [loseMemories]
@[simp] theorem freshLanterns_haltView (s) : haltView (freshLanterns s) = haltView s := by simp [freshLanterns]
@[simp] theorem emberBoot_haltView (s triggers) : haltView (emberBoot s triggers) = haltView s := by simp [emberBoot]
@[simp] theorem stepDone_haltView (s n) : haltView (stepDone s n) = haltView s := by simp [stepDone]
@[simp] theorem freeAll_haltView (s) : haltView (freeAll s) = haltView s := by simp [freeAll]
@[simp] theorem enterDoze_haltView (s) : haltView (enterDoze s) = haltView s := by simp [enterDoze]
@[simp] theorem dozeLeave_haltView (s) : haltView (dozeLeave s) = haltView s := by simp [dozeLeave]
@[simp] theorem pwrCtrlWrite_haltView (s v) : haltView (pwrCtrlWrite s v) = haltView s := by simp [pwrCtrlWrite]
@[simp] theorem leavePilot_haltView (s) : haltView (leavePilot s) = haltView s := by simp [leavePilot]
@[simp] theorem pilotTimeLatch_haltView (s) : haltView (pilotTimeLatch s) = haltView s := by simp [pilotTimeLatch]

/-! ## Management -/

@[simp] theorem reconfigure_haltView (s) : haltView (reconfigure s) = haltView s := by simp [reconfigure]

@[simp] theorem restartImage_haltView (s imageOk flashOk digest) :
    haltView (restartImage s imageOk flashOk digest) = haltView s := by
  simp [restartImage]

@[simp] theorem loadCtrlWrite_haltView (s v) : haltView (loadCtrlWrite s v) = haltView s := by simp [loadCtrlWrite]

@[simp] theorem loadWinWrite_haltView (s off data) : haltView (loadWinWrite s off data) = haltView s := by
  simp [loadWinWrite]

/-! ## Faults -/

@[simp] theorem unitEffect_haltView (s cls unit) : haltView (unitEffect s cls unit) = haltView s := by
  unfold unitEffect
  repeat' split
  all_goals simp

@[simp] theorem requeue_haltView (s d) : haltView (requeue s d) = haltView s := by
  unfold requeue
  repeat' split
  all_goals simp

@[simp] theorem requeueAll_haltView (s) : haltView (requeueAll s) = haltView s := by simp [requeueAll]
@[simp] theorem postEmptySeeds_haltView (s) : haltView (postEmptySeeds s) = haltView s := by simp [postEmptySeeds]
@[simp] theorem passDone_haltView (s p) : haltView (passDone s p) = haltView s := by simp [passDone]

/-! ## Memory -/

@[simp] theorem setGroup_haltView (s a r) : haltView (setGroup s a r) = haltView s := by
  unfold setGroup
  split <;> simp

@[simp] theorem wakeFor_haltView (s pl) : haltView (wakeFor s pl) = haltView s := by
  unfold wakeFor
  split <;> simp

@[simp] theorem wakeRange_haltView (s pl n) : haltView (wakeRange s pl n) = haltView s := by
  unfold wakeRange
  split <;> simp

@[simp] theorem poolPut_haltView (s p a bs) : haltView (poolPut s p a bs) = haltView s := by simp [poolPut]

@[simp] theorem setCollide_haltView (s a) : haltView (setCollide s a) = haltView s := by
  unfold setCollide
  split <;> simp

@[simp] theorem wordWrite_haltView (s p w be data) : haltView (wordWrite s p w be data) = haltView s := by simp [wordWrite]
@[simp] theorem settleSleep_haltView (s now) : haltView (settleSleep s now) = haltView s := by simp [settleSleep]
@[simp] theorem unsupported_haltView (s) : haltView (unsupported s) = haltView s := by simp [unsupported]

@[simp] theorem modRetain_haltView (s u f) : haltView (modRetain s u f) = haltView s := by
  unfold modRetain
  split <;> simp

/-! ## Beacon -/

@[simp] theorem modCounts_haltView (s r f) : haltView (modCounts s r f) = haltView s := by simp [modCounts]
@[simp] theorem addDups_haltView (s j n) : haltView (addDups s j n) = haltView s := by simp [addDups]
@[simp] theorem pushOffer_haltView (s p r) : haltView (pushOffer s p r) = haltView s := by simp [pushOffer]
@[simp] theorem queueOffers_haltView (s p) : haltView (queueOffers s p) = haltView s := by simp [queueOffers]

/-! ## Planning -/

@[simp] theorem countRange_haltView (s p n) : haltView (countRange s p n) = haltView s := by
  unfold countRange
  repeat' split
  all_goals simp

@[simp] theorem opDrawSeeds_haltView (s j r m) : haltView (opDrawSeeds s j r m) = haltView s := by simp [opDrawSeeds]
@[simp] theorem addCand_haltView (s j c) : haltView (addCand s j c) = haltView s := by simp [addCand]

@[simp] theorem opGenerate_haltView (s p j r m l index) : haltView (opGenerate s p j r m l index) = haltView s := by
  unfold opGenerate
  dsimp only
  repeat' split
  all_goals simp

@[simp] theorem modCand_haltView (s j p f) : haltView (modCand s j p f) = haltView s := by simp [modCand]
@[simp] theorem opTorque_haltView (s j r m l index) : haltView (opTorque s j r m l index) = haltView s := by simp [opTorque]

@[simp] theorem opQuery_haltView (s p j r m l index) : haltView (opQuery s p j r m l index) = haltView s := by
  unfold opQuery
  split <;> simp

@[simp] theorem opScore_haltView (s p j r m l index) : haltView (opScore s p j r m l index) = haltView s := by
  unfold opScore
  split <;> simp

@[simp] theorem opMeasure_haltView (s p j l k) : haltView (opMeasure s p j l k) = haltView s := by
  unfold opMeasure
  split <;> simp

/-! ## Tensor stages -/

@[simp] theorem opAssemble_haltView (s p j r m k) : haltView (opAssemble s p j r m k) = haltView s := by
  unfold opAssemble
  split <;> simp

@[simp] theorem opTsSetup_haltView (s p j r m w l k) : haltView (opTsSetup s p j r m w l k) = haltView s := by
  unfold opTsSetup
  split <;> simp

@[simp] theorem settleSolves_haltView (s r all) : haltView (settleSolves s r all) = haltView s := by
  unfold settleSolves
  repeat' split
  all_goals simp

@[simp] theorem opIterate_haltView (s p j r m w l k kind) : haltView (opIterate s p j r m w l k kind) = haltView s := by
  unfold opIterate
  split <;> simp

@[simp] theorem startIk_haltView (s j n target x0) : haltView (startIk s j n target x0) = haltView s := by simp [startIk]

/-! ## Routes -/

@[simp] theorem opRoutePass_haltView (s p j r) : haltView (opRoutePass s p j r) = haltView s := by simp [opRoutePass]

@[simp] theorem opIkGoal_haltView (s j m) : haltView (opIkGoal s j m) = haltView s := by
  unfold opIkGoal
  split <;> simp

@[simp] theorem opRouteEnds_haltView (s j r m) : haltView (opRouteEnds s j r m) = haltView s := by simp [opRouteEnds]

@[simp] theorem opRouteExtract_haltView (s p j r) : haltView (opRouteExtract s p j r) = haltView s := by
  unfold opRouteExtract
  split <;> simp

@[simp] theorem opRouteTargets_haltView (s j r m) : haltView (opRouteTargets s j r m) = haltView s := by
  simp [opRouteTargets]

@[simp] theorem opRouteSeed_haltView (s j r m) : haltView (opRouteSeed s j r m) = haltView s := by simp [opRouteSeed]

/-! ## Rings -/

@[simp] theorem ringOff_haltView (s r) : haltView (ringOff s r) = haltView s := by simp [ringOff]

@[simp] theorem settleRing_haltView (s r) : haltView (settleRing s r) = haltView s := by
  unfold settleRing
  dsimp only
  repeat' split
  all_goals simp

@[simp] theorem takeEntry_haltView (s0 x) : haltView (takeEntry s0 x) = haltView s0 := by simp [takeEntry]
@[simp] theorem acceptOne_haltView (s x) : haltView (acceptOne s x) = haltView s := by simp [acceptOne]
@[simp] theorem replayRest_haltView (s r descs) : haltView (replayRest s r descs) = haltView s := by simp [replayRest]
@[simp] theorem lostRest_haltView (s r) : haltView (lostRest s r) = haltView s := by simp [lostRest]

@[simp] theorem applyCancel_haltView (s own target) : haltView (applyCancel s own target) = haltView s := by
  unfold applyCancel
  dsimp only
  repeat' split
  all_goals simp

@[simp] theorem admitCancel_haltView (s d ring index) : haltView (admitCancel s d ring index) = haltView s := by
  unfold admitCancel
  split <;> simp

@[simp] theorem writeRecord_haltView (s d res) : haltView (writeRecord s d res) = haltView s := by
  unfold writeRecord
  split <;> simp

@[simp] theorem afterRelease_haltView (s d) : haltView (afterRelease s d) = haltView s := by simp [afterRelease]
@[simp] theorem retireEntry_haltView (s d) : haltView (retireEntry s d) = haltView s := by simp [retireEntry]
@[simp] theorem released_haltView (s d res) : haltView (released s d res) = haltView s := by simp [released]

@[simp] theorem releaseOne_haltView (s r) : haltView (releaseOne s r) = haltView s := by
  unfold releaseOne
  split <;> simp

@[simp] theorem disableRing_haltView (s r) : haltView (disableRing s r) = haltView s := by
  unfold disableRing
  dsimp only
  split <;> simp

@[simp] theorem releaseRing_haltView (n s r) : haltView (releaseRing n s r) = haltView s := by
  induction n generalizing s with
  | zero => rfl
  | succ n ih => simp [releaseRing, ih]

@[simp] theorem holdRecord_haltView (s d) : haltView (holdRecord s d) = haltView s := by simp [holdRecord]
@[simp] theorem readRest_haltView (replay s r) : haltView (readRest replay s r) = haltView s := by simp [readRest]

/-! ## Descriptors -/

@[simp] theorem runHead_haltView (s ring isIt) {f : State → DescEntry → State}
    (hf : ∀ t d, haltView (f t d) = haltView t) : haltView (runHead s ring isIt f) = haltView s := by
  unfold runHead
  split <;> simp [hf]

@[simp] theorem dstWrite_haltView (s r a bs) : haltView (dstWrite s r a bs) = haltView s := by simp [dstWrite]
@[simp] theorem setGoal_haltView (s ref n g) : haltView (setGoal s ref n g) = haltView s := by simp [setGoal]

@[simp] theorem goalSet_haltView (s d n rec_) : haltView (goalSet s d n rec_) = haltView s := by
  unfold goalSet
  split <;> simp

@[simp] theorem loadSeeds_haltView (s ref cls mode new) : haltView (loadSeeds s ref cls mode new) = haltView s := by
  simp [loadSeeds]

@[simp] theorem seedsLoad_haltView (s d len cls mode buf) : haltView (seedsLoad s d len cls mode buf) = haltView s := by
  unfold seedsLoad
  split <;> simp

/-! ## Fusion -/

@[simp] theorem fillProbes_haltView (s r set) : haltView (fillProbes s r set) = haltView s := by simp [fillProbes]

/-! ## Inference -/

@[simp] theorem modWick_haltView (s p w f) : haltView (modWick s p w f) = haltView s := by simp [modWick]

@[simp] theorem opChannelScale_haltView (s p w acc k bias) : haltView (opChannelScale s p w acc k bias) = haltView s := by
  simp [opChannelScale]

@[simp] theorem putRow_haltView (s p w first xs) : haltView (putRow s p w first xs) = haltView s := by simp [putRow]
@[simp] theorem putElems_haltView (s p w rd t xs) : haltView (putElems s p w rd t xs) = haltView s := by simp [putElems]

@[simp] theorem opElementwise_haltView (s p w op t rd ra rb) : haltView (opElementwise s p w op t rd ra rb) = haltView s := by
  simp [opElementwise]

@[simp] theorem opPool_haltView (s p w kind t first n rd) : haltView (opPool s p w kind t first n rd) = haltView s := by
  simp [opPool]

@[simp] theorem opBilinear_haltView (s p w t first x y rd) : haltView (opBilinear s p w t first x y rd) = haltView s := by
  simp [opBilinear]

@[simp] theorem opSumParts_haltView (s p w order first rd) : haltView (opSumParts s p w order first rd) = haltView s := by
  simp [opSumParts]

@[simp] theorem opGraspPose_haltView (s j r m row) : haltView (opGraspPose s j r m row) = haltView s := by
  unfold opGraspPose
  dsimp only
  repeat' split
  all_goals simp

@[simp] theorem opPostSolution_haltView (s j k) : haltView (opPostSolution s j k) = haltView s := by
  unfold opPostSolution
  split <;> simp

@[simp] theorem opOffer_haltView (s p w d pos reg) : haltView (opOffer s p w d pos reg) = haltView s := by
  unfold opOffer
  dsimp only
  split <;> simp

@[simp] theorem opOfferRaw_haltView (s p w first) : haltView (opOfferRaw s p w first) = haltView s := by simp [opOfferRaw]

/-! ## Plans, weights and recipes -/

@[simp] theorem placeFill_haltView (s f) : haltView (placeFill s f) = haltView s := by simp [placeFill]
@[simp] theorem fillRegions_haltView (s owner fs) : haltView (fillRegions s owner fs) = haltView s := by simp [fillRegions]

@[simp] theorem stageRecipe_haltView (s) : haltView (stageRecipe s) = haltView s := by
  unfold stageRecipe
  split <;> simp

@[simp] theorem installPlan_haltView (s img) : haltView (installPlan s img) = haltView s := by simp [installPlan]

@[simp] theorem planLoad_haltView (s d b len pid) : haltView (planLoad s d b len pid) = haltView s := by
  unfold planLoad
  split <;> simp

@[simp] theorem installWeights_haltView (s d bytes) : haltView (installWeights s d bytes) = haltView s := by
  simp [installWeights]

@[simp] theorem weightsLoad_haltView (s d b len id) : haltView (weightsLoad s d b len id) = haltView s := by
  unfold weightsLoad
  dsimp only
  repeat' split
  all_goals simp

@[simp] theorem recipeLoad_haltView (s d b len) : haltView (recipeLoad s d b len) = haltView s := by
  unfold recipeLoad
  split <;> simp

@[simp] theorem dropParse_haltView (s ring) : haltView (dropParse s ring) = haltView s := by simp [dropParse]
@[simp] theorem installRecipe_haltView (s w r) : haltView (installRecipe s w r) = haltView s := by simp [installRecipe]

/-! ## Slot boundary -/

@[simp] theorem clearBytes_haltView (s) : haltView (clearBytes s) = haltView s := by simp [clearBytes]
@[simp] theorem stopFusion_haltView (s) : haltView (stopFusion s) = haltView s := by simp [stopFusion]

@[simp] theorem takeRecipe_haltView (s) : haltView (takeRecipe s) = haltView s := by
  unfold takeRecipe
  split <;> simp

@[simp] theorem takeAborts_haltView (s) : haltView (takeAborts s) = haltView s := by simp [takeAborts]
@[simp] theorem takeSpec_haltView (s) : haltView (takeSpec s) = haltView s := by simp [takeSpec]
@[simp] theorem freeLanterns_haltView (s j) : haltView (freeLanterns s j) = haltView s := foldl_haltView (fun _ _ => by rfl) _ s

@[simp] theorem endFusion_haltView (s j set) : haltView (endFusion s j set).1 = haltView s := by
  unfold endFusion
  dsimp only
  split
  · rfl
  · split <;> simp

@[simp] theorem deliverCarried_haltView (s j) : haltView (deliverCarried s j).1 = haltView s := by
  unfold deliverCarried
  split <;> simp

@[simp] theorem deliverInbox_haltView (s j) : haltView (deliverInbox s j).1 = haltView s := by
  unfold deliverInbox
  split <;> simp

@[simp] theorem endInference_haltView (s j) : haltView (endInference s j).1 = haltView s := by simp [endInference]

@[simp] theorem writeTensors_haltView (s r) : haltView (writeTensors s r) = haltView s := by
  unfold writeTensors
  repeat' split
  all_goals simp

@[simp] theorem abortGroup_haltView (s j) : haltView (abortGroup s j) = haltView s := by simp [abortGroup]
@[simp] theorem dropHubIn_haltView (s r) : haltView (dropHubIn s r) = haltView s := by simp [dropHubIn]
@[simp] theorem releaseAborted_haltView (s j) : haltView (releaseAborted s j) = haltView s := by simp [releaseAborted]

@[simp] theorem takeSave_haltView (s own t j) : haltView (takeSave s own t j) = haltView s := by
  unfold takeSave
  extract_lets k s1 s2
  split
  · rfl
  · exact foldl_haltView (fun _ _ => by rfl) _ s2

@[simp] theorem saveOne_haltView (s own) : haltView (saveOne s own) = haltView s := by
  unfold saveOne
  repeat' split
  all_goals simp

@[simp] theorem sendExchange_haltView (s j) : haltView (sendExchange s j) = haltView s := by
  unfold sendExchange
  split <;> simp

@[simp] theorem idleApply_haltView (s) : haltView (idleApply s) = haltView s := by simp [idleApply]

/-! ## Slot walk -/

@[simp] theorem beginFusion_haltView (s j) : haltView (beginFusion s j) = haltView s := by
  unfold beginFusion
  split <;> simp

@[simp] theorem fillBasins_haltView (s j) : haltView (fillBasins s j) = haltView s := foldl_haltView (fun _ _ => by rfl) _ s
@[simp] theorem keepState_haltView (s j) : haltView (keepState s j) = haltView s := by simp [keepState]
@[simp] theorem settlePower_haltView (s) : haltView (settlePower s) = haltView s := by simp [settlePower]
@[simp] theorem noteBusy_haltView (s) : haltView (noteBusy s) = haltView s := by simp [noteBusy]
@[simp] theorem stepGrid_haltView (s) : haltView (stepGrid s) = haltView s := by simp [stepGrid]

/-! ## Confirmation -/

@[simp] theorem abortSpec_haltView (s r j) : haltView (abortSpec s r j) = haltView s := by simp [abortSpec]
@[simp] theorem confirmSpec_haltView (s r) : haltView (confirmSpec s r) = haltView s := by simp [confirmSpec]
@[simp] theorem epochCheck_haltView (s job j) : haltView (epochCheck s job j) = haltView s := by simp [epochCheck]

/-! ## Lanterns and wicks -/

@[simp] theorem meshSend_haltView (old p s e) : haltView (meshSend old p s e) = haltView s := by
  unfold meshSend
  repeat' split
  all_goals simp

@[simp] theorem lineWord_haltView (p ops c s w) : haltView (lineWord p ops c s w) = haltView s := by simp [lineWord]
@[simp] theorem setFlight_haltView (s id f) : haltView (setFlight s id f) = haltView s := by simp [setFlight]

@[simp] theorem writeTakes_haltView (s p k w) : haltView (writeTakes s p k w) = haltView s := by
  unfold writeTakes
  split <;> simp

@[simp] theorem lineTaken_haltView (p id k s) : haltView (lineTaken p id k s) = haltView s := by
  unfold lineTaken
  split <;> simp

@[simp] theorem rillPop_haltView (s a) : haltView (rillPop s a) = haltView s := by
  unfold rillPop
  split <;> simp

@[simp] theorem rillEnter_haltView (p cycle x r) : haltView (rillEnter p cycle x r).1 = haltView x.1 := by
  unfold rillEnter
  split <;> simp

@[simp] theorem rillQueue_haltView (s p old rill) : haltView (rillQueue s p old rill).1 = haltView s := by simp [rillQueue]

/-! ## Registers -/

@[simp] theorem clearRc_haltView (s off counted) : haltView (clearRc s off counted) = haltView s := by
  unfold clearRc
  repeat' split
  all_goals simp

@[simp] theorem readWord0_haltView (s off counted) : haltView (readWord0 s off counted).1 = haltView s := by simp [readWord0]
@[simp] theorem readWord2_haltView (s off) : haltView (readWord2 s off).1 = haltView s := by simp [readWord2]

@[simp] theorem readWord_haltView (s bar off counted) : haltView (readWord s bar off counted).1 = haltView s := by
  cases bar <;> simp [readWord]

@[simp] theorem poolModeWrite_haltView (s v) : haltView (poolModeWrite s v) = haltView s := by simp [poolModeWrite]
@[simp] theorem gridWrite_haltView (s v) : haltView (gridWrite s v) = haltView s := by simp [gridWrite]
@[simp] theorem specWrite_haltView (s v) : haltView (specWrite s v) = haltView s := by simp [specWrite]
@[simp] theorem pollWrite_haltView (s v) : haltView (pollWrite s v) = haltView s := by simp [pollWrite]

theorem withRings_haltView (s : State) (r : Rings) : haltView { s with rings := r } = haltView s := rfl

@[simp] theorem blockBase_haltView (s off x) : haltView (blockBase s off x) = haltView s := by
  unfold blockBase
  split
  · rfl
  · split
    case h_5 => rfl
    all_goals exact withRings_haltView s _

@[simp] theorem prioWrite_haltView (s r v) : haltView (prioWrite s r v) = haltView s := by simp [prioWrite]

@[simp] theorem sluiceWrite_haltView (s off v) : haltView (sluiceWrite s off v) = haltView s := by
  unfold sluiceWrite
  repeat' split
  all_goals simp

@[simp] theorem collideClear_haltView (s off v) : haltView (collideClear s off v) = haltView s := by
  unfold collideClear
  repeat' split
  all_goals simp

@[simp] theorem memRegWrite_haltView (s off v) : haltView (memRegWrite s off v) = haltView s := by
  unfold memRegWrite
  repeat' split
  all_goals simp

@[simp] theorem receiverWrite_haltView (s ch off v) : haltView (receiverWrite s ch off v) = haltView s := by
  simp [receiverWrite]

@[simp] theorem headerFirst_haltView (s) : haltView (headerFirst s) = haltView s := by simp [headerFirst]
@[simp] theorem setW1c_setSender_haltView (s ch sets) : haltView (setW1c.setSender s ch sets) = haltView s := chanSet_haltView ..

@[simp] theorem setW1c_haltView (s bar off sets) : haltView (setW1c s bar off sets) = haltView s := by
  unfold setW1c
  repeat' split
  all_goals simp

@[simp] theorem setBits_haltView (s bar off size sets) : haltView (setBits s bar off size sets) = haltView s := by
  unfold setBits
  split <;> simp

/-! ## What is kept -/

/-- The rule of HALT: STOP_REQ_N is asserted, and no hand-off has followed. -/
def HaltView.Stops (v : HaltView) : Prop := v.state = .halt → v.stop = true ∧ v.handed = false

theorem haltStops_iff {s : State} : HaltStops s ↔ (haltView s).Stops := Iff.rfl

/-- HALT is kept, and so is its rule. -/
def HaltKept (v w : HaltView) : Prop := (v.state = .halt → w.state = .halt) ∧ (v.Stops → w.Stops)

@[simp] theorem HaltKept.refl (v : HaltView) : HaltKept v v := ⟨id, id⟩

theorem HaltKept.trans {u v w : HaltView} (h : HaltKept u v) (k : HaltKept v w) : HaltKept u w :=
  ⟨k.1 ∘ h.1, k.2 ∘ h.2⟩

/-- In HALT with STOP_REQ_N asserted everything is kept. -/
@[simp] theorem haltKept_stopped (v : HaltView) : HaltKept v ⟨.halt, false, true⟩ := ⟨fun _ => rfl, fun _ _ => ⟨rfl, rfl⟩⟩

theorem HaltView.stops_of_ne_halt {v : HaltView} (h : v.state ≠ .halt) : v.Stops := fun hhalt => absurd hhalt h

/-- Outside HALT there is nothing to keep but the rule. -/
theorem HaltKept.of_ne_halt {u v w : HaltView} (hk : HaltKept u v) (hne : v.state ≠ .halt) (h : v.Stops → w.Stops) :
    HaltKept u w :=
  ⟨fun hu => absurd (hk.1 hu) hne, h ∘ hk.2⟩

theorem HaltKept.of_state {u : HaltView} {w : HaltView} {s : State} (hk : HaltKept u (haltView s)) {st : SState}
    (hs : s.safety.state = st) (hst : st ≠ .halt) (h : (haltView s).Stops → w.Stops) : HaltKept u w :=
  hk.of_ne_halt (fun hhalt => hst (hs.symm.trans hhalt)) h

@[simp] theorem ite_haltKept {v x y : HaltView} {p : Prop} [Decidable p] :
    HaltKept v (if p then x else y) ↔ (p → HaltKept v x) ∧ (¬ p → HaltKept v y) := by
  split <;> simp_all

section Kept
variable {hv : HaltView} {s : State} (hk : HaltKept hv (haltView s))

@[simp] theorem foldl_fst_haltKept {α β : Type} {f : State × β → α → State × β} {w : State × β} (hw : HaltKept hv (haltView w.1))
    (hf : ∀ w a, HaltKept (haltView w.1) (haltView (f w a).1)) (l : List α) : HaltKept hv (haltView (l.foldl f w).1) :=
  List.foldlRecOn (motive := fun w : State × β => HaltKept hv (haltView w.1)) l f hw fun w ht a _ => ht.trans (hf w a)

@[simp] theorem map_getD_haltKept {α : Type} {f : α → State} {t : State} (hf : ∀ a, HaltKept hv (haltView (f a)))
    (ht : HaltKept hv (haltView t)) (o : Option α) : HaltKept hv (haltView ((o.map f).getD t)) := by
  cases o with
  | none => exact ht
  | some a => exact hf a

include hk

@[simp] theorem foldl_haltKept {α : Type} {f : State → α → State} (hf : ∀ t a, HaltKept (haltView t) (haltView (f t a)))
    (l : List α) : HaltKept hv (haltView (l.foldl f s)) :=
  List.foldlRecOn (motive := fun t => HaltKept hv (haltView t)) l f hk fun t ht a _ => ht.trans (hf t a)

/-! ## STOP_REQ_N, relight and HALT -/

@[simp] theorem assertStop_haltKept : HaltKept hv (haltView (assertStop s)) := ⟨hk.1, fun _ _ => ⟨rfl, rfl⟩⟩

omit hk in
@[simp] theorem enterHalt_haltView (s) : haltView (enterHalt s) = ⟨.halt, false, true⟩ := by
  simp [enterHalt, assertStop, keepGates]

@[simp] theorem beginRelight_haltKept : HaltKept hv (haltView (beginRelight s)) := by
  unfold beginRelight
  split
  · exact hk
  · split
    · simp
    · next hstate _ =>
      rw [refreshHeader_haltView]
      exact hk.of_ne_halt (fun h => hstate (beq_iff_eq.mpr h)) fun _ => HaltView.stops_of_ne_halt SState.noConfusion

/-! ## The fault handler -/

@[simp] theorem handleNow_haltKept (e) : HaltKept hv (haltView (handleNow s e)) := by simp [handleNow, hk]
@[simp] theorem queueOverflow_haltKept : HaltKept hv (haltView (queueOverflow s)) := by simp [queueOverflow, hk]
@[simp] theorem handlerArrive_haltKept (cls) : HaltKept hv (haltView (handlerArrive s cls)) := by simp [handlerArrive, hk]

theorem nextS1_haltKept {t : State} (ht : nextS1 s = some t) : HaltKept hv (haltView t) := by
  unfold nextS1 at ht
  dsimp only at ht
  split at ht
  · obtain rfl := (Option.some.inj ht).symm
    simp [hk]
  · obtain ⟨e, -, rfl⟩ := Option.map_eq_some_iff.mp ht
    simp [hk]

@[simp] theorem nextS1_getD_haltKept : HaltKept hv (haltView ((nextS1 s).getD s)) := by
  cases h : nextS1 s with
  | none => exact hk
  | some t => exact nextS1_haltKept hk h

@[simp] theorem handlerDone_haltKept : HaltKept hv (haltView (handlerDone s)) := by
  unfold handlerDone
  dsimp only
  split
  next t _ _ h =>
    split at h
    · cases h
    · exact nextS1_haltKept (s := { s with safety := { s.safety with current := none } }) hk h
  all_goals simp [hk]

@[simp] theorem respondS1_haltKept (cls) : HaltKept hv (haltView (respondS1 s cls)) := by simp [respondS1, hk]

@[simp] theorem raiseEv_haltKept (cls words spec) : HaltKept hv (haltView (raiseEv s cls words spec)) := by
  simp [raiseEv, hk]

@[simp] theorem raise_haltKept (cls words) : HaltKept hv (haltView (raise s cls words)) := raiseEv_haltKept hk cls words false
@[simp] theorem raiseFor_haltKept (cls words r) : HaltKept hv (haltView (raiseFor s cls words r)) := by simp [raiseFor, hk]

@[simp] theorem stopReleaseWrite_haltKept : HaltKept hv (haltView (stopReleaseWrite s)) := by
  unfold stopReleaseWrite
  split
  · exact hk
  · split
    next h =>
      refine hk.trans ⟨id, fun hstops hhalt => ?_⟩
      exact absurd h (Bool.eq_false_iff.mp (hstops hhalt).2)
    · simp [hk]

/-! ## Accesses of memories -/

@[simp] theorem issue_haltKept (r cycle op) {f : State → State} (hf : ∀ t, HaltKept (haltView t) (haltView (f t))) :
    HaltKept hv (haltView (issue s r cycle op f)) := by
  unfold issue
  split
  · exact hk.trans (by simpa using hf (settleSleep (popStream s r) (absCycle s cycle)))
  · exact hk

@[simp] theorem dmaIssue_haltKept (req acc) {f : State → State} (hf : ∀ t, HaltKept (haltView t) (haltView (f t))) :
    HaltKept hv (haltView (dmaIssue s req acc f)) := by
  unfold dmaIssue
  split
  · exact issue_haltKept hk _ _ _ hf
  · exact hk.trans (hf s)

/-! ## Cameras -/

@[simp] theorem pushSet_haltKept (f) : HaltKept hv (haltView (pushSet s f)) := by simp [pushSet, hk]

@[simp] theorem closeSet_haltKept : HaltKept hv (haltView (closeSet s)) := by
  unfold closeSet
  split <;> simp [hk]

@[simp] theorem settleSet_haltKept : HaltKept hv (haltView (settleSet s)) := by
  unfold settleSet
  split <;> simp [hk]

@[simp] theorem leaveSets_haltKept (p) : HaltKept hv (haltView (leaveSets s p)) := by
  unfold leaveSets
  split <;> simp [hk]

@[simp] theorem judge_haltKept (p) : HaltKept hv (haltView (judge s p)) := by simp [judge, hk]

@[simp] theorem joinFrame_haltKept (p ctr f) : HaltKept hv (haltView (joinFrame s p ctr f)) := by
  unfold joinFrame
  dsimp only
  repeat' split
  all_goals simp [hk]

@[simp] theorem frameIn_haltKept (p whole f) : HaltKept hv (haltView (frameIn s p whole f)) := by simp [frameIn, hk]

/-! ## Spouts -/

@[simp] theorem releaseLocks_haltKept (req) : HaltKept hv (haltView (releaseLocks s req)) := by simp [releaseLocks, hk]
@[simp] theorem lockWrite_haltKept (req n v) : HaltKept hv (haltView (lockWrite s req n v)) := by simp [lockWrite, hk]
@[simp] theorem hostDriverReset_haltKept : HaltKept hv (haltView (hostDriverReset s)) := by simp [hostDriverReset, hk]
@[simp] theorem hostAgentReset_haltKept : HaltKept hv (haltView (hostAgentReset s)) := by simp [hostAgentReset, hk]
@[simp] theorem glowPartyReset_haltKept : HaltKept hv (haltView (glowPartyReset s)) := by simp [glowPartyReset, hk]
@[simp] theorem partnerReset_haltKept (p) : HaltKept hv (haltView (partnerReset s p)) := by simp [partnerReset, hk]
@[simp] theorem gateCheck_haltKept : HaltKept hv (haltView (gateCheck s)) := by simp [gateCheck, hk]

@[simp] theorem sendPost_haltKept (ch) : HaltKept hv (haltView (sendPost s ch)) := by
  unfold sendPost
  split <;> simp [hk]

/-! ## Ember -/

@[simp] theorem flashFault_haltKept : HaltKept hv (haltView (flashFault s)) := by simp [flashFault, hk]
@[simp] theorem flushFailed_haltKept : HaltKept hv (haltView (flushFailed s)) := by simp [flushFailed, hk]
@[simp] theorem freezeOn_haltKept : HaltKept hv (haltView (freezeOn s)) := by simp [freezeOn, hk]

/-! ## K-links -/

@[simp] theorem kRetrain_haltKept (p) : HaltKept hv (haltView (kRetrain s p)) := by simp [kRetrain, hk]
@[simp] theorem readExchange_haltKept (j slot) : HaltKept hv (haltView (readExchange s j slot)) := by simp [readExchange, hk]

/-! ## Motion ports -/

@[simp] theorem tagFail_haltKept : HaltKept hv (haltView (tagFail s)) := by simp [tagFail, hk]
@[simp] theorem syncBack_haltKept : HaltKept hv (haltView (syncBack s)) := by simp [syncBack, hk]
@[simp] theorem takeHello_haltKept (f i c) : HaltKept hv (haltView (takeHello s f i c)) := by simp [takeHello, hk]

@[simp] theorem takeFrame_haltKept (node counter tagOk) {f : Fin 32 → NodeCfg → State}
    (hf : ∀ i c, HaltKept hv (haltView (f i c))) : HaltKept hv (haltView (takeFrame s node counter tagOk f)) := by
  unfold takeFrame
  split <;> simp [hk, hf]

/-! ## Power -/

/-- Start-up's step 5 ends with a flush where an S1 event waits. -/
theorem flushIf_haltKept (flush : Bool) (n) :
    HaltKept hv (haltView { (if flush then emberFlushStart s else s) with pwr := { s.pwr with step := n } }) := by
  obtain ⟨e, he⟩ := emberFlushStart_eq s
  cases flush <;> simp [he, hk]

@[simp] theorem loadConfig_haltKept (o) : HaltKept hv (haltView (loadConfig o s)) := by
  unfold loadConfig
  extract_lets c period links _ _ _ _ s1 s2 s3 _ s4 flush
  have hs3 : HaltKept hv (haltView s3) := by simp [s3, s2, s1, hk]
  have hs4 : HaltKept hv (haltView s4) := by simp [s4, hs3]
  exact flushIf_haltKept hs4 flush 5

@[simp] theorem trainDies_haltKept (o) : HaltKept hv (haltView (trainDies o s)) := by
  unfold trainDies
  extract_lets bad _ _ s1 each
  have heach : ∀ m cls t, HaltKept (haltView t) (haltView (each m cls t)) := fun m cls t =>
    foldl_haltKept (.refl _) (fun t d => by simp) _
  have hs1 : HaltKept hv (haltView s1) := hk
  exact (hs1.trans (heach _ _ _)).trans (heach _ _ _)

@[simp] theorem failAssert_haltKept : HaltKept hv (haltView (failAssert s)) := by simp [failAssert, hk]
@[simp] theorem enterPilot_haltKept : HaltKept hv (haltView (enterPilot s)) := by simp [enterPilot, hk]

/-! ## Management -/

@[simp] theorem glowRestart_haltKept (imageOk flashOk digest) :
    HaltKept hv (haltView (glowRestart s imageOk flashOk digest)) := by
  simp [glowRestart, hk]

@[simp] theorem holdGlow_haltKept : HaltKept hv (haltView (holdGlow s)) := by simp [holdGlow, hk]

/-! ## Faults -/

@[simp] theorem admitRun_haltKept (d) : HaltKept hv (haltView (admitRun s d)) := by
  unfold admitRun
  extract_lets s1 self s2 hit s3
  have hhit : ∀ t b, haltView (hit t b) = haltView t := by
    intro t b
    unfold hit
    split <;> simp
  have hs3 : HaltKept hv (haltView s3) := by simp [s3, hhit, s2, s1, hk]
  split <;> simp [hs3]

@[simp] theorem admitRuns_haltKept : HaltKept hv (haltView (admitRuns s)) :=
  foldl_haltKept hk (fun t d => by simp) s.descs

/-! ## Memory -/

@[simp] theorem retainedAccess_haltKept (r) : HaltKept hv (haltView (retainedAccess s r)) := by simp [retainedAccess, hk]
@[simp] theorem planPut_haltKept (r pl bs) : HaltKept hv (haltView (planPut s r pl bs)) := by simp [planPut, hk]

@[simp] theorem failReq_haltKept (req cls) : HaltKept hv (haltView (failReq s req cls)) := by
  unfold failReq
  split <;> simp [hk]

@[simp] theorem atomic_haltKept (req pl op x) : HaltKept hv (haltView (atomic s req pl op x)) := by simp [atomic, hk]

@[simp] theorem rillAlone_haltKept (p addr acc req) : HaltKept hv (haltView (rillAlone s p addr acc req)) := by
  unfold rillAlone
  split <;> simp [hk]

@[simp] theorem settleRill_haltKept (p) : HaltKept hv (haltView (settleRill s p)) := by simp [settleRill, hk]

@[simp] theorem settlePlace_haltKept (a) : HaltKept hv (haltView (settlePlace s a)) := by
  unfold settlePlace
  split <;> simp [hk]

@[simp] theorem windowMiss_haltKept (r) : HaltKept hv (haltView (windowMiss s r)) := by simp [windowMiss, hk]

@[simp] theorem planFetch_haltKept (x pl ok latency) : HaltKept hv (haltView (planFetch s x pl ok latency)) := by
  simp [planFetch, hk]

@[simp] theorem fetchAwake_haltKept (x pl latency) : HaltKept hv (haltView (fetchAwake s x pl latency)) := by
  simp [fetchAwake, hk]

@[simp] theorem planStore_haltKept (x pl isDram until_) : HaltKept hv (haltView (planStore s x pl isDram until_)) := by
  unfold planStore
  split <;> simp [hk]

@[simp] theorem deliverTo_haltKept (f l) : HaltKept hv (haltView (deliverTo f s l)) := by simp [deliverTo, hk]
@[simp] theorem deliverAll_haltKept (f) : HaltKept hv (haltView (deliverAll s f)) := by simp [deliverAll, hk]

@[simp] theorem winAccess_haltKept (pl n write data) : HaltKept hv (haltView (winAccess s pl n write data)) := by
  unfold winAccess
  split <;> simp [hk]

@[simp] theorem memWindow_haltKept (off size write data) : HaltKept hv (haltView (memWindow s off size write data)) := by
  unfold memWindow
  repeat' split
  all_goals simp [hk]

@[simp] theorem rillTransfer_haltKept (x far) : HaltKept hv (haltView (rillTransfer s x far)) := by
  unfold rillTransfer
  repeat' split
  all_goals simp [hk]

@[simp] theorem multicast_haltKept (job cycle mask addr pl) : HaltKept hv (haltView (multicast s job cycle mask addr pl)) := by
  simp [multicast, hk]

/-! ## World -/

@[simp] theorem brickFor_haltKept (count bx by_ bz) : HaltKept hv (haltView (brickFor s count bx by_ bz).1) := by
  unfold brickFor
  dsimp only
  split
  · exact hk
  · split <;> simp [hk]

@[simp] theorem storeBricks_haltKept (r) : HaltKept hv (haltView (storeBricks s r)) :=
  foldl_haltKept hk (fun t e => by simp) s.world.dir

@[simp] theorem storeCoarse_haltKept (r) : HaltKept hv (haltView (storeCoarse s r)) :=
  foldl_haltKept hk (fun _ _ => planPut_haltKept (planPut_haltKept (.refl _) _ _ _) _ _ _) s.world.coarse

@[simp] theorem stageStore_haltKept (r base bs) : HaltKept hv (haltView (stageStore r s base bs)) := by simp [stageStore, hk]
@[simp] theorem allocate_haltKept (count bs) : HaltKept hv (haltView (allocate s count bs).1) := by simp [allocate, hk]

omit hk in
@[simp] theorem mergeEntry_haltKept {a : State × List Nat} (ha : HaltKept hv (haltView a.1)) (r touched x) :
    HaltKept hv (haltView (mergeEntry r touched a x).1) := by
  unfold mergeEntry
  extract_lets k b
  have h := brickFor_haltKept ha (!touched.contains b) b.1 b.2.1 b.2.2
  split
  next hb =>
    rw [hb] at h
    exact h
  next hb =>
    rw [hb] at h
    simpa using h

@[simp] theorem mergeInbox_haltKept (r touched entries) : HaltKept hv (haltView (mergeInbox s r touched entries).1) :=
  foldl_fst_haltKept (w := (s, [])) hk (fun _ _ => mergeEntry_haltKept (.refl _) _ _ _) entries

@[simp] theorem assignHot_haltKept (r) : HaltKept hv (haltView (assignHot s r)) := by simp [assignHot, hk]

@[simp] theorem takeClusters_haltKept (r te clusters) : HaltKept hv (haltView (takeClusters s r te clusters)) := by
  simp [takeClusters, hk]

/-! ## Beacon -/

@[simp] theorem noteBadIds_haltKept (j n) : HaltKept hv (haltView (noteBadIds s j n)) := by simp [noteBadIds, hk]
@[simp] theorem noteMismatch_haltKept (j e) : HaltKept hv (haltView (noteMismatch j s e)) := by simp [noteMismatch, hk]
@[simp] theorem storeRows_haltKept (p r c b) : HaltKept hv (haltView (storeRows s p r c b)) := by simp [storeRows, hk]

@[simp] theorem offerTo_haltKept (p j l r) : HaltKept hv (haltView (offerTo s p j l r)) := by
  unfold offerTo
  dsimp only
  split <;> simp [hk]

@[simp] theorem drainOffers_haltKept (p n) : HaltKept hv (haltView (drainOffers p n s)) := by
  induction n generalizing s with
  | zero => exact hk
  | succ n ih =>
    unfold drainOffers
    split
    · exact ih (by simp [hk])
    · exact hk

@[simp] theorem cycleOffers_haltKept (p cycles) : HaltKept hv (haltView (cycleOffers s p cycles)) := by
  simp [cycleOffers, hk]

@[simp] theorem flushOffers_haltKept (p) : HaltKept hv (haltView (flushOffers s p)) := by simp [flushOffers, hk]

@[simp] theorem closeEmpty_haltKept (p r) : HaltKept hv (haltView (closeEmpty s p r)) := by
  unfold closeEmpty
  split <;> simp [hk]

@[simp] theorem opMergeLists_haltKept (p j l sources) : HaltKept hv (haltView (opMergeLists s p j l sources)) := by
  unfold opMergeLists
  extract_lets c s0 k inputs m s0' s1
  have hs0 : HaltKept hv (haltView s0) := foldl_haltKept hk (fun t n => by split <;> simp) sources
  have hs0' : HaltKept hv (haltView s0') := by simp [s0', hs0]
  have hs1 : HaltKept hv (haltView s1) := by simp [s1, hs0']
  have hdups : HaltKept hv (haltView (addDups (noteBadIds s1 j m.bad) j m.dups)) := by simp [hs1]
  exact foldl_haltKept hdups (fun _ _ => noteMismatch_haltKept (.refl _) _ _) _

/-! ## Planning -/

@[simp] theorem moveBlock_haltKept (j k) : HaltKept hv (haltView (moveBlock j s k)) := by
  unfold moveBlock
  extract_lets l at_
  split
  · exact hk
  · extract_lets cold bs s1
    have hs1 : HaltKept hv (haltView s1) := foldl_haltKept hk (fun t p => by simp) _
    simp [hs1]

/-! ## Rings -/

@[simp] theorem ringOverrun_haltKept (r) : HaltKept hv (haltView (ringOverrun s r)) := by simp [ringOverrun, hk]
@[simp] theorem ownerDiffers_haltKept (r) : HaltKept hv (haltView (ownerDiffers s r)) := by simp [ownerDiffers, hk]

@[simp] theorem serveRing_haltKept (r prod descs) : HaltKept hv (haltView (serveRing s r prod descs)) := by
  simp [serveRing, hk]

@[simp] theorem pollRing_haltKept (doorbell descs r) : HaltKept hv (haltView (pollRing doorbell descs s r)) := by
  unfold pollRing
  dsimp only
  split <;> simp [hk]

@[simp] theorem admitOne_haltKept (d) : HaltKept hv (haltView (admitOne s d)) := by
  unfold admitOne
  split
  · exact hk
  · split <;> simp [hk]

@[simp] theorem admitAll_haltKept : HaltKept hv (haltView (admitAll s)) :=
  foldl_haltKept hk (fun t d => by split <;> simp) s.descs

@[simp] theorem admitAt_haltKept (ring index isIt) : HaltKept hv (haltView (admitAt s ring index isIt)) := by
  unfold admitAt
  split <;> simp [hk]

@[simp] theorem enableRing_haltKept (r replay) : HaltKept hv (haltView (enableRing s r replay)) := by simp [enableRing, hk]

@[simp] theorem ringCtrlWrite_haltKept (r v replay) : HaltKept hv (haltView (ringCtrlWrite s r v replay)) := by
  simp [ringCtrlWrite, hk]

@[simp] theorem detach_haltKept : HaltKept hv (haltView (detach s)) := by simp [detach, hk]

@[simp] theorem ownAgain_haltKept (doorbell r) : HaltKept hv (haltView (ownAgain doorbell s r)) := by
  unfold ownAgain
  dsimp only
  repeat' split
  all_goals simp [hk]

@[simp] theorem reattach_haltKept (doorbell replay) : HaltKept hv (haltView (reattach doorbell replay s)) := by
  simp [reattach, hk]

/-! ## Fusion -/

@[simp] theorem fuseSet_haltKept (j r set) : HaltKept hv (haltView (fuseSet s j r set)) := by
  unfold fuseSet
  extract_lets vs touched again a now beyond w s1 b anew w1 w2 w3 w4
  have ha : HaltKept hv (haltView a.1) := allocate_haltKept (allocate_haltKept hk _ _) _ _
  have hb : HaltKept hv (haltView b.1) := mergeInbox_haltKept (s := { a.1 with world := w }) (by simpa using ha) _ _ _
  exact takeClusters_haltKept (by simpa using hb) _ _ _

@[simp] theorem formDistances_haltKept (ref r) : HaltKept hv (haltView (formDistances s ref r)) :=
  storeCoarse_haltKept (storeBricks_haltKept (by simp [hk]) _) _

@[simp] theorem writeMaster_haltKept (j r te x) : HaltKept hv (haltView (writeMaster s j r te x)) := by
  unfold writeMaster
  dsimp only
  split <;> simp [hk]

@[simp] theorem writeMasters_haltKept (j r te) : HaltKept hv (haltView (writeMasters s j r te)) :=
  stageStore_haltKept (foldl_haltKept hk (fun _ _ => writeMaster_haltKept (.refl _) _ _ _ _) _) _ _ _

@[simp] theorem runPhase_haltKept (ref k) : HaltKept hv (haltView (runPhase s ref k)) := by
  unfold runPhase
  split
  · exact hk
  · split <;> simp [hk]

@[simp] theorem finishRun_haltKept (ref) : HaltKept hv (haltView (finishRun s ref)) :=
  foldl_haltKept hk (fun _ _ => runPhase_haltKept (.refl _) _ _) [1, 2, 3]

@[simp] theorem judgeProbe_haltKept (j set p ctr ok) : HaltKept hv (haltView (judgeProbe s j set p ctr ok)) := by
  simp [judgeProbe, hk]

/-! ## Inference -/

@[simp] theorem opInputPixel_haltKept (p j r port decl index dst) :
    HaltKept hv (haltView (opInputPixel s p j r port decl index dst)) := by
  unfold opInputPixel
  split <;> simp [hk]

@[simp] theorem opInputImage_haltKept (p j r port index dst n) :
    HaltKept hv (haltView (opInputImage s p j r port index dst n)) := by
  unfold opInputImage
  split <;> simp [hk]

@[simp] theorem opCarriedFit_haltKept (p j r m port maskAt n) :
    HaltKept hv (haltView (opCarriedFit s p j r m port maskAt n)) := by
  unfold opCarriedFit
  dsimp only
  split <;> simp [hk]

@[simp] theorem opInboxBrick_haltKept (p w j first) : HaltKept hv (haltView (opInboxBrick s p w j first)) := by
  simp [opInboxBrick, hk]

/-! ## Slot boundary -/

@[simp] theorem takeMap_haltKept : HaltKept hv (haltView (takeMap s)) := by
  unfold takeMap
  split
  · exact hk
  next m _ =>
    extract_lets changed s0 s1 s2 routes klink s3
    have hs0 : HaltKept hv (haltView s0) := foldl_haltKept hk (fun t p => by simp) _
    have hs1 : HaltKept hv (haltView s1) := by simp [s1, hs0]
    have hs3 : HaltKept hv (haltView s3) := raise_haltKept (by simp [s2, hs1]) _ _
    clear_value s3
    simp [hs3]

@[simp] theorem finishJob_haltKept (j) : HaltKept hv (haltView (finishJob s j)) := by
  unfold finishJob
  extract_lets st s1 k j0 s0 x y
  have hs0 : HaltKept hv (haltView s0) := by simp [s0, s1, hk]
  have hx : HaltKept hv (haltView x.1) := by
    unfold x
    split <;> simp [hs0]
  simp [y, hx]

@[simp] theorem endSave_haltKept (j) : HaltKept hv (haltView (endSave s j)) := by
  unfold endSave
  split
  · exact hk
  · split <;> simp [hk]

@[simp] theorem stepJob_haltKept (j) : HaltKept hv (haltView (stepJob s j)) := by simp [stepJob, hk]

@[simp] theorem closeSlot_haltKept (j) : HaltKept hv (haltView (closeSlot s j)) := by
  unfold closeSlot
  extract_lets s0 s1
  have hs0 : HaltKept hv (haltView s0) := foldl_haltKept hk (fun t p => by simp) _
  have hs1 : HaltKept hv (haltView s1) := by simp [s1, hs0]
  clear_value s1
  exact map_getD_haltKept (fun j => by simp [hs1]) hs1 _

@[simp] theorem endSlots_haltKept : HaltKept hv (haltView (endSlots s)) := by
  unfold endSlots
  extract_lets s0 s1 s2
  have hs0 : HaltKept hv (haltView s0) := foldl_haltKept hk (fun _ _ => closeSlot_haltKept (.refl _) _) _
  have hs1 : HaltKept hv (haltView s1) := foldl_haltKept hs0 (fun _ _ => stepJob_haltKept (.refl _) _) _
  have hs2 : HaltKept hv (haltView s2) := foldl_haltKept hs1 (fun _ _ => stepJob_haltKept (.refl _) _) _
  simp [hs2]

/-! ## Slot walk -/

@[simp] theorem refuseJob_haltKept (d r) : HaltKept hv (haltView (refuseJob s d r)) := by
  unfold refuseJob
  repeat' split
  all_goals simp [hk]

@[simp] theorem coldCopies_haltKept (j) : HaltKept hv (haltView (coldCopies s j)) := by simp [coldCopies, hk]

@[simp] theorem dispatchJob_haltKept (d img spec) : HaltKept hv (haltView (dispatchJob s d img spec)) := by
  unfold dispatchJob
  extract_lets j fl s1 s2 s3 s4 s5
  have hs5 : haltView s5 = haltView s4 := foldl_haltView (fun _ _ => by rfl) _ s4
  simp [hs5, s4, s3, s2, s1, hk]

omit hk in
@[simp] theorem walkJob_haltKept {w : State × List Phys} (hw : HaltKept hv (haltView w.1)) (x) :
    HaltKept hv (haltView (walkJob w x).1) := by
  unfold walkJob
  extract_lets s
  split
  · exact hw
  next d _ =>
    extract_lets spec
    generalize (!if x.2 = true then d.stage == Stage.ready else spec) = passed
    cases passed
    · rw [if_neg Bool.false_ne_true]
      split <;> simp [s, hw]
    · exact hw

@[simp] theorem walk_haltKept : HaltKept hv (haltView (walk s)) := by
  unfold walk
  split
  · exact hk
  · exact foldl_fst_haltKept (w := (s, [])) hk (fun _ _ => walkJob_haltKept (.refl _) _) _

@[simp] theorem beginSlot_haltKept (j) : HaltKept hv (haltView (beginSlot s j)) := by simp [beginSlot, hk]

@[simp] theorem boundary_haltKept : HaltKept hv (haltView (boundary s)) := by
  unfold boundary
  extract_lets s1 s2 s3 s4 s5
  have hs1 : HaltKept hv (haltView s1) := by simp [s1, hk]
  have hs2 : HaltKept hv (haltView s2) := by simp [s2, hs1]
  have hs3 : HaltKept hv (haltView s3) := by simp [s3, hs2]
  simp [s5, s4, hs3]

/-! ## Confirmation -/

@[simp] theorem settleRun_haltKept : HaltKept hv (haltView (settleRun s)) := by
  unfold settleRun
  split <;> simp [hk]

/-! ## Lanterns and wicks -/

@[simp] theorem stageFor_haltKept (p) {f : Job → Recipe → State} (hf : ∀ j r, HaltKept hv (haltView (f j r))) :
    HaltKept hv (haltView (stageFor s p f)) := by
  unfold stageFor
  split
  · split <;> simp [hk, hf]
  · exact hk

@[simp] theorem robotFor_haltKept (p) {f : Job → Recipe → RobotModel → Nat → State}
    (hf : ∀ j r m l, HaltKept hv (haltView (f j r m l))) : HaltKept hv (haltView (robotFor s p f)) :=
  stageFor_haltKept hk p fun j r => by split <;> simp [hk, hf]

@[simp] theorem listFor_haltKept (p) {f : Job → Nat → State} (hf : ∀ j l, HaltKept hv (haltView (f j l))) :
    HaltKept hv (haltView (listFor s p f)) := by
  unfold listFor
  split <;> simp [hk, hf]

@[simp] theorem runStage_haltKept (p w op) : HaltKept hv (haltView (runStage s p w op)) := by
  cases op <;> simp [runStage, hk]

@[simp] theorem wickAtomic_haltKept (p w old op a ra rd) : HaltKept hv (haltView (wickAtomic s p w old op a ra rd)) := by
  simp [wickAtomic, hk]

@[simp] theorem gather_haltKept (p old w op) : HaltKept hv (haltView (gather s p old w op)) := by
  unfold gather
  dsimp only
  repeat' split
  all_goals simp [hk]

@[simp] theorem eccOp_haltKept (p e) : HaltKept hv (haltView (eccOp p s e)) := by
  unfold eccOp
  split <;> simp [hk]

@[simp] theorem stageAsleep_haltKept (p w op) : HaltKept hv (haltView (stageAsleep s p w op)) := by
  unfold stageAsleep
  extract_lets s1 s2
  have hs1 : HaltKept hv (haltView s1) := runStage_haltKept (by simp [hk]) _ _ _
  have hs2 : HaltKept hv (haltView s2) := by simp [s2, hs1]
  clear_value s2
  exact map_getD_haltKept (fun j => by simp [hs2]) hs2 _

@[simp] theorem stageStep_haltKept (p e) : HaltKept hv (haltView (stageStep p s e)) := by
  unfold stageStep
  split
  · split
    · exact hk
    · split <;> simp [hk]
  · exact hk

@[simp] theorem fabricCycle_haltKept (p old ops c) : HaltKept hv (haltView (fabricCycle p old ops s c)) := by
  simp [fabricCycle, hk]

@[simp] theorem wordCycle_haltKept (p old ops r c) : HaltKept hv (haltView (wordCycle p old ops s r c).1) := by
  unfold wordCycle
  dsimp only
  split
  · simp [hk]
  · split <;> simp [hk]

@[simp] theorem lineArrives_haltKept (p old ops f k c) : HaltKept hv (haltView (lineArrives p old ops f k s c)) := by
  simp [lineArrives, hk]

omit hk in
@[simp] theorem rillCycle_haltKept {x : State × List (Nat × RillHead)} (hx : HaltKept hv (haltView x.1)) (p old ops c) :
    HaltKept hv (haltView (rillCycle p old ops x c).1) := by
  unfold rillCycle
  dsimp only
  split
  · simp [hx]
  · split
    · simp [hx]
    · split
      · simp [hx]
      · split <;> simp [hx]
      · simp [hx]

@[simp] theorem rillAfter_haltKept (p old stop now hs) : HaltKept hv (haltView (rillAfter p old stop s now hs)) := by
  induction hs generalizing s now with
  | nil => simp [rillAfter, hk]
  | cons x t ih =>
    obtain ⟨start, h⟩ := x
    cases h with
    | word => simp [rillAfter, ih, hk]
    | line id k =>
      have harrives := map_getD_haltKept (fun f => lineArrives_haltKept hk p old [] f k (max now start)) hk (flightFor s p id k)
      simp [rillAfter, ih, hk, harrives]
    | fetch => simp [rillAfter, ih, hk]

@[simp] theorem gatherAll_haltKept (p old ops load cycles rill) :
    HaltKept hv (haltView (gatherAll s p old ops load cycles rill)) :=
  rillAfter_haltKept
    (foldl_fst_haltKept (by simp [hk]) (fun _ _ => rillCycle_haltKept (.refl _) _ _ _ _) _) _ _ _ _ _

@[simp] theorem runWicks_haltKept (p cycles ops rill) : HaltKept hv (haltView (runWicks s p cycles ops rill)) := by
  unfold runWicks
  extract_lets s0 old ctx sorted counted s1 load s2 s3 s4 took s5 s6
  have hs1 : haltView s1 = haltView s := foldl_haltView (fun _ _ => by rfl) sorted s0
  have hs4 : HaltKept hv (haltView s4) := by simp [s4, s3, s2, hs1, hk]
  have hs5 : HaltKept hv (haltView s5) := foldl_haltKept hs4 (fun _ _ => stageStep_haltKept (.refl _) _ _) _
  have hs6 : HaltKept hv (haltView s6) := by simp [s6, hs5]
  clear_value s6
  exact foldl_haltKept (map_getD_haltKept (fun j => by simp [hs6]) hs6 _) (fun _ _ => eccOp_haltKept (.refl _) _ _) _

@[simp] theorem contextLoad_haltKept (j p cycle target number) :
    HaltKept hv (haltView (contextLoad s j p cycle target number)) := by
  simp [contextLoad, hk]

/-! ## Registers -/

@[simp] theorem busRead_haltKept (bar off size counted) : HaltKept hv (haltView (busRead s bar off size counted)) := by
  unfold busRead
  dsimp only
  split
  · simp [hk]
  · split
    · simp [hk]
    · split <;> simp [hk]

@[simp] theorem ringWrite_haltKept (r off v) : HaltKept hv (haltView (ringWrite s r off v)) := by simp [ringWrite, hk]

@[simp] theorem globalWrite_haltKept (off v) : HaltKept hv (haltView (globalWrite s off v)) := by
  unfold globalWrite
  split <;> simp [hk]

@[simp] theorem freezeWrite_haltKept (on) : HaltKept hv (haltView (freezeWrite s on)) := by simp [freezeWrite, hk]

@[simp] theorem emberRegWrite_haltKept (off v) : HaltKept hv (haltView (emberRegWrite s off v)) := by
  unfold emberRegWrite
  split <;> simp [hk]

@[simp] theorem senderWrite_haltKept (ch off v) : HaltKept hv (haltView (senderWrite s ch off v)) := by
  simp [senderWrite, hk]

@[simp] theorem spoutCfgWrite_haltKept (v) : HaltKept hv (haltView (spoutCfgWrite s v)) := by simp [spoutCfgWrite, hk]

@[simp] theorem spoutBlockWrite_haltKept (off v) : HaltKept hv (haltView (spoutBlockWrite s off v)) := by
  simp [spoutBlockWrite, hk]

@[simp] theorem writeWord0_haltKept (off v) : HaltKept hv (haltView (writeWord0 s off v)) := by simp [writeWord0, hk]
@[simp] theorem writeWord2_haltKept (off v) : HaltKept hv (haltView (writeWord2 s off v)) := by simp [writeWord2, hk]

@[simp] theorem writeWord_haltKept (bar off v) : HaltKept hv (haltView (writeWord s bar off v)) := by
  unfold writeWord
  split <;> simp [hk]

@[simp] theorem busWrite_haltKept (bar off size data) : HaltKept hv (haltView (busWrite s bar off size data)) := by
  unfold busWrite
  repeat' split
  all_goals simp [hk]

end Kept

/-! ## Start-ups and relights

A start-up begins in `startup` and a relight in `relight`; both end in service, in a further relight or in HALT. -/

@[simp] theorem startHalt_haltView (s fail) : haltView (startHalt s fail) = ⟨.halt, false, true⟩ := by simp [startHalt]
@[simp] theorem haltFail_haltView (old s fail) : haltView (haltFail old s fail) = ⟨.halt, false, true⟩ := by simp [haltFail]

theorem stopped_stops : HaltView.Stops ⟨.halt, false, true⟩ := fun _ => ⟨rfl, rfl⟩

theorem startFinish_stops (s reflectorOk) : (haltView (startFinish s reflectorOk)).Stops := by
  unfold startFinish
  split
  · rw [enterHalt_haltView]
    exact stopped_stops
  · split
    · rw [refreshHeader_haltView]
      exact HaltView.stops_of_ne_halt SState.noConfusion
    · exact (handleNow_haltKept (.refl _) _).2 (HaltView.stops_of_ne_halt SState.noConfusion)

section Stops
variable {s : State} (h : (haltView s).Stops)
include h

theorem startDies_stops (o) : (haltView (startDies o s)).Stops := by
  unfold startDies
  extract_lets s1 s2 s3
  have hs1 : (haltView s1).Stops := (trainDies_haltKept (.refl _) o).2 h
  have hs3 : (haltView s3).Stops := by simpa [s3, s2] using hs1
  split
  · simp [stopped_stops]
  · split
    · simp [stopped_stops]
    · split
      · exact hs3
      · exact startFinish_stops _ _

theorem startRun_stops (o) : (haltView (startRun o s)).Stops := by
  unfold startRun
  extract_lets s1 s2 s3
  split
  · simp [stopped_stops]
  · have hs3 : haltView s3 = haltView s := by simp [s3, s2, s1]
    exact startDies_stops ((loadConfig_haltKept (.refl _) o).2 (hs3 ▸ h)) o

theorem startFrom3_stops (o) : (haltView (startFrom3 o s)).Stops := by
  unfold startFrom3
  dsimp only
  split
  · exact h
  · split
    · exact h
    · exact startRun_stops (s := { s with pwr := { s.pwr with ticks := s.pwr.ticks + o.ticks } }) h o

theorem restart_stops (o) : (haltView (restart o s)).Stops := by
  unfold restart
  split
  · exact h
  · exact startFrom3_stops (HaltView.stops_of_ne_halt SState.noConfusion) o

end Stops

theorem resetBegin_stops (s) : (haltView (resetBegin s)).Stops := HaltView.stops_of_ne_halt SState.noConfusion

theorem relightReady_stops (s) : (haltView (relightReady s)).Stops := by
  unfold relightReady
  extract_lets s1 _ _ s2 s3
  have hs3 : (haltView s3).Stops := by
    have hk : HaltKept (haltView s2) (haltView s3) := by simp [s3]
    exact hk.2 (HaltView.stops_of_ne_halt SState.noConfusion)
  split
  · exact hs3
  · exact (nextS1_getD_haltKept (.refl _)).2 hs3

theorem relightTest_stops (old s o) : (haltView (relightTest old s o)).Stops := by
  unfold relightTest
  extract_lets s1 s2
  split
  · rw [enterHalt_haltView]
    exact stopped_stops
  · split
    · rw [haltFail_haltView]
      exact stopped_stops
    · exact relightReady_stops _

section KeptFrom
variable {hv : HaltView} {s : State} (hk : HaltKept hv (haltView s))
include hk

theorem failDeassert_haltKept (o) : HaltKept hv (haltView (failDeassert o s)) := by
  unfold failDeassert
  extract_lets _ s1
  have hs1 : HaltKept hv (haltView s1) := hk
  split
  · exact beginRelight_haltKept hs1
  · split
    · exact hs1
    next hne => exact hs1.of_ne_halt (fun h => hne (beq_iff_eq.mpr h)) fun h => restart_stops h o

@[simp] theorem failGone_haltKept (o) : HaltKept hv (haltView (failGone o s)) := by
  simp [failGone, hk, failDeassert_haltKept]

/-! ## Verdicts -/

@[simp] theorem countDisagree_haltKept : HaltKept hv (haltView (countDisagree s)) := by
  unfold countDisagree
  extract_lets f hist s1
  have hs1 : HaltKept hv (haltView s1) := hk
  split
  · exact hk
  · split
    · exact raise_haltKept hs1 _ _
    · exact hs1

@[simp] theorem disagree_haltKept (r j row x) : HaltKept hv (haltView (disagree s r j row x)) := by simp [disagree, hk]

/-- Only outside HALT does a verdict that hands a trajectory over keep what there is to keep. -/
theorem judgeRow_haltKept (hne : s.safety.state ≠ .halt) (r j row rc m t) :
    HaltKept hv (haltView (judgeRow s r j row rc m t)) := by
  have hhand : HaltKept hv (haltView (handOff s r row t)) :=
    hk.of_ne_halt hne fun _ => HaltView.stops_of_ne_halt hne
  unfold judgeRow
  split
  · simp [hk]
  · split
    · simp [hk]
    · simp [hk, hhand]

end KeptFrom

/-! ## The commands -/

/-- Whatever state the outcome leads to, HALT and its rule are kept there. -/
def KeepsHalt (s : State) (o : Out) : Prop := ∀ t, o = .next t → HaltKept (haltView s) (haltView t)

@[simp] theorem keepsHalt_next {s t : State} (h : HaltKept (haltView s) (haltView t)) : KeepsHalt s (.next t) := by
  rintro u ⟨⟩
  exact h

/-! ### The guards of a command

Where a guard refuses the command, the state stays as it was. -/

section Guards
variable {s : State} {f : State → State}

theorem haltKept_guard {p : Prop} [Decidable p] (h : HaltKept (haltView s) (haltView (f s))) :
    HaltKept (haltView s) (haltView (if p then f s else s)) := by
  simp [h]

/-- What runs in service alone starts outside HALT. -/
theorem keepsHalt_of_service (hf : s.safety.state = .service → HaltKept (haltView s) (haltView (f s))) :
    KeepsHalt s (serve s f) := by
  refine keepsHalt_next (haltKept_guard ?_)
  split
  next h =>
    simp only [Bool.and_eq_true, beq_iff_eq] at h
    exact hf h.2
  · exact .refl _

variable (hf : HaltKept (haltView s) (haltView (f s)))
include hf

@[simp] theorem keepsHalt_live : KeepsHalt s (live s f) := keepsHalt_next (haltKept_guard hf)
@[simp] theorem keepsHalt_busLive : KeepsHalt s (busLive s f) := keepsHalt_next (haltKept_guard hf)
@[simp] theorem keepsHalt_pilotLive : KeepsHalt s (pilotLive s f) := keepsHalt_next (haltKept_guard hf)
@[simp] theorem keepsHalt_serve : KeepsHalt s (serve s f) := keepsHalt_live (haltKept_guard hf)

@[simp] theorem keepsHalt_viaBus (host : Bool) : KeepsHalt s (viaBus host s f) := by
  cases host
  · exact keepsHalt_live hf
  · exact keepsHalt_busLive hf

end Guards

theorem keepsHalt_runHead {s : State} {ring : RingId} {isIt : DescBody → Bool} {f : State → DescEntry → State}
    (hf : ∀ t d, haltView (f t d) = haltView t) : KeepsHalt s (live s fun s => runHead s ring isIt f) :=
  keepsHalt_live (by rw [runHead_haltView _ _ _ hf]; exact .refl _)

/-! ### Cameras -/

@[simp] theorem execStartOfFrame_keepsHalt (port timeNs s) : KeepsHalt s (execStartOfFrame port timeNs s) := by
  unfold execStartOfFrame
  apply keepsHalt_live
  repeat' split
  all_goals simp

@[simp] theorem execFrameReceived_keepsHalt (port frame s) : KeepsHalt s (execFrameReceived port frame s) := by
  unfold execFrameReceived
  apply keepsHalt_live
  split <;> simp

@[simp] theorem execSetTimeout_keepsHalt (s) : KeepsHalt s (execSetTimeout s) := by simp [execSetTimeout]

@[simp] theorem execCamDetached_keepsHalt (port kind s) : KeepsHalt s (execCamDetached port kind s) := by
  have hgone : HaltKept (haltView s) (haltView (raise (leaveSets (camSet s port .reset) port) .camDetached [])) :=
    raise_haltKept (leaveSets_haltKept (by simp) port) _ _
  refine keepsHalt_live ?_
  simp [hgone]

@[simp] theorem execI3cInBandEvent_keepsHalt (bus hotJoin s) :
    KeepsHalt s (execI3cInBandEvent bus hotJoin s) := by
  simp [execI3cInBandEvent]

@[simp] theorem execCameraDiscovered_keepsHalt (port bus provId s) :
    KeepsHalt s (execCameraDiscovered port bus provId s) := by
  simp [execCameraDiscovered]

@[simp] theorem execCameraConfigured_keepsHalt (port ok s) : KeepsHalt s (execCameraConfigured port ok s) := by
  simp [execCameraConfigured]

/-! ### Spouts -/

@[simp] theorem execSpoutSend_keepsHalt (ch clear msg s) : KeepsHalt s (execSpoutSend ch clear msg s) := by
  simp [execSpoutSend]

@[simp] theorem execGateLockoutEnd_keepsHalt (s) : KeepsHalt s (execGateLockoutEnd s) := by simp [execGateLockoutEnd]

@[simp] theorem execSpoutReceive_keepsHalt (ch word s) : KeepsHalt s (execSpoutReceive ch word s) := by
  simp [execSpoutReceive]

@[simp] theorem execSpoutAck_keepsHalt (ch seq code s) : KeepsHalt s (execSpoutAck ch seq code s) := by simp [execSpoutAck]
@[simp] theorem execDriverReset_keepsHalt (s) : KeepsHalt s (execDriverReset s) := by simp [execDriverReset]
@[simp] theorem execAgentReset_keepsHalt (s) : KeepsHalt s (execAgentReset s) := by simp [execAgentReset]

@[simp] theorem execPartnerResetReport_keepsHalt (partner s) :
    KeepsHalt s (execPartnerResetReport partner s) := by
  simp [execPartnerResetReport]

@[simp] theorem execLockRead_keepsHalt (req lock s) : KeepsHalt s (execLockRead req lock s) := by simp [execLockRead]

@[simp] theorem execLockWrite_keepsHalt (req lock value s) : KeepsHalt s (execLockWrite req lock value s) := by
  simp [execLockWrite]

/-! ### Ember -/

@[simp] theorem execEmberWriteComplete_keepsHalt (s) : KeepsHalt s (execEmberWriteComplete s) := by
  simp [execEmberWriteComplete]

@[simp] theorem execEmberFlush_keepsHalt (s) : KeepsHalt s (execEmberFlush s) := by simp [execEmberFlush]

@[simp] theorem execEmberFlushComplete_keepsHalt (ok s) : KeepsHalt s (execEmberFlushComplete ok s) := by
  simp [execEmberFlushComplete]

@[simp] theorem execEmberFreeze_keepsHalt (s) : KeepsHalt s (execEmberFreeze s) := by simp [execEmberFreeze]

@[simp] theorem execEmberUnfreeze_keepsHalt (cause s) : KeepsHalt s (execEmberUnfreeze cause s) := by
  simp [execEmberUnfreeze]

@[simp] theorem execEmberCursorWrite_keepsHalt (value s) : KeepsHalt s (execEmberCursorWrite value s) := by
  simp [execEmberCursorWrite]

@[simp] theorem execEmberFillComplete_keepsHalt (s) : KeepsHalt s (execEmberFillComplete s) := by
  simp [execEmberFillComplete]

/-! ### K-links -/

@[simp] theorem execKlPortEnable_keepsHalt (value s) : KeepsHalt s (execKlPortEnable value s) := by simp [execKlPortEnable]
@[simp] theorem execKlinkTrained_keepsHalt (port s) : KeepsHalt s (execKlinkTrained port s) := by simp [execKlinkTrained]

@[simp] theorem execKlinkTrainTimeout_keepsHalt (port s) : KeepsHalt s (execKlinkTrainTimeout port s) := by
  simp [execKlinkTrainTimeout]

@[simp] theorem execKlinkCertReceived_keepsHalt (port chainOk ownerKey partner s) :
    KeepsHalt s (execKlinkCertReceived port chainOk ownerKey partner s) := by
  simp [execKlinkCertReceived]

@[simp] theorem execKlinkCertTimeout_keepsHalt (port s) : KeepsHalt s (execKlinkCertTimeout port s) := by
  simp [execKlinkCertTimeout]

@[simp] theorem execKlinkLockLoss_keepsHalt (port s) : KeepsHalt s (execKlinkLockLoss port s) := by simp [execKlinkLockLoss]

@[simp] theorem execKlinkPacketReceived_keepsHalt (port packet s) :
    KeepsHalt s (execKlinkPacketReceived port packet s) := by
  unfold execKlinkPacketReceived
  apply keepsHalt_live
  repeat' split
  all_goals simp

@[simp] theorem execGroupMapIssue_keepsHalt (map s) : KeepsHalt s (execGroupMapIssue map s) := by simp [execGroupMapIssue]

@[simp] theorem execGroupMapReceived_keepsHalt (map sigOk s) :
    KeepsHalt s (execGroupMapReceived map sigOk s) := by
  simp [execGroupMapReceived]

@[simp] theorem execDeviceUnreachable_keepsHalt (member s) : KeepsHalt s (execDeviceUnreachable member s) := by
  simp [execDeviceUnreachable]

@[simp] theorem execKlinkExchangeReceived_keepsHalt (tag data s) :
    KeepsHalt s (execKlinkExchangeReceived tag data s) := by
  simp [execKlinkExchangeReceived]

@[simp] theorem execKlinkExchangeRead_keepsHalt (job s) : KeepsHalt s (execKlinkExchangeRead job s) := by
  unfold execKlinkExchangeRead
  apply keepsHalt_live
  split <;> simp

@[simp] theorem execKlinkExchExpired_keepsHalt (tag s) : KeepsHalt s (execKlinkExchExpired tag s) := by
  simp [execKlinkExchExpired]

@[simp] theorem execGroupAbortReceived_keepsHalt (planId tag s) :
    KeepsHalt s (execGroupAbortReceived planId tag s) := by
  simp [execGroupAbortReceived]

@[simp] theorem execWorldMasterReceived_keepsHalt (set s) : KeepsHalt s (execWorldMasterReceived set s) := by
  simp [execWorldMasterReceived]

@[simp] theorem execPublishedTrajReceived_keepsHalt (traj s) :
    KeepsHalt s (execPublishedTrajReceived traj s) := by
  simp [execPublishedTrajReceived]

/-! ### Motion ports -/

@[simp] theorem execPtpFrameReceived_keepsHalt (sync valid timeNs announced s) :
    KeepsHalt s (execPtpFrameReceived sync valid timeNs announced s) := by
  simp [execPtpFrameReceived]

@[simp] theorem execTimeSyncLost_keepsHalt (s) : KeepsHalt s (execTimeSyncLost s) := by simp [execTimeSyncLost]
@[simp] theorem execQbvCycle_keepsHalt (port s) : KeepsHalt s (execQbvCycle port s) := by simp [execQbvCycle]
@[simp] theorem execHelloTransmit_keepsHalt (s) : KeepsHalt s (execHelloTransmit s) := by simp [execHelloTransmit]

@[simp] theorem execHelloReceived_keepsHalt (frame tagOk s) : KeepsHalt s (execHelloReceived frame tagOk s) := by
  unfold execHelloReceived
  apply keepsHalt_live
  split <;> simp

@[simp] theorem execJointStateReceived_keepsHalt (frame tagOk s) :
    KeepsHalt s (execJointStateReceived frame tagOk s) := by
  unfold execJointStateReceived
  apply keepsHalt_live
  split <;> simp

@[simp] theorem execDriveLost_keepsHalt (node s) : KeepsHalt s (execDriveLost node s) := by simp [execDriveLost]

@[simp] theorem execMotionPortLinkChange_keepsHalt (port up s) :
    KeepsHalt s (execMotionPortLinkChange port up s) := by
  simp [execMotionPortLinkChange]

/-! ### Security -/

@[simp] theorem execKeyExchange_keepsHalt (msg s) : KeepsHalt s (execKeyExchange msg s) := by
  unfold execKeyExchange
  apply keepsHalt_live
  split <;> simp

@[simp] theorem execOwnerEnrol_keepsHalt (publicKey sigOk readBackOk s) :
    KeepsHalt s (execOwnerEnrol publicKey sigOk readBackOk s) := by
  unfold execOwnerEnrol
  apply keepsHalt_live
  split <;> simp

@[simp] theorem execOwnerLock_keepsHalt (sigOk s) : KeepsHalt s (execOwnerLock sigOk s) := by
  unfold execOwnerLock
  apply keepsHalt_live
  simp

@[simp] theorem execAttestationReport_keepsHalt (nonce s) : KeepsHalt s (execAttestationReport nonce s) := by
  unfold execAttestationReport
  apply keepsHalt_live
  simp

@[simp] theorem execEmberClear_keepsHalt (clearSeq signed sigOk s) :
    KeepsHalt s (execEmberClear clearSeq signed sigOk s) := by
  unfold execEmberClear
  apply keepsHalt_live
  simp

@[simp] theorem execDebugAttach_keepsHalt (s) : KeepsHalt s (execDebugAttach s) := by simp [execDebugAttach]

/-! ### Power -/

@[simp] theorem execPwrFailAssert_keepsHalt (s) : KeepsHalt s (execPwrFailAssert s) := by simp [execPwrFailAssert]

@[simp] theorem execPwrFailDeassert_keepsHalt (obs s) : KeepsHalt s (execPwrFailDeassert obs s) := by
  simp [execPwrFailDeassert]

@[simp] theorem execRailUndervolt_keepsHalt (rail s) : KeepsHalt s (execRailUndervolt rail s) := by
  refine keepsHalt_next ?_
  dsimp only
  split
  · exact .refl _
  · exact failAssert_haltKept (raise_haltKept (by simp) _ _)

@[simp] theorem execRailRecovery_keepsHalt (rail obs s) : KeepsHalt s (execRailRecovery rail obs s) := by
  simp [execRailRecovery]

@[simp] theorem execPwrGoodDeassert_keepsHalt (s) : KeepsHalt s (execPwrGoodDeassert s) := by simp [execPwrGoodDeassert]

@[simp] theorem execTempRead_keepsHalt (readings s) : KeepsHalt s (execTempRead readings s) := by
  unfold execTempRead
  apply keepsHalt_pilotLive
  extract_lets read
  clear_value read
  split
  · simp
  · extract_lets hot v warn low trip s1 s2 s3 s4
    have hs1 : HaltKept (haltView s) (haltView s1) := .refl _
    have hs2 : HaltKept (haltView s) (haltView s2) := by simp [s2, hs1]
    have hs4 : HaltKept (haltView s) (haltView s4) := by simp [s4, s3, hs2]
    clear_value s4
    split
    · split
      next h =>
        simp only [Bool.and_eq_true, beq_iff_eq] at h
        exact hs4.of_state h.2 (by decide) fun hstops => startRun_stops hstops _
      · exact hs4
    · exact hs4

@[simp] theorem execDozeEntry_keepsHalt (s) : KeepsHalt s (execDozeEntry s) := by simp [execDozeEntry]

@[simp] theorem execDozeWake_keepsHalt (cause s) : KeepsHalt s (execDozeWake cause s) := by
  unfold execDozeWake
  apply keepsHalt_live
  split <;> simp

@[simp] theorem execPilotArmWrite_keepsHalt (value s) : KeepsHalt s (execPilotArmWrite value s) := by
  simp [execPilotArmWrite]

@[simp] theorem execPilotEntry_keepsHalt (s) : KeepsHalt s (execPilotEntry s) := by simp [execPilotEntry]
@[simp] theorem execPilotTimeRead_keepsHalt (s) : KeepsHalt s (execPilotTimeRead s) := by simp [execPilotTimeRead]

/-! ### Management -/

@[simp] theorem execGlowHeartbeat_keepsHalt (word s) : KeepsHalt s (execGlowHeartbeat word s) := by
  unfold execGlowHeartbeat
  apply keepsHalt_live
  split
  · exact .refl _
  · extract_lets s1
    split
    next h =>
      simp only [Bool.and_eq_true, beq_iff_eq] at h
      have hs1 : HaltKept (haltView s) (haltView s1) := by simp [s1]
      exact hs1.of_state h.2 (by decide) fun _ => startFinish_stops _ _
    · simp [s1]

@[simp] theorem execStartupHeartbeatTimeout_keepsHalt (reflectorOk imageOk flashOk digest s) :
    KeepsHalt s (execStartupHeartbeatTimeout reflectorOk imageOk flashOk digest s) := by
  unfold execStartupHeartbeatTimeout
  apply keepsHalt_live
  split
  · exact .refl _
  next h =>
    simp only [Bool.or_eq_true, bne_iff_ne, not_or, Decidable.not_not] at h
    exact (HaltKept.refl _).of_state h.1.2 (by decide) fun _ => startFinish_stops _ _

@[simp] theorem execGlowRestart_keepsHalt (imageOk flashOk digest s) :
    KeepsHalt s (execGlowRestart imageOk flashOk digest s) := by
  simp [execGlowRestart]

@[simp] theorem execGlowBusViolation_keepsHalt (addr write s) :
    KeepsHalt s (execGlowBusViolation addr write s) := by
  simp [execGlowBusViolation]

@[simp] theorem execGlowLoadMeasure_keepsHalt (busyPercent s) : KeepsHalt s (execGlowLoadMeasure busyPercent s) := by
  simp [execGlowLoadMeasure]

@[simp] theorem execGlowLoadWinWrite_keepsHalt (offset data s) :
    KeepsHalt s (execGlowLoadWinWrite offset data s) := by
  simp [execGlowLoadWinWrite]

@[simp] theorem execGlowLoadGo_keepsHalt (ok digest s) : KeepsHalt s (execGlowLoadGo ok digest s) := by simp [execGlowLoadGo]

/-! ### Faults -/

@[simp] theorem execFaultEvent_keepsHalt (cls unit words job s) :
    KeepsHalt s (execFaultEvent cls unit words job s) := by
  unfold execFaultEvent
  apply keepsHalt_live
  repeat' split
  all_goals simp

@[simp] theorem execFaultHandlingComplete_keepsHalt (s) : KeepsHalt s (execFaultHandlingComplete s) := by
  unfold execFaultHandlingComplete
  apply keepsHalt_live
  split <;> simp

@[simp] theorem execRelight_keepsHalt (obs s) : KeepsHalt s (execRelight obs s) := by
  unfold execRelight
  apply keepsHalt_live
  split
  · exact .refl _
  next h =>
    rw [bne_iff_ne, Decidable.not_not] at h
    refine (HaltKept.refl _).of_state h (by decide) fun _ => ?_
    dsimp only
    split
    · rw [haltFail_haltView]
      exact stopped_stops
    · exact relightTest_stops _ _ _

@[simp] theorem execLockstepMismatch_keepsHalt (s) : KeepsHalt s (execLockstepMismatch s) := by simp [execLockstepMismatch]
@[simp] theorem execStopRelease_keepsHalt (s) : KeepsHalt s (execStopRelease s) := by simp [execStopRelease]
@[simp] theorem execWorldStale_keepsHalt (s) : KeepsHalt s (execWorldStale s) := by simp [execWorldStale]

@[simp] theorem execSelftestSlice_keepsHalt (l pass s) : KeepsHalt s (execSelftestSlice l pass s) := by
  simp [execSelftestSlice]

@[simp] theorem execDiagOverdue_keepsHalt (l s) : KeepsHalt s (execDiagOverdue l s) := by simp [execDiagOverdue]
@[simp] theorem execDiagAdmitHold_keepsHalt (l s) : KeepsHalt s (execDiagAdmitHold l s) := by simp [execDiagAdmitHold]

@[simp] theorem execReflectorSelfCheck_keepsHalt (ok s) : KeepsHalt s (execReflectorSelfCheck ok s) := by
  simp [execReflectorSelfCheck]

/-! ### Memory -/

@[simp] theorem execAtomicOperation_keepsHalt (req place op operand s) :
    KeepsHalt s (execAtomicOperation req place op operand s) := by
  refine keepsHalt_serve ?_
  split
  · exact dmaIssue_haltKept (.refl _) _ _ fun t => by simp
  · exact .refl _

@[simp] theorem execRillTransfer_keepsHalt (x far s) : KeepsHalt s (execRillTransfer x far s) := by
  unfold execRillTransfer
  apply keepsHalt_serve
  simp

@[simp] theorem execMulticast_keepsHalt (job cycle mask addr src srcAddr s) :
    KeepsHalt s (execMulticast job cycle mask addr src srcAddr s) := by
  refine keepsHalt_serve (issue_haltKept (.refl _) _ _ _ fun t => ?_)
  split <;> simp

@[simp] theorem execCisternRead_keepsHalt (x s) : KeepsHalt s (execCisternRead x s) := by
  unfold execCisternRead
  apply keepsHalt_serve
  simp

@[simp] theorem execCisternWrite_keepsHalt (x s) : KeepsHalt s (execCisternWrite x s) := by
  unfold execCisternWrite
  apply keepsHalt_serve
  simp

@[simp] theorem execDramRead_keepsHalt (x s) : KeepsHalt s (execDramRead x s) :=
  keepsHalt_serve (issue_haltKept (.refl _) _ _ _ fun t => by split <;> simp)

@[simp] theorem execDramWrite_keepsHalt (x s) : KeepsHalt s (execDramWrite x s) := by
  unfold execDramWrite
  apply keepsHalt_serve
  simp

@[simp] theorem execPlannedDelivery_keepsHalt (id arrived s) :
    KeepsHalt s (execPlannedDelivery id arrived s) := by
  unfold execPlannedDelivery
  apply keepsHalt_serve
  split <;> simp

@[simp] theorem execMemorySleep_keepsHalt (job cycle unit s) :
    KeepsHalt s (execMemorySleep job cycle unit s) := by
  refine keepsHalt_serve (issue_haltKept (.refl _) _ _ _ fun t => ?_)
  split <;> simp

@[simp] theorem execMemoryWake_keepsHalt (job cycle unit s) : KeepsHalt s (execMemoryWake job cycle unit s) := by
  refine keepsHalt_serve (issue_haltKept (.refl _) _ _ _ fun t => ?_)
  split <;> simp

@[simp] theorem execMemoryWakeComplete_keepsHalt (unit s) : KeepsHalt s (execMemoryWakeComplete unit s) := by
  apply keepsHalt_serve
  cases unit <;> exact .refl _

@[simp] theorem execDdrRefreshLimit_keepsHalt (channel s) : KeepsHalt s (execDdrRefreshLimit channel s) := by
  simp [execDdrRefreshLimit]

@[simp] theorem execD2dRetrain_keepsHalt (die s) : KeepsHalt s (execD2dRetrain die s) := by simp [execD2dRetrain]

@[simp] theorem execMemWindowAccess_keepsHalt (offset size write data s) :
    KeepsHalt s (execMemWindowAccess offset size write data s) := by
  simp [execMemWindowAccess]

@[simp] theorem execDebugAccess_keepsHalt (place write data s) :
    KeepsHalt s (execDebugAccess place write data s) := by
  simp [execDebugAccess]

/-! ### Planning -/

@[simp] theorem execBudgetGuard_keepsHalt (job l s) : KeepsHalt s (execBudgetGuard job l s) := by
  unfold execBudgetGuard
  apply keepsHalt_serve
  split <;> simp

@[simp] theorem execMeasurementTransfer_keepsHalt (job s) : KeepsHalt s (execMeasurementTransfer job s) := by
  unfold execMeasurementTransfer
  apply keepsHalt_serve
  split <;> simp

/-! ### Rings -/

@[simp] theorem execPoll_keepsHalt (doorbell descs s) : KeepsHalt s (execPoll doorbell descs s) := by
  unfold execPoll
  apply keepsHalt_live
  split <;> simp

@[simp] theorem execPlanRun_keepsHalt (ring index s) : KeepsHalt s (execPlanRun ring index s) := by simp [execPlanRun]
@[simp] theorem execCancel_keepsHalt (ring index s) : KeepsHalt s (execCancel ring index s) := by simp [execCancel]
@[simp] theorem execRecordRelease_keepsHalt (ring s) : KeepsHalt s (execRecordRelease ring s) := by simp [execRecordRelease]

@[simp] theorem execShadowHeaderRefresh_keepsHalt (s) : KeepsHalt s (execShadowHeaderRefresh s) := by
  simp [execShadowHeaderRefresh]

@[simp] theorem execRingEnable_keepsHalt (ring value replay s) :
    KeepsHalt s (execRingEnable ring value replay s) := by
  simp [execRingEnable]

@[simp] theorem execRingDisable_keepsHalt (ring value s) : KeepsHalt s (execRingDisable ring value s) := by
  simp [execRingDisable]

@[simp] theorem execDeviceDetach_keepsHalt (cause s) : KeepsHalt s (execDeviceDetach cause s) := by simp [execDeviceDetach]

@[simp] theorem execDeviceReattach_keepsHalt (doorbell replay s) :
    KeepsHalt s (execDeviceReattach doorbell replay s) := by
  simp [execDeviceReattach]

/-! ### Descriptors -/

@[simp] theorem execGoalSet_keepsHalt (ring record s) : KeepsHalt s (execGoalSet ring record s) := by
  refine keepsHalt_runHead fun t d => ?_
  split <;> simp

@[simp] theorem execSeedsLoad_keepsHalt (ring buffer s) : KeepsHalt s (execSeedsLoad ring buffer s) := by
  refine keepsHalt_runHead fun t d => ?_
  split <;> simp

@[simp] theorem execQuery_keepsHalt (ring s) : KeepsHalt s (execQuery ring s) := by
  refine keepsHalt_runHead fun t d => ?_
  split <;> simp

@[simp] theorem execFence_keepsHalt (ring s) : KeepsHalt s (execFence ring s) := by
  unfold execFence
  apply keepsHalt_live
  repeat' split
  all_goals simp

@[simp] theorem execContextSave_keepsHalt (ring s) : KeepsHalt s (execContextSave ring s) := by
  unfold execContextSave
  apply keepsHalt_live
  split
  · split
    · exact .refl _
    · exact .refl _
  · exact .refl _

@[simp] theorem execContextSaveComplete_keepsHalt (ring s) : KeepsHalt s (execContextSaveComplete ring s) := by
  unfold execContextSaveComplete
  apply keepsHalt_live
  repeat' split
  all_goals simp

@[simp] theorem execContextRestore_keepsHalt (ring index saved s) :
    KeepsHalt s (execContextRestore ring index saved s) := by
  unfold execContextRestore
  apply keepsHalt_live
  split
  · simp
  · split
    · simp
    · split
      · split
        · simp
        · exact .refl _
      · simp

@[simp] theorem execRestoreVerified_keepsHalt (ring index s) :
    KeepsHalt s (execRestoreVerified ring index s) := by
  unfold execRestoreVerified
  apply keepsHalt_live
  split <;> simp

/-! ### Fusion -/

@[simp] theorem execProbeCompare_keepsHalt (port s) : KeepsHalt s (execProbeCompare port s) := by
  unfold execProbeCompare
  apply keepsHalt_live
  repeat' split
  all_goals simp

/-! ### Plans, weights and recipes -/

@[simp] theorem execPlanLoad_keepsHalt (ring blob s) : KeepsHalt s (execPlanLoad ring blob s) := by
  refine keepsHalt_runHead fun t d => ?_
  split <;> simp

@[simp] theorem execWeightsLoad_keepsHalt (ring blob s) : KeepsHalt s (execWeightsLoad ring blob s) := by
  refine keepsHalt_runHead fun t d => ?_
  split <;> simp

@[simp] theorem execWeightsReplaceWrite_keepsHalt (id s) : KeepsHalt s (execWeightsReplaceWrite id s) := by
  unfold execWeightsReplaceWrite
  apply keepsHalt_serve
  split <;> simp

@[simp] theorem execRecipeLoad_keepsHalt (ring blob s) : KeepsHalt s (execRecipeLoad ring blob s) := by
  refine keepsHalt_runHead fun t d => ?_
  split <;> simp

@[simp] theorem execRecipeParseDone_keepsHalt (ring parse s) :
    KeepsHalt s (execRecipeParseDone ring parse s) := by
  unfold execRecipeParseDone
  apply keepsHalt_live
  split <;> simp

@[simp] theorem execGlowUnavailable_keepsHalt (ring s) : KeepsHalt s (execGlowUnavailable ring s) := by
  unfold execGlowUnavailable
  apply keepsHalt_live
  split <;> simp

/-! ### Slot walk -/

@[simp] theorem execSlotBoundary_keepsHalt (late s) : KeepsHalt s (execSlotBoundary late s) := by simp [execSlotBoundary]

/-! ### Confirmation -/

@[simp] theorem execEpochCheck_keepsHalt (job s) : KeepsHalt s (execEpochCheck job s) := by
  unfold execEpochCheck
  apply keepsHalt_serve
  split <;> simp

@[simp] theorem execReflectorAttempt_keepsHalt (job s) : KeepsHalt s (execReflectorAttempt job s) := by
  unfold execReflectorAttempt
  apply keepsHalt_serve
  split <;> simp

@[simp] theorem execReflectorVerdict_keepsHalt (job s) : KeepsHalt s (execReflectorVerdict job s) := by
  refine keepsHalt_of_service fun hservice => ?_
  have hne : s.safety.state ≠ .halt := hservice ▸ SState.noConfusion
  have hclose : HaltKept (haltView s) (haltView (closeAttempt s job)) := by simp [closeAttempt]
  split
  · exact .refl _
  · split
    · exact .refl _
    · dsimp only
      split
      · exact hclose
      · split
        · split
          · exact judgeRow_haltKept hclose hne _ _ _ _ _ _
          · exact raise_haltKept hclose _ _
        · exact hclose

/-! ### Lanterns and wicks -/

@[simp] theorem execWickInstruction_keepsHalt (l cycles ops rill s) :
    KeepsHalt s (execWickInstruction l cycles ops rill s) := by
  simp [execWickInstruction]

@[simp] theorem execContextSwitch_keepsHalt (l target s) : KeepsHalt s (execContextSwitch l target s) := by
  simp [execContextSwitch]

@[simp] theorem execContextLoad_keepsHalt (job cycle l target number s) :
    KeepsHalt s (execContextLoad job cycle l target number s) := by
  refine keepsHalt_serve (issue_haltKept (.refl _) _ _ _ fun t => ?_)
  split <;> simp

/-! ### Registers -/

@[simp] theorem execBasinPoolModeWrite_keepsHalt (value s) : KeepsHalt s (execBasinPoolModeWrite value s) := by
  simp [execBasinPoolModeWrite]

@[simp] theorem execPlanGridWrite_keepsHalt (value s) : KeepsHalt s (execPlanGridWrite value s) := by
  simp [execPlanGridWrite]

@[simp] theorem execSpecCtrlWrite_keepsHalt (value s) : KeepsHalt s (execSpecCtrlWrite value s) := by
  simp [execSpecCtrlWrite]

@[simp] theorem execTraceWinRead_keepsHalt (offset size s) : KeepsHalt s (execTraceWinRead offset size s) := by
  simp [execTraceWinRead]

@[simp] theorem execRcFieldRead_keepsHalt (bar offset size counted s) :
    KeepsHalt s (execRcFieldRead bar offset size counted s) := by
  simp [execRcFieldRead]

@[simp] theorem execRegisterWrite_keepsHalt (bar offset size data sets s) :
    KeepsHalt s (execRegisterWrite bar offset size data sets s) := by
  simp [execRegisterWrite]

/-! ## Every command -/

/-- The commands that may leave HALT: the power-on, a device reset and its start-up, and the wake from the pilot state. -/
def mayLeaveHalt (c : Instr) : Prop :=
  (∃ o, c = .powerOn o) ∨ c = .deviceReset ∨ (∃ o, c = .perstDeassert o) ∨ ∃ ok n o, c = .pilotWake ok n o

/-- Every other command, by the lemma of its arm. -/
theorem exec_keepsHalt {c : Instr} (hc : ¬ mayLeaveHalt c) (s : State) : KeepsHalt s (exec c s) := by
  cases c with
  | powerOn o => exact absurd (.inl ⟨o, rfl⟩) hc
  | deviceReset => exact absurd (.inr (.inl rfl)) hc
  | perstDeassert o => exact absurd (.inr (.inr (.inl ⟨o, rfl⟩))) hc
  | pilotWake ok n o => exact absurd (.inr (.inr (.inr ⟨ok, n, o, rfl⟩))) hc
  | _ => simp [exec]

/-! ### The rule of HALT through a reset -/

/-- Whatever state the outcome leads to, the rule of HALT holds there. -/
def Stopping (o : Out) : Prop := ∀ t, o = .next t → (haltView t).Stops

theorem stopping_next {t : State} (h : (haltView t).Stops) : Stopping (.next t) := by
  rintro u ⟨⟩
  exact h

section Resets
variable {s : State} (h : (haltView s).Stops)
include h

theorem execPowerOn_stopping (o) : Stopping (execPowerOn o s) := by
  refine stopping_next ?_
  split
  · exact h
  · have hfresh : ∀ t b, (haltView (freshHub t b)).Stops := fun t b => HaltView.stops_of_ne_halt SState.noConfusion
    dsimp only
    split
    · exact hfresh _ _
    · exact startFrom3_stops (hfresh _ _) o

theorem execDeviceReset_stopping : Stopping (execDeviceReset s) := by
  refine stopping_next ?_
  dsimp only
  split
  · exact resetBegin_stops _
  · exact h

theorem execPerstDeassert_stopping (o) : Stopping (execPerstDeassert o s) := by
  refine stopping_next ?_
  dsimp only
  split
  · exact restart_stops (by exact h) o
  · exact h

theorem execPilotWake_stopping (ok n o) : Stopping (execPilotWake ok n o s) := by
  refine stopping_next ?_
  split
  · dsimp only
    split
    · rw [leavePilot_haltView]
      exact h
    · exact restart_stops (resetBegin_stops _) o
  · exact h

theorem exec_stopping (c : Instr) : Stopping (exec c s) := by
  by_cases hc : mayLeaveHalt c
  · obtain ⟨o, rfl⟩ | rfl | ⟨o, rfl⟩ | ⟨ok, n, o, rfl⟩ := hc
    · exact execPowerOn_stopping h o
    · exact execDeviceReset_stopping h
    · exact execPerstDeassert_stopping h o
    · exact execPilotWake_stopping h ok n o
  · exact fun t ht => (exec_keepsHalt hc s t ht).2 h

end Resets

@[simp] theorem tickPass_haltView (s) : haltView (tickPass s) = haltView s := by simp [tickPass]

/-- Settles O57: a reset begins a start-up, which keeps the rule; every other command keeps it, and the passing of time changes
nothing that it reads. -/
theorem stepKeepsHaltStops : Obligations.StepKeepsHaltStops := by
  unfold Obligations.StepKeepsHaltStops
  intro s t h hstep
  rw [haltStops_iff] at h ⊢
  unfold step at hstep
  split at hstep
  next c rest _ => exact exec_stopping (s := { s with pending := rest }) h c t hstep
  · obtain rfl := Host.Outcome.next.inj hstep
    rwa [tickPass_haltView]

/-- Settles O58: every command but these keeps HALT. -/
theorem haltIsLeftByReset : Obligations.HaltIsLeftByReset := by
  unfold Obligations.HaltIsLeftByReset
  intro s t c hhalt hexec hleft
  by_contra hc
  exact hleft ((exec_keepsHalt hc s t hexec).1 hhalt)

end Sys2Proof.Machine

/-! # The fault handler (O20, O22)

An S1 event asserts STOP_REQ_N and every later step of its response keeps it asserted. In service the response ends in
`beginRelight`, whose result is said once below: the jobs end, and the state is that of a relight or of HALT. -/

namespace Sys2Proof.Machine

open Sys2Proof

/-! ## The start of a relight and of HALT -/

theorem refreshHeader_pwr (s : State) : (refreshHeader s).pwr = s.pwr := by
  obtain ⟨r, h, heq⟩ := refreshHeader_frame s
  rw [heq]

theorem refreshHeader_jobs (s : State) : (refreshHeader s).jobs = s.jobs := by
  obtain ⟨r, h, heq⟩ := refreshHeader_frame s
  rw [heq]

@[simp] theorem enterHalt_jobs (s : State) : (enterHalt s).jobs = [] := by
  simp [enterHalt, refreshHeader_jobs]

@[simp] theorem enterHalt_safety (s : State) : (enterHalt s).safety = { s.safety with handed := false, state := .halt } := by
  simp [enterHalt, refreshHeader_safety, keepGates, assertStop]

/-- What a relight's start writes of the handler's registers where the budget of two in 10 s has room. -/
def relightStarted (s : State) : Safety :=
  { s.safety with
    handed := false, state := .relight, relightAt := s.pwr.ticks :: s.safety.relightAt.take 3
    relights := satInc s.safety.relights }

section Begin

variable {s : State} (h : s.safety.state = .service)
include h

theorem beginRelight_eq_enterHalt (hfull : 2 ≤ relights10s s) : beginRelight s = enterHalt s := by
  simp [beginRelight, h, hfull]

theorem beginRelight_safety (hroom : relights10s s < 2) : (beginRelight s).safety = relightStarted s := by
  simp [beginRelight, h, Nat.not_le.mpr hroom, refreshHeader_safety, keepGates, assertStop, relightStarted]

theorem beginRelight_state :
    (beginRelight s).safety.state = if 2 ≤ relights10s s then .halt else .relight := by
  split
  next hfull => rw [beginRelight_eq_enterHalt h hfull, enterHalt_safety]
  next hroom => rw [beginRelight_safety h (Nat.not_le.mp hroom)]; rfl

theorem beginRelight_jobs : (beginRelight s).jobs = [] := by
  by_cases hfull : 2 ≤ relights10s s
  · rw [beginRelight_eq_enterHalt h hfull, enterHalt_jobs]
  · simp [beginRelight, h, hfull, refreshHeader_jobs]

end Begin

/-! ## STOP_REQ_N asserted -/

/-- STOP_REQ_N is asserted and no hand-off has followed. -/
def StopAsserted (s : State) : Prop := s.pwr.stop = true ∧ s.safety.handed = false

theorem stopAsserted_of_haltView {s t : State} (h : StopAsserted s) (hview : haltView t = haltView s) : StopAsserted t := by
  obtain ⟨-, hhanded, hstop⟩ := HaltView.mk.inj hview
  exact ⟨hstop.trans h.1, hhanded.trans h.2⟩

theorem assertStop_stopAsserted (s : State) : StopAsserted (assertStop s) := ⟨rfl, rfl⟩

theorem flushed_stopAsserted (s : State) : StopAsserted (emberFlushStart (assertStop s)) :=
  stopAsserted_of_haltView (assertStop_stopAsserted s) (emberFlushStart_haltView _)

theorem enterHalt_stopAsserted (s : State) : StopAsserted (enterHalt s) := by
  obtain ⟨-, hhanded, hstop⟩ := HaltView.mk.inj (enterHalt_haltView s)
  exact ⟨hstop, hhanded⟩

theorem beginRelight_stopAsserted {s : State} (h : StopAsserted s) : StopAsserted (beginRelight s) := by
  unfold beginRelight
  split
  · exact h
  · split
    · exact enterHalt_stopAsserted s
    · simp [StopAsserted, refreshHeader_pwr, refreshHeader_safety, keepGates, assertStop]

theorem handleNow_stopAsserted {s : State} (h : StopAsserted s) (e : EventClass × Nat) : StopAsserted (handleNow s e) := by
  unfold handleNow
  dsimp only
  split
  · exact beginRelight_stopAsserted h
  · exact h

theorem queueOverflow_stopAsserted (s : State) : StopAsserted (queueOverflow s) := by
  have h := flushed_stopAsserted (emberEvent s .faultQueueOverflow [] false)
  unfold queueOverflow
  dsimp only
  split
  · exact h
  · split
    · exact h
    · exact handleNow_stopAsserted h _

theorem handlerArrive_stopAsserted {s : State} (h : StopAsserted s) (cls : EventClass) :
    StopAsserted (handlerArrive s cls) := by
  unfold handlerArrive
  extract_lets e now
  split
  · exact handleNow_stopAsserted h e
  · split
    · exact h
    · exact queueOverflow_stopAsserted s

theorem respondS1_stopAsserted (s : State) (cls : EventClass) : StopAsserted (respondS1 s cls) := by
  unfold respondS1
  dsimp only
  split
  · exact enterHalt_stopAsserted _
  · split
    · exact flushed_stopAsserted s
    · exact handlerArrive_stopAsserted (flushed_stopAsserted s) cls

/-! ## An event reaches the handler -/

/-- The handler's registers after an event below S1 that finds room. -/
def arrived (f : Safety) (e : EventClass × Nat) : Safety :=
  match f.current with
  | none => { f with current := some e }
  | some c =>
    if e.2 < c.2 then { f with current := some e, suspended := c :: f.suspended } else { f with queue := f.queue ++ [e] }

theorem handleNow_of_low {e : EventClass × Nat} (he : e.2 ≠ 1) (s : State) :
    handleNow s e = { s with safety := { s.safety with
      suspended := s.safety.current.toList ++ s.safety.suspended, current := some e } } :=
  if_neg he

theorem handleNow_of_s1 {e : EventClass × Nat} (he : e.2 = 1) (s : State) :
    handleNow s e = beginRelight { s with safety := { s.safety with
      suspended := s.safety.current.toList ++ s.safety.suspended, current := some e } } :=
  if_pos he

theorem handlerArrive_of_low {s : State} {cls : EventClass} (hlow : cls.severity ≠ 1) (hroom : s.safety.queue.length < 8) :
    handlerArrive s cls = { s with safety := arrived s.safety (cls, cls.severity) } := by
  unfold handlerArrive arrived
  cases hcurrent : s.safety.current with
  | none => simp [hlow, handleNow_of_low, hcurrent]
  | some c =>
    by_cases hpre : cls.severity < c.2
    · simp [hlow, handleNow_of_low, hcurrent, hpre]
    · simp [hcurrent, hpre, hroom]

theorem raise_of_low {s : State} {cls : EventClass} {words : List W32} (hlow : cls.severity ≠ 1)
    (hroom : s.safety.queue.length < 8) (hlive : suppressed s cls = false) :
    ∃ e, raise s cls words = { s with ember := e, safety := arrived s.safety (cls, cls.severity) } := by
  obtain ⟨e, hlog⟩ := emberEvent_eq s cls words false
  refine ⟨e, ?_⟩
  simp only [raise, raiseEv, hlive, Bool.false_eq_true, if_false, if_neg hlow, hlog]
  exact handlerArrive_of_low (s := { s with ember := e }) hlow hroom

/-! ## An S1 event -/

theorem raise_of_s1 {s : State} {cls : EventClass} {words : List W32} (hs1 : cls.severity = 1)
    (hlive : suppressed s cls = false) : raise s cls words = respondS1 (emberEvent s cls words false) cls := by
  simp [raise, raiseEv, hlive, hs1]

theorem respondS1_tempTrip (s : State) : respondS1 s .tempTrip = enterHalt (emberFlushStart (assertStop s)) := by
  simp [respondS1]

theorem respondS1_of_ready {s : State} {cls : EventClass} (htrip : cls ≠ .tempTrip) (hready : s.pwr.ready = true) :
    respondS1 s cls = handlerArrive (emberFlushStart (assertStop s)) cls := by
  have hstill : (assertStop s).pwr.ready = true := hready
  simp [respondS1, htrip, hstill]

/-- In service and with no S1 event in hand an S1 event is taken at once. -/
theorem handlerArrive_of_s1 {s : State} {cls : EventClass} (hs1 : cls.severity = 1) (hserving : s.safety.state = .service)
    (hfree : ∀ c, s.safety.current = some c → 1 < c.2) : handlerArrive s cls = handleNow s (cls, 1) := by
  unfold handlerArrive
  cases hcurrent : s.safety.current with
  | none => simp [hs1, hserving]
  | some c => simp [hs1, hserving, hfree c hcurrent]

/-- What an S1 event that is taken in service leads to: no job, and a relight or HALT. -/
theorem handleNow_in_service {s : State} {e : EventClass × Nat} (he : e.2 = 1) (hserving : s.safety.state = .service) :
    (handleNow s e).jobs = []
      ∧ (handleNow s e).safety.state = if 2 ≤ relights10s s then .halt else .relight := by
  rw [handleNow_of_s1 he]
  exact ⟨beginRelight_jobs hserving, beginRelight_state hserving⟩

theorem respondS1_in_service {s : State} {cls : EventClass} (hs1 : cls.severity = 1) (htrip : cls ≠ .tempTrip)
    (hready : s.pwr.ready = true) (hserving : s.safety.state = .service)
    (hfree : ∀ c, s.safety.current = some c → 1 < c.2) :
    (respondS1 s cls).jobs = []
      ∧ (respondS1 s cls).safety.state = if 2 ≤ relights10s s then .halt else .relight := by
  obtain ⟨e, hflush⟩ := emberFlushStart_eq (assertStop s)
  rw [respondS1_of_ready htrip hready, hflush,
    handlerArrive_of_s1 (s := { assertStop s with ember := e }) hs1 hserving hfree]
  exact handleNow_in_service (s := { assertStop s with ember := e }) rfl hserving

/-- Settles O20: below S1 only the log and the handler's registers change; an S1 event asserts STOP_REQ_N, which its response
keeps asserted, and in service it is taken at once. -/
theorem raisingAnEvent : Obligations.RaisingAnEvent := by
  refine ⟨fun s cls words hlow hroom hlive => ?_, fun s cls words hs1 hlive => ?_⟩
  · obtain ⟨e, h⟩ := raise_of_low (words := words) hlow hroom hlive
    simp only [h]
    refine ⟨?_, ?_, ?_, ?_, rfl⟩
    · simp [SameBoard]
    · simp [SameWork]
    · simp [SameField]
    · simp [SameFabric]
  · simp only [raise_of_s1 hs1 hlive]
    obtain ⟨hstop, hhanded⟩ := respondS1_stopAsserted (emberEvent s cls words false) cls
    refine ⟨hstop, hhanded, ?_, fun htrip hready hserving hfree => ?_⟩
    · rintro rfl
      rw [respondS1_tempTrip]
      exact ⟨by rw [enterHalt_safety], enterHalt_jobs _⟩
    · obtain ⟨e, hlog⟩ := emberEvent_eq s cls words false
      rw [hlog]
      exact respondS1_in_service (s := { s with ember := e }) hs1 htrip hready hserving hfree

/-! ## The handling of an event is complete -/

theorem exec_faultHandlingComplete {s : State} {c : EventClass × Nat} (hs : Live s) (hcurrent : s.safety.current = some c)
    (hserving : s.safety.state = .service) : exec .faultHandlingComplete s = .next (handlerDone s) := by
  change execFaultHandlingComplete s = _
  simp [execFaultHandlingComplete, live_of_hub hs, hcurrent, hserving]

section Done

variable {s : State} (hserving : s.safety.state = .service)
include hserving

theorem handlerDone_of_overflow (hover : s.safety.overflow ≠ 0) :
    handlerDone s = handleNow
      { s with safety := { s.safety with current := none, overflow := s.safety.overflow - 1 } } (.faultQueueOverflow, 1) := by
  simp [handlerDone, nextS1, hserving, hover]

theorem handlerDone_of_s1 {e : EventClass × Nat} (hover : s.safety.overflow = 0)
    (hfirst : (s.safety.queue.find? fun e => e.2 == 1) = some e) :
    handlerDone s = handleNow { s with safety := { s.safety with current := none, queue := s.safety.queue.erase e } } e := by
  simp [handlerDone, nextS1, hserving, hover, hfirst]

section NoS1

variable (hover : s.safety.overflow = 0) (hqueue : ∀ e ∈ s.safety.queue, e.2 ≠ 1)
include hover hqueue

omit hserving hover in
theorem find_s1_eq_none : (s.safety.queue.find? fun e => e.2 == 1) = none :=
  List.find?_eq_none.mpr fun e he => by simpa using hqueue e he

theorem handlerDone_of_suspended {d : EventClass × Nat} {rest : List (EventClass × Nat)}
    (hsuspended : s.safety.suspended = d :: rest) :
    handlerDone s = { s with safety := { s.safety with current := some d, suspended := rest } } := by
  simp [handlerDone, nextS1, hserving, hover, find_s1_eq_none hqueue, hsuspended]

theorem handlerDone_of_queued {e : EventClass × Nat} {rest : List (EventClass × Nat)} (hsuspended : s.safety.suspended = [])
    (hhead : s.safety.queue = e :: rest) :
    handlerDone s = { s with safety := { s.safety with current := some e, queue := rest } } := by
  have hlow : e.2 ≠ 1 := hqueue e (by simp [hhead])
  have hnone := find_s1_eq_none hqueue
  rw [hhead] at hnone
  simp [handlerDone, nextS1, hserving, hover, hnone, hsuspended, hhead, hlow, handleNow_of_low]

omit hqueue in
theorem handlerDone_of_idle (hsuspended : s.safety.suspended = []) (hempty : s.safety.queue = []) :
    handlerDone s = { s with safety := { s.safety with current := none } } := by
  simp [handlerDone, nextS1, hserving, hover, hsuspended, hempty]

end NoS1

end Done

/-- An S1 event that the handler takes when it is done begins a relight where the budget has room. -/
theorem handleNow_relights {s : State} {e : EventClass × Nat} (he : e.2 = 1) (hserving : s.safety.state = .service)
    (hidle : s.safety.current = none) (hroom : relights10s s < 2) :
    let t := handleNow s e
    t.safety.current = some e ∧ t.safety.overflow = s.safety.overflow ∧ t.safety.queue = s.safety.queue
      ∧ t.safety.suspended = s.safety.suspended ∧ t.safety.state = .relight ∧ t.jobs = [] := by
  intro t
  have hjobs : t.jobs = [] := (handleNow_in_service he hserving).1
  have hsafety : t.safety = relightStarted { s with safety := { s.safety with
      suspended := s.safety.current.toList ++ s.safety.suspended, current := some e } } :=
    (congrArg State.safety (handleNow_of_s1 he s)).trans (beginRelight_safety hserving hroom)
  rw [hsafety]
  simp [relightStarted, hidle, hjobs]

/-- Settles O22, by what waits: the overflow, an S1 event, a pre-empted handling, the queue's head, or nothing. -/
theorem handlingCompletes : Obligations.HandlingCompletes := by
  intro s c hs hcurrent hserving
  rw [exec_faultHandlingComplete hs hcurrent hserving]
  refine ⟨fun hover hqueue => ⟨fun d rest hsuspended => ?_, fun hsuspended e rest hhead => ?_, fun hsuspended hempty => ?_⟩,
    fun hroom => ⟨fun hover => ⟨_, rfl, ?_⟩, fun e hover hfirst => ⟨_, rfl, ?_⟩⟩⟩
  · rw [handlerDone_of_suspended hserving hover hqueue hsuspended]
  · rw [handlerDone_of_queued hserving hover hqueue hsuspended hhead]
  · rw [handlerDone_of_idle hserving hover hsuspended hempty]
  · rw [handlerDone_of_overflow hserving hover]
    obtain ⟨hcur, hov, hqu, hsu, hst, hjobs⟩ := handleNow_relights (s := { s with safety := { s.safety with
      current := none, overflow := s.safety.overflow - 1 } }) (e := (.faultQueueOverflow, 1)) rfl hserving rfl hroom
    exact ⟨hcur, by rw [hov]; exact Nat.succ_pred hover, hqu, hsu, hst, hjobs⟩
  · rw [handlerDone_of_s1 hserving hover hfirst]
    have he : e.2 = 1 := by simpa using List.find?_some hfirst
    obtain ⟨hcur, -, hqu, hsu, hst, hjobs⟩ := handleNow_relights (s := { s with safety := { s.safety with
      current := none, queue := s.safety.queue.erase e } }) he hserving rfl hroom
    exact ⟨hcur, hqu, hsu, hst, hjobs⟩

end Sys2Proof.Machine

/-! # Releases and timers (O24)

Each of the clauses is one branch of its instruction; what a failing slice does to the retirement fuses is `retire_blows`. -/

namespace Sys2Proof.Machine

open Sys2Proof

/-! ## STOP_RELEASE (R286) -/

theorem stopReleaseWrite_ignored {s : State} (h : stopRelHost s = false ∨ s.pwr.stop = false) : stopReleaseWrite s = s := by
  rcases h with h | h <;> simp [stopReleaseWrite, h]

section Release

variable {s : State} (hhost : stopRelHost s = true) (hstop : s.pwr.stop = true)
include hhost hstop

theorem stopReleaseWrite_of_handed (h : s.safety.handed = true) :
    stopReleaseWrite s = { s with pwr := { s.pwr with stop := false } } := by
  simp [stopReleaseWrite, hhost, hstop, h]

theorem stopReleaseWrite_early (h : s.safety.handed = false) :
    stopReleaseWrite s = raise s .stopReleaseEarly [] := by
  simp [stopReleaseWrite, hhost, hstop, h]

end Release

theorem exec_stopRelease {s : State} (hs : OnLink s) : exec .stopRelease s = .next (stopReleaseWrite s) :=
  busLive_of_onLink hs stopReleaseWrite

/-! ## The world age (R301) -/

section WorldAge

variable {s : State} (hs : Live s)
include hs

theorem exec_worldStale_late (hfirst : s.world.staleLogged = false) (hage : 3200000 < worldAge s) :
    exec .worldStale s = .next (raise { s with
      world := { s.world with staleLogged := true }, safety := { s.safety with stale := true } } .worldStale []) := by
  change execWorldStale s = _
  simp [execWorldStale, live_of_hub hs, hfirst, ticksPerMs, Nat.not_le.mpr hage]

theorem exec_worldStale_early (hage : worldAge s ≤ 3200000) : exec .worldStale s = .next s := by
  change execWorldStale s = _
  simp [execWorldStale, live_of_hub hs, ticksPerMs, hage]

end WorldAge

/-! ## The diagnostic age (R303) -/

section DiagAge

variable {s : State} {p : Phys} (hs : Live s)
include hs

theorem exec_diagOverdue_late (hdiag : diagnosed s p = true) (hfirst : (lant s p).overdue = false)
    (hage : 3200000 < diagAge s p) :
    exec (.diagOverdue p) s = .next (raise
      { setLant s p { lant s p with overdue := true } with safety := { s.safety with degraded := true } } .diagOverdue []) := by
  change execDiagOverdue p s = _
  simp [execDiagOverdue, live_of_hub hs, hdiag, hfirst, ticksPerMs, Nat.not_le.mpr hage, modLant]

theorem exec_diagOverdue_early (hage : diagAge s p ≤ 3200000) : exec (.diagOverdue p) s = .next s := by
  change execDiagOverdue p s = _
  simp [execDiagOverdue, live_of_hub hs, ticksPerMs, hage]

theorem exec_diagAdmitHold_late (hdiag : diagnosed s p = true) (hage : 6400000 ≤ diagAge s p) :
    exec (.diagAdmitHold p) s = .next (setLant s p { lant s p with diagHold := true }) := by
  change execDiagAdmitHold p s = _
  simp [execDiagAdmitHold, live_of_hub hs, hdiag, ticksPerMs, hage, modLant]

theorem exec_diagAdmitHold_early (hage : diagAge s p < 6400000) : exec (.diagAdmitHold p) s = .next s := by
  change execDiagAdmitHold p s = _
  simp [execDiagAdmitHold, live_of_hub hs, ticksPerMs, Nat.not_le.mpr hage]

/-! ## Self-test slices (R102, R302 to R304) -/

variable (hallowed : sliceAllowed s p = true)
include hallowed

theorem exec_selftestSlice_fail :
    exec (.selftestSlice p false) s = .next (raise (retire s [p]) .lanternSelftestFail []) := by
  change execSelftestSlice p false s = _
  simp [execSelftestSlice, live_of_hub hs, hallowed]

theorem exec_selftestSlice_counts (hfew : (lant s p).slices < 24) : exec (.selftestSlice p true) s =
    .next (setLant s p { lant s p with slices := (lant s p).slices + 1 }) := by
  have hnext : (lant s p).slices + 1 < 25 := Nat.succ_lt_succ hfew
  change execSelftestSlice p true s = _
  simp [execSelftestSlice, live_of_hub hs, hallowed, hnext, modLant]

theorem exec_selftestSlice_last (hall : 24 ≤ (lant s p).slices) :
    exec (.selftestSlice p true) s = .next (passDone s p) := by
  have hnext : ¬ (lant s p).slices + 1 < 25 := Nat.not_lt.mpr (Nat.succ_le_succ hall)
  change execSelftestSlice p true s = _
  simp [execSelftestSlice, live_of_hub hs, hallowed, hnext]

end DiagAge

theorem extendFuses_fuses (s : State) : (extendFuses s).fuses = s.fuses := rfl

theorem retire_blows {s : State} {p : Phys} (h : isDisabled s.fuses p = false) : isRetired (retire s [p]).fuses p = true := by
  cases hretired : isRetired s.fuses p with
  | true => simp [retire, hretired]
  | false =>
    have hblown : (retire s [p]).fuses.retired = s.fuses.retired ++ [p] := by
      simp [retire, hretired, h, extendFuses_fuses]
    simp [isRetired, hblown]

/-- The end of a pass writes the lantern's own diagnostic registers; of the rest it may clear DEGRADED. -/
theorem lant_passDone (s : State) (p q : Phys) :
    lant (passDone s p) q = if p = q then
        { lant s p with slices := 0, diagStart := s.pwr.ticks, overdue := false, diagHold := false }
      else lant s q := by
  have hset := lant_modLant s p q fun l => { l with slices := 0, diagStart := s.pwr.ticks, overdue := false, diagHold := false }
  unfold passDone
  dsimp only
  split
  · exact hset
  · exact hset

/-- Settles O24, a clause to each branch of the instructions. -/
theorem releasesAndTimers : Obligations.ReleasesAndTimers := by
  refine ⟨fun s hs => ?_, fun s p hs => ⟨exec_worldStale_late hs, exec_worldStale_early hs, exec_diagOverdue_late hs,
    exec_diagOverdue_early hs, exec_diagAdmitHold_late hs, exec_diagAdmitHold_early hs, fun hallowed => ⟨?_, ?_, ?_⟩⟩⟩
  · rw [exec_stopRelease hs]
    exact ⟨fun h => congrArg _ (stopReleaseWrite_ignored h),
      fun hhost hstop h => congrArg _ (stopReleaseWrite_of_handed hhost hstop h),
      fun hhost hstop h => congrArg _ (stopReleaseWrite_early hhost hstop h)⟩
  · refine ⟨_, exec_selftestSlice_fail hs hallowed, rfl, fun henabled => ?_⟩
    rw [raise_fuses]
    exact retire_blows henabled
  · exact exec_selftestSlice_counts hs hallowed
  · intro hall
    refine ⟨_, exec_selftestSlice_last hs hallowed hall, ?_, fun q hq => ?_⟩
    · rw [lant_passDone, if_pos rfl]
    · rw [lant_passDone, if_neg hq.symm]

end Sys2Proof.Machine

/-! # The camera ports (O38)

A camera that leaves the sets may close the open one, which writes only two flags of each port: that is `OnlyFlags`, from
which the port's state after a detach and its probe verdict after a comparison are read. -/

namespace Sys2Proof.Machine

open Sys2Proof

/-! ## What the sets write of the ports -/

/-- Of every camera port at most the flags of the open set differ. -/
def OnlyFlags (s t : State) : Prop :=
  ∀ p, ∃ i l, camGet t p = { camGet s p with inSet := i, late := l }

theorem OnlyFlags.of_motion {s t : State} (h : t.motion = s.motion) : OnlyFlags s t := fun p =>
  ⟨(camGet s p).inSet, (camGet s p).late, by rw [camGet, camGet, h]⟩

theorem OnlyFlags.refl (s : State) : OnlyFlags s s := .of_motion rfl

theorem OnlyFlags.trans {a b c : State} (h : OnlyFlags a b) (k : OnlyFlags b c) : OnlyFlags a c := fun p => by
  obtain ⟨i, l, hb⟩ := h p
  obtain ⟨i', l', hc⟩ := k p
  exact ⟨i', l', by rw [hc, hb]⟩

theorem OnlyFlags.state {s t : State} (h : OnlyFlags s t) (p : Fin 4) : (camGet t p).state = (camGet s p).state := by
  obtain ⟨i, l, ht⟩ := h p
  rw [ht]

theorem OnlyFlags.probeFail {s t : State} (h : OnlyFlags s t) (p : Fin 4) :
    (camGet t p).probeFail = (camGet s p).probeFail := by
  obtain ⟨i, l, ht⟩ := h p
  rw [ht]

theorem tapFrame_motion (s : State) (f : SetFrame) : (tapFrame s f).motion = s.motion := by
  unfold tapFrame applyTap
  split
  · split <;> rfl
  · rfl

theorem tapFrames_motion (l : List SetFrame) (s : State) : (l.foldl tapFrame s).motion = s.motion :=
  List.foldlRecOn (motive := fun t : State => t.motion = s.motion) l tapFrame rfl
    fun t ht f _ => (tapFrame_motion t f).trans ht

theorem pushSet_motion (s : State) (f : FrameSet) : (pushSet s f).motion = s.motion := by
  unfold pushSet
  dsimp only
  split
  · rfl
  · exact raise_motion _ _ _

theorem settleAll_motion (s : State) : (settleAll s).motion = s.motion := (weirFrame_settleAll s).sameField.2.1

/-- The ports once the open set has closed: those still in reception are late. -/
def lateCams (s : State) : State :=
  { s with
    world := { s.world with openSet := none }
    motion := { s.motion with
      cams := s.motion.cams.map fun c => if c.inSet then { c with inSet := false, late := true } else c } }

theorem lateCams_onlyFlags (s : State) : OnlyFlags s (lateCams s) := fun p => by
  have hget : camGet (lateCams s) p =
      if (camGet s p).inSet then { camGet s p with inSet := false, late := true } else camGet s p := by
    rw [camGet, lateCams, Vector.get_eq_getElem, Vector.getElem_map]
    rfl
  rw [hget]
  split
  · exact ⟨_, _, rfl⟩
  · exact ⟨(camGet s p).inSet, (camGet s p).late, rfl⟩

theorem closeSet_onlyFlags (s : State) : OnlyFlags s (closeSet s) := by
  unfold closeSet
  split
  · exact .refl s
  case h_2 o _ =>
    dsimp only
    split
    · exact lateCams_onlyFlags s
    · exact (lateCams_onlyFlags s).trans
        (.of_motion (((settleAll_motion _).trans (pushSet_motion _ _)).trans (tapFrames_motion o.got _)))

theorem settleSet_onlyFlags (s : State) : OnlyFlags s (settleSet s) := by
  unfold settleSet
  split
  · split
    · exact closeSet_onlyFlags s
    · exact .refl s
  · exact .refl s

theorem camMod_inSet_onlyFlags (s : State) (p : Fin 4) :
    OnlyFlags s (camMod s p fun c => { c with inSet := false }) := fun q => by
  rw [camMod, camGet_camSet]
  split
  case isTrue h => subst h; exact ⟨_, (camGet s p).late, rfl⟩
  case isFalse => exact ⟨(camGet s q).inSet, (camGet s q).late, rfl⟩

theorem leaveSets_onlyFlags (s : State) (p : Fin 4) : OnlyFlags s (leaveSets s p) := by
  unfold leaveSets
  split
  · exact ((camMod_inSet_onlyFlags s p).trans (.of_motion rfl)).trans (settleSet_onlyFlags _)
  · exact .refl s

theorem raise_onlyFlags (s : State) (cls : EventClass) (words : List W32) : OnlyFlags s (raise s cls words) :=
  .of_motion (raise_motion s cls words)

theorem modJob_onlyFlags (s : State) (r : JobRef) (f : Job → Job) : OnlyFlags s (modJob s r f) := .of_motion rfl

theorem dropFrames_onlyFlags (s : State) (p : Fin 4) : OnlyFlags s (dropFrames s p) := .of_motion rfl

/-- A verdict on the port's frames leaves what its probe comparison showed. -/
theorem judge_probeFail (s : State) (p : Fin 4) : (camGet (judge s p) p).probeFail = (camGet s p).probeFail := by
  unfold judge
  dsimp only
  split
  · rw [(((raise_onlyFlags _ _ _).trans (leaveSets_onlyFlags _ p)).trans (dropFrames_onlyFlags _ p)).probeFail]
    simp
  · split
    · rw [(raise_onlyFlags _ _ _).probeFail]
      simp
    · simp

/-! ## Discovery and configuration (R393, R394) -/

section Configure

variable {s : State} {p : Fin 4} (hs : Live s)
include hs

theorem exec_cameraDiscovered {cfg : CamCfg} (hcfg : camCfg s p = some cfg) (hstate : (camGet s p).state = 0)
    (hglow : s.mgmt.glow = 2 ∨ s.mgmt.glow = 3) : exec (.cameraDiscovered p cfg.bus cfg.provId) s =
      .next (camSet s p { CamPort.reset with state := 1 }) := by
  change execCameraDiscovered p cfg.bus cfg.provId s = _
  simp [execCameraDiscovered, live_of_hub hs, hcfg, hstate, hglow]

theorem exec_cameraDiscovered_other {cfg : CamCfg} (hcfg : camCfg s p = some cfg) {b : Fin 2} {id : W48}
    (hother : b ≠ cfg.bus ∨ id ≠ cfg.provId) : exec (.cameraDiscovered p b id) s = .next s := by
  have hmiss : (cfg.provId == id && cfg.bus == b) = false := by
    rw [Bool.and_eq_false_iff, beq_eq_false_iff_ne, beq_eq_false_iff_ne]
    exact hother.symm.imp Ne.symm Ne.symm
  change execCameraDiscovered p b id s = _
  simp only [execCameraDiscovered, live_of_hub hs, hcfg, Option.any_some, hmiss, Bool.and_false, Bool.false_eq_true, if_false]

theorem exec_cameraConfigured_held (hglow : glowRuns s = false) (ok : Bool) :
    exec (.cameraConfigured p ok) s = .next s := by
  change execCameraConfigured p ok s = _
  simp [execCameraConfigured, live_of_hub hs, hglow]

variable (hstate : (camGet s p).state = 1) (hglow : glowRuns s = true)
include hstate hglow

theorem exec_cameraConfigured_ok : exec (.cameraConfigured p true) s = .next (camSet s p { CamPort.reset with
    state := 2, lastSof := s.pwr.ticks, pattern := ((camCfg s p).map (·.pattern)).getD 0 }) := by
  change execCameraConfigured p true s = _
  simp [execCameraConfigured, live_of_hub hs, hstate, hglow]

theorem exec_cameraConfigured_again (hfew : (camGet s p).cfgFails < 2) : exec (.cameraConfigured p false) s =
    .next (camSet s p { camGet s p with cfgFails := (camGet s p).cfgFails + 1 }) := by
  change execCameraConfigured p false s = _
  simp [execCameraConfigured, live_of_hub hs, hstate, hglow, hfew]

theorem exec_cameraConfigured_fails (hmany : 2 ≤ (camGet s p).cfgFails) : exec (.cameraConfigured p false) s =
    .next (raise (camSet s p CamPort.reset) .camConfigFail []) := by
  have hthird : ¬ (camGet s p).cfgFails + 1 < 3 := Nat.not_lt.mpr (Nat.succ_le_succ hmany)
  change execCameraConfigured p false s = _
  simp [execCameraConfigured, live_of_hub hs, hstate, hglow, hthird]

end Configure

/-! ## A frame (R298, R392, R394) -/

theorem exec_frameReceived {s : State} {p : Fin 4} {cfg : CamCfg} {f : FrameObs} (hs : Live s) (hcfg : camCfg s p = some cfg)
    (hstate : 2 ≤ (camGet s p).state) (hdepth : hasDepth cfg f = true) :
    exec (.frameReceived p f) s = .next (frameIn s p (frameWhole cfg f) (assigned cfg f)) := by
  change execFrameReceived p f s = _
  simp only [execFrameReceived, live_of_hub hs, hcfg]
  simp [hdepth, Nat.not_lt.mpr hstate]

theorem frameIn_of_bad (s : State) (p : Fin 4) (f : FrameObs) : frameIn s p false f =
    raise (camSet s p { takeRef (camGet s p) f with inSet := false, late := false }) .camFrameBad [] := by
  simp [frameIn]

section Candidate

variable {s : State} {p : Fin 4} {f : FrameObs} (hstate : (camGet s p).state = 2) (hearly : (camGet s p).early = false)
  (hpattern : patternOk (camGet s p) f = true)
include hstate hearly hpattern

/-- A candidate's first passing frame counts, and no more. -/
theorem frameIn_of_first (hrun : (camGet s p).passRun = 0) :
    (camGet (frameIn s p true f) p).state = 2 ∧ (camGet (frameIn s p true f) p).passRun = 1 := by
  obtain ⟨r, n, href⟩ := takeRef_frame (camGet s p) f
  simp [frameIn, hstate, hearly, hpattern, hrun, href, note]

theorem frameIn_of_second (hrun : 1 ≤ (camGet s p).passRun) : (camGet (frameIn s p true f) p).state = 3 := by
  have hadmitted : ∃ t c, frameIn s p true f = raise (camSet t p c) .camAdmitted [] ∧ c.state = 3 := by
    obtain ⟨r, n, href⟩ := takeRef_frame (camGet s p) f
    simp only [frameIn, hstate, hearly, hpattern, hrun, href, note]
    exact ⟨s, _, rfl, rfl⟩
  obtain ⟨t, c, heq, hc⟩ := hadmitted
  rw [heq, (raise_onlyFlags _ _ _).state, camGet_camSet, if_pos rfl, hc]

end Candidate

/-! ## A camera goes (R394) -/

/-- The port once its camera has gone. -/
theorem detached_state (s : State) (p : Fin 4) :
    (camGet (raise (leaveSets (camSet s p .reset) p) .camDetached []) p).state = 0 := by
  rw [((leaveSets_onlyFlags (camSet s p .reset) p).trans (raise_onlyFlags _ _ _)).state, camGet_camSet, if_pos rfl]
  rfl

section Detach

variable {s : State} {p : Fin 4} (hs : Live s)
include hs

theorem exec_camDetached_noFrames (hstate : 2 ≤ (camGet s p).state) (hage : (camGet s p).lastSof + 3200000 ≤ s.pwr.ticks) :
    exec (.camDetached p .noFrames) s = .next (raise (leaveSets (camSet s p .reset) p) .camDetached []) := by
  have hlater : ¬ (camGet s p).state ≤ 1 := Nat.not_le.mpr hstate
  change execCamDetached p .noFrames s = _
  simp [execCamDetached, live_of_hub hs, hlater, ticksPerMs, hage]

theorem exec_camDetached_early (hage : s.pwr.ticks < (camGet s p).lastSof + 3200000) :
    exec (.camDetached p .noFrames) s = .next s := by
  change execCamDetached p .noFrames s = _
  simp [execCamDetached, live_of_hub hs, ticksPerMs, Nat.not_le.mpr hage]

theorem exec_camDetached_silent (hstate : (camGet s p).state ≠ 0) :
    exec (.camDetached p .i3cSilent) s = .next (raise (leaveSets (camSet s p .reset) p) .camDetached []) := by
  change execCamDetached p .i3cSilent s = _
  simp [execCamDetached, live_of_hub hs, hstate]

end Detach

/-! ## A probe comparison (R299) -/

theorem judgeProbe_probeFail (s : State) (j : Job) (set : FrameSet) (p : Fin 4) (ctr : W32) (ok : Bool) :
    (camGet (judgeProbe s j set p ctr ok) p).probeFail = !ok := by
  have hnoted : ∀ f : CamPort → CamPort, camGet (camMod s p f) p = f (camGet s p) := fun f =>
    (camGet_camSet s p p _).trans (if_pos rfl)
  unfold judgeProbe
  dsimp only
  split
  · rw [judge_probeFail, hnoted]
  · rw [judge_probeFail, ((modJob_onlyFlags _ _ _).trans (raise_onlyFlags _ _ _)).probeFail, hnoted]

theorem exec_probeCompare {s : State} {p : Fin 4} {j : Job} {set : FrameSet} {r : Recipe} {x : W32 × List (Nat × Nat)}
    (hs : Live s) (hjob : fusingJob s = some j) (hset : j.fusing = some set) (hrecipe : j.recipe = some r)
    (hprobed : s.world.probed.get p = some x) : exec (.probeCompare p) s =
      .next (judgeProbe s j set p x.1 (checkValues (probeNow s p) == checkValues (probeRegion r x.1 []))) := by
  change execProbeCompare p s = _
  simp only [execProbeCompare, live_of_hub hs, hjob, hset, hrecipe, hprobed]

/-! ## In-band events (R393, R470) -/

theorem exec_i3cInBandEvent_glow {s : State} (hs : Live s) (hstate : s.pwr.pstate ≠ .pilot) (bus : Fin 2) (hot : Bool) :
    exec (.i3cInBandEvent bus hot) s = .next { s with motion := { s.motion with i3c := s.motion.i3c ++ [(bus.val, hot)] } } := by
  have hhub : s.pwr.hub = true := hs
  change execI3cInBandEvent bus hot s = _
  simp [execI3cInBandEvent, hstate, hhub]

theorem exec_i3cInBandEvent_pilot {s : State} (hstate : s.pwr.pstate = .pilot) (bus : Fin 2) (hot : Bool) :
    exec (.i3cInBandEvent bus hot) s = .next { s with pwr := { s.pwr with wakeN := true } } := by
  change execI3cInBandEvent bus hot s = _
  simp [execI3cInBandEvent, hstate]

/-- Settles O38, in the order of a port's life: discovery, configuration, frames, a detach; then probes and in-band events. -/
theorem camerasAreAdmitted : Obligations.CamerasAreAdmitted := by
  intro s p cfg f bus hot hs c in_
  refine ⟨fun hcfg => ⟨fun hstate hglow => ?discovered, fun hstate hdepth hwhole hearly hpattern => ?passes,
      fun hstate hdepth hbad => ?bad⟩,
    fun hstate => ⟨fun hlow hhigh => ?configured, fun hglow => ?held⟩,
    fun hstate hage => ⟨_, exec_camDetached_noFrames hs hstate hage, detached_state s p⟩, exec_camDetached_early hs,
    fun hstate => ⟨_, exec_camDetached_silent hs hstate, detached_state s p⟩,
    fun j set r x hjob hset hrecipe hprobed =>
      ⟨_, exec_probeCompare hs hjob hset hrecipe hprobed, judgeProbe_probeFail s j set p _ _⟩,
    fun hstate => exec_i3cInBandEvent_glow hs hstate bus hot, fun hstate => exec_i3cInBandEvent_pilot hstate bus hot⟩
  case discovered =>
    exact ⟨exec_cameraDiscovered hs hcfg hstate hglow, fun b id => exec_cameraDiscovered_other hs hcfg⟩
  case passes =>
    refine ⟨_, exec_frameReceived hs hcfg hstate.ge hdepth, ?_⟩
    rw [hwhole]
    exact ⟨frameIn_of_first hstate hearly hpattern, frameIn_of_second hstate hearly hpattern⟩
  case bad => rw [exec_frameReceived hs hcfg hstate hdepth, hbad, frameIn_of_bad]
  case configured =>
    have hruns : glowRuns s = true := by simp [glowRuns, hlow, hhigh]
    exact ⟨exec_cameraConfigured_ok hs hstate hruns, exec_cameraConfigured_again hs hstate hruns,
      exec_cameraConfigured_fails hs hstate hruns⟩
  case held =>
    have hstopped : glowRuns s = false := by
      simp only [glowRuns, Bool.and_eq_false_iff, decide_eq_false_iff_not, Nat.not_le]
      exact hglow
    exact exec_cameraConfigured_held hs hstopped

end Sys2Proof.Machine

/-! # The queue, the byte memories and the reset state (O1, O2, O8, O55) -/

namespace Sys2Proof.Machine

open Sys2Proof

/-! ## The queue -/

theorem viaBus_next (host : Bool) (s : State) (f : State → State) : ∃ t, viaBus host s f = .next t := by
  cases host <;> exact ⟨_, rfl⟩

/-- Every command has an outcome that is a state. Those of the spouts and locks come over the link or from a core. -/
theorem exec_next (s : State) (c : Instr) : ∃ t, exec c s = .next t := by
  cases c with
  | spoutSend | spoutReceive | spoutAck | lockRead | lockWrite => exact viaBus_next _ _ _
  | _ => exact ⟨_, rfl⟩

/-- Settles O1: the first part is the definition of a step, and no arm of `exec` answers anything but a state. -/
theorem stepRunsFrontCommand : Obligations.StepRunsFrontCommand := by
  unfold Obligations.StepRunsFrontCommand
  refine ⟨fun s c rest hpending => ?_, exec_next⟩
  simp [step, hpending]

/-- Settles O2: the step on an empty queue is `tickPass`, whose two branches are the two clauses. -/
theorem idleStepIsOneTick : Obligations.IdleStepIsOneTick := by
  unfold Obligations.IdleStepIsOneTick
  intro s hpending
  have hstep : step s = .next (tickPass s) := by simp [step, hpending]
  rw [hstep]
  exact ⟨fun hoff => by simp [tickPass, hoff], fun hon => by simp [tickPass, hon]⟩

/-! ## Stores into a byte memory -/

/-- A byte of a string that is laid down from `a` on, past its first byte. -/
theorem nth_cons_of_lt {a b : Nat} (h : a < b) (v : Byte) (bs : List Byte) :
    nth (v :: bs) (b - a) 0 = nth bs (b - (a + 1)) 0 := by
  obtain ⟨k, hk⟩ : ∃ k, b - a = k + 1 := ⟨b - a - 1, by omega⟩
  rw [hk, show b - (a + 1) = k by omega]
  simp [nth]

/-- A store that drops the bytes whose addresses do not exist. -/
theorem Ram.read_writeWhere (has : Nat → Bool) (b : Nat) (bs : List Byte) (r : Ram) (a : Nat) :
    (r.writeWhere has a bs).read b =
      if a ≤ b ∧ b < a + bs.length ∧ has b = true then nth bs (b - a) 0 else r.read b := by
  induction bs generalizing r a with
  | nil => rw [if_neg (by simp; omega)]; rfl
  | cons v bs ih =>
    have hother (hne : a ≠ b) : (if has a = true then r.write a v else r).read b = r.read b := by
      split
      · rw [Ram.read_write, if_neg hne]
      · rfl
    rw [Ram.writeWhere, ih]
    rcases Nat.lt_trichotomy a b with hlt | rfl | hgt
    · have hrange : (a ≤ b ∧ b < a + (v :: bs).length ∧ has b = true) ↔
          (a + 1 ≤ b ∧ b < a + 1 + bs.length ∧ has b = true) := by
        simp only [List.length_cons, ← and_assoc, and_congr_left_iff]
        omega
      rw [hother hlt.ne, nth_cons_of_lt hlt]
      simp only [hrange]
    · rw [if_neg (by omega)]
      cases hhas : has a <;> simp [Ram.read_write, nth]
    · rw [if_neg (by omega), hother hgt.ne', if_neg (by omega)]

/-- Where every address exists, a store that drops none is the same store. -/
theorem Ram.writeWhere_true (bs : List Byte) (r : Ram) (a : Nat) : r.writeWhere (fun _ => true) a bs = r.writeN a bs := by
  induction bs generalizing r a with
  | nil => rfl
  | cons v bs ih => exact ih (r.write a v) (a + 1)

/-- Settles O8: by induction over the bytes stored; a store of all bytes is one where every address exists. -/
theorem writesAreLocal : Obligations.WritesAreLocal := by
  unfold Obligations.WritesAreLocal
  intro r a b bs has
  refine ⟨?_, Ram.read_writeWhere has b bs r a⟩
  rw [← Ram.writeWhere_true, Ram.read_writeWhere]
  simp

/-! ## The reset state -/

theorem memWf_reset : MemWf State.reset := by
  refine ⟨Ram.wf_empty, Ram.wf_empty, fun p => ?_, fun j hj => absurd hj List.not_mem_nil,
    fun d hd => absurd hd List.not_mem_nil⟩
  have hlantern : lant State.reset p = Lantern.reset := by
    simp [lant, State.reset, Vector.get_eq_getElem]
  rw [hlantern]
  exact Ram.wf_empty

/-- Settles O55: every memory is empty at reset, and the device is in start-up. -/
theorem resetMeetsInvariants : Obligations.ResetMeetsInvariants :=
  ⟨memWf_reset, fun hhalt => SState.noConfusion hhalt⟩

end Sys2Proof.Machine

/-! # What every step keeps: the owner key and the canonical form of the memories (O56, O59)

Both statements say that every step keeps a property of the fuses or of the memories, and neither follows from what a
step does to anything else. A `StandingRule` is such a property: what it asks of the fuses, and whether it asks the memories to be
in canonical form. One lemma for each function of the model says that it keeps every standing rule, a caller's after
those of the functions that it calls; the two statements are the two rules at the end. -/

namespace Sys2Proof.Machine

open Sys2Proof

/-- A property of the fuses that the fuse writes of the device keep (a retirement, the owner lock, the enrolment of an
owner where there is none), and whether the memories are to be in canonical form. -/
structure StandingRule where
  fuses : Fuses → Prop
  canonical : Prop
  retired : ∀ f l, fuses f → fuses { f with retired := l }
  locked : ∀ f, fuses f → fuses { f with lock := true }
  enrolled : ∀ (s : State) (slot : OwnerSlot), ownerKey s = none → fuses s.fuses →
    fuses { s.fuses with owner0 := slot } ∧ fuses { s.fuses with owner1 := slot }

namespace StandingRule

variable {R : StandingRule}

/-- What the rule asks of one memory. -/
def ram (R : StandingRule) (r : Ram) : Prop := R.canonical → r.wf

/-- The window copy that a descriptor to be re-executed holds meets the rule. -/
def ResumeOk (R : StandingRule) (o : Option Job) : Prop := ∀ j, o = some j → R.ram j.win

def LantsOk (R : StandingRule) (v : Vector Lantern 34) : Prop := ∀ p, R.ram (v.get p).basin

def JobsOk (R : StandingRule) (l : List Job) : Prop := ∀ j ∈ l, R.ram j.win

def DescsOk (R : StandingRule) (l : List DescEntry) : Prop := ∀ d ∈ l, R.ResumeOk d.resume

/-- The state meets the rule. -/
def Holds (R : StandingRule) (s : State) : Prop :=
  R.fuses s.fuses ∧ R.ram s.mem.cistern ∧ R.ram s.mem.dram ∧ R.LantsOk s.lanterns ∧ R.JobsOk s.jobs ∧ R.DescsOk s.descs

@[simp] theorem holds_mk {pwr fuses grid lanterns map mapRetired mapSet mem world rings host sluice descs jobs safety
    motion klink spout sec mgmt ember free pending} :
    R.Holds ⟨pwr, fuses, grid, lanterns, map, mapRetired, mapSet, mem, world, rings, host, sluice, descs, jobs, safety,
      motion, klink, spout, sec, mgmt, ember, free, pending⟩ ↔
    R.fuses fuses ∧ R.ram mem.cistern ∧ R.ram mem.dram ∧ R.LantsOk lanterns ∧ R.JobsOk jobs ∧ R.DescsOk descs := .rfl

@[simp] theorem holds_fields (s : State) :
    (R.fuses s.fuses ∧ R.ram s.mem.cistern ∧ R.ram s.mem.dram ∧ R.LantsOk s.lanterns ∧ R.JobsOk s.jobs ∧ R.DescsOk s.descs) ↔
      R.Holds s := .rfl

section Parts
variable {s : State} (h : R.Holds s)
include h

@[simp] theorem holds_fuses : R.fuses s.fuses := h.1
@[simp] theorem holds_cistern : R.ram s.mem.cistern := h.2.1
@[simp] theorem holds_dram : R.ram s.mem.dram := h.2.2.1
@[simp] theorem holds_lanterns : R.LantsOk s.lanterns := h.2.2.2.1
@[simp] theorem holds_jobs : R.JobsOk s.jobs := h.2.2.2.2.1
@[simp] theorem holds_descs : R.DescsOk s.descs := h.2.2.2.2.2
@[simp] theorem holds_basin (p) : R.ram (lant s p).basin := holds_lanterns h p
@[simp] theorem holds_placeRam (pl) : R.ram (placeRam s pl) := by
  cases pl <;> simp [placeRam, h]

theorem holds_job {r j} (hj : findJob s r = some j) : R.ram j.win := holds_jobs h j (List.mem_of_find?_eq_some hj)

theorem holds_desc {r d} (hd : findDesc s r = some d) : R.ResumeOk d.resume :=
  holds_descs h d (List.mem_of_find?_eq_some hd)

end Parts

/-! ## Memories -/

section Memories
variable {r : Ram} (h : R.ram r)
include h

@[simp] theorem ram_write (a v) : R.ram (r.write a v) := fun hc => Ram.wf_write _ _ _ (h hc)
@[simp] theorem ram_writeN (a bs) : R.ram (r.writeN a bs) := fun hc => Ram.wf_writeN _ _ _ (h hc)
@[simp] theorem ram_writeWhere (ok a bs) : R.ram (r.writeWhere ok a bs) := fun hc => Ram.wf_writeWhere _ _ _ _ (h hc)
@[simp] theorem ram_loseExcept (keep) : R.ram (r.loseExcept keep) := fun hc => Ram.wf_loseExcept _ _ (h hc)
@[simp] theorem ram_lose : R.ram r.lose := ram_loseExcept h _

@[simp] theorem ram_overlay {src : Ram} (hsrc : R.ram src) (base len) : R.ram (r.overlay src base len) :=
  fun hc => Ram.wf_overlay _ _ _ _ (h hc) (hsrc hc)

end Memories

@[simp] theorem ram_empty : R.ram .empty := fun _ => Ram.wf_empty
@[simp] theorem ram_blank : R.ram ⟨0, []⟩ := ram_empty

@[simp] theorem ram_cisternCopy {s : State} (h : R.Holds s) (base len) : R.ram (cisternCopy s base len) :=
  fun hc => wf_cisternCopy s base len (holds_cistern h hc)

/-! ## Jobs, descriptors and lanterns -/

@[simp] theorem jobsOk_nil : R.JobsOk [] := fun _ hj => absurd hj List.not_mem_nil

@[simp] theorem jobsOk_filter {l : List Job} (h : R.JobsOk l) (p) : R.JobsOk (l.filter p) :=
  fun j hj => h j (List.mem_of_mem_filter hj)

@[simp] theorem jobsOk_map {l : List Job} {f : Job → Job} (hf : ∀ j, (f j).win = j.win) :
    R.JobsOk (l.map f) ↔ R.JobsOk l := by
  simp [JobsOk, hf]

@[simp] theorem jobsOk_append {l m : List Job} : R.JobsOk (l ++ m) ↔ R.JobsOk l ∧ R.JobsOk m := List.forall_mem_append

@[simp] theorem jobsOk_singleton {j : Job} : R.JobsOk [j] ↔ R.ram j.win := List.forall_mem_singleton

@[simp] theorem resumeOk_none : R.ResumeOk none := fun _ hj => nomatch hj

@[simp] theorem resumeOk_some {j : Job} : R.ResumeOk (some j) ↔ R.ram j.win := by
  simp [ResumeOk]

@[simp] theorem resumeOk_map {o : Option Job} {f : Job → Job} (hf : ∀ j, (f j).win = j.win) :
    R.ResumeOk (o.map f) ↔ R.ResumeOk o := by
  cases o <;> simp [hf]

@[simp] theorem descsOk_nil : R.DescsOk [] := fun _ hd => absurd hd List.not_mem_nil

@[simp] theorem descsOk_filter {l : List DescEntry} (h : R.DescsOk l) (p) : R.DescsOk (l.filter p) :=
  fun d hd => h d (List.mem_of_mem_filter hd)

theorem descsOk_map {l : List DescEntry} (h : R.DescsOk l) {f : DescEntry → DescEntry}
    (hf : ∀ d, R.ResumeOk d.resume → R.ResumeOk (f d).resume) : R.DescsOk (l.map f) := by
  intro d hd
  obtain ⟨e, he, rfl⟩ := List.mem_map.mp hd
  exact hf e (h e he)

@[simp] theorem descsOk_append {l m : List DescEntry} : R.DescsOk (l ++ m) ↔ R.DescsOk l ∧ R.DescsOk m :=
  List.forall_mem_append

@[simp] theorem descsOk_singleton {d : DescEntry} : R.DescsOk [d] ↔ R.ResumeOk d.resume := List.forall_mem_singleton

theorem lantsOk_congr {v w : Vector Lantern 34} (h : ∀ p, (w.get p).basin = (v.get p).basin) : R.LantsOk w ↔ R.LantsOk v := by
  simp [LantsOk, h]

@[simp] theorem lantsOk_map {v : Vector Lantern 34} {f : Lantern → Lantern} (hf : ∀ l, (f l).basin = l.basin) :
    R.LantsOk (v.map f) ↔ R.LantsOk v :=
  lantsOk_congr fun p => by rw [Vector.get_eq_getElem, Vector.getElem_map, hf]; rfl

theorem lantsOk_map_keeps {v : Vector Lantern 34} (h : R.LantsOk v) {f : Lantern → Lantern}
    (hf : ∀ l, R.ram l.basin → R.ram (f l).basin) : R.LantsOk (v.map f) := by
  intro p
  rw [Vector.get_eq_getElem, Vector.getElem_map]
  exact hf _ (h p)

@[simp] theorem lantsOk_ofFn {f : Phys → Lantern} (hf : ∀ p, R.ram (f p).basin) : R.LantsOk (Vector.ofFn f) := by
  intro p
  rw [Vector.get_eq_getElem, Vector.getElem_ofFn]
  exact hf _

theorem lantsOk_set {v : Vector Lantern 34} (h : R.LantsOk v) (p : Phys) {l : Lantern} (hl : R.ram l.basin) :
    R.LantsOk (v.set p l) := by
  intro q
  rw [Vector.get_eq_getElem, Vector.getElem_set]
  split
  · exact hl
  · exact h q

/-! ## Folds, branches and options -/

@[simp] theorem foldl_holds {α : Type} {f : State → α → State} (hf : ∀ s a, R.Holds (f s a) ↔ R.Holds s) (l : List α)
    (s : State) : R.Holds (l.foldl f s) ↔ R.Holds s :=
  List.foldlRecOn (motive := fun t : State => R.Holds t ↔ R.Holds s) l f .rfl fun t ht a _ => (hf t a).trans ht

theorem foldl_keeps {α : Type} {f : State → α → State} (hf : ∀ s a, R.Holds s → R.Holds (f s a)) {s : State}
    (h : R.Holds s) (l : List α) : R.Holds (l.foldl f s) :=
  List.foldlRecOn (motive := fun t : State => R.Holds t) l f h fun t ht a _ => hf t a ht

/-- As `foldl_keeps`, for a function that keeps the rule on the members of the list. -/
theorem foldl_keeps_mem {α : Type} {f : State → α → State} {l : List α} (hf : ∀ s, ∀ a ∈ l, R.Holds s → R.Holds (f s a))
    {s : State} (h : R.Holds s) : R.Holds (l.foldl f s) :=
  List.foldlRecOn (motive := fun t : State => R.Holds t) l f h fun t ht a ha => hf t a ha ht

@[simp] theorem foldl_fst_holds {α β : Type} {f : State × β → α → State × β}
    (hf : ∀ w a, R.Holds w.1 → R.Holds (f w a).1) {w : State × β} (h : R.Holds w.1) (l : List α) : R.Holds (l.foldl f w).1 :=
  List.foldlRecOn (motive := fun t : State × β => R.Holds t.1) l f h fun t ht a _ => hf t a ht

@[simp] theorem ite_holds (p : Prop) [Decidable p] (a b : State) :
    R.Holds (if p then a else b) = if p then R.Holds a else R.Holds b := apply_ite R.Holds p a b

@[simp] theorem ite_fst_holds {β : Type} (p : Prop) [Decidable p] (a b : State × β) :
    R.Holds (if p then a else b).1 = if p then R.Holds a.1 else R.Holds b.1 := apply_ite (R.Holds ·.1) p a b

@[simp] theorem map_getD_holds {α : Type} {t : State} {f : α → State} (hf : ∀ a, R.Holds (f a)) (ht : R.Holds t)
    (o : Option α) : R.Holds ((o.map f).getD t) := by
  cases o with
  | none => exact ht
  | some a => exact hf a

@[simp] theorem ite_win (p : Prop) [Decidable p] (a b : Job) : (if p then a else b).win = if p then a.win else b.win :=
  apply_ite (·.win) p a b

@[simp] theorem ite_basin (p : Prop) [Decidable p] (a b : Lantern) :
    (if p then a else b).basin = if p then a.basin else b.basin := apply_ite (·.basin) p a b

@[simp] theorem ite_ram (p : Prop) [Decidable p] (a b : Ram) :
    R.ram (if p then a else b) = if p then R.ram a else R.ram b := apply_ite R.ram p a b

/-! ## Updates of one field -/

section Updates
variable {s : State}

@[simp] theorem modLant_holds (p) {f : Lantern → Lantern} (hf : (f (lant s p)).basin = (lant s p).basin) :
    R.Holds (modLant s p f) ↔ R.Holds s := by
  have hlants : R.LantsOk (modLant s p f).lanterns ↔ R.LantsOk s.lanterns := lantsOk_congr fun q => by
    change (lant (modLant s p f) q).basin = (lant s q).basin
    rw [lant_modLant]
    split
    next hpq => rw [hf, hpq]
    next => rfl
  simp [Holds, hlants, -holds_fields]

theorem modLant_keeps (h : R.Holds s) (p) {f : Lantern → Lantern} (hf : R.ram (f (lant s p)).basin) :
    R.Holds (modLant s p f) := by
  simp [modLant, setLant, h, lantsOk_set, hf]

@[simp] theorem modJob_holds (r) {f : Job → Job} (hf : ∀ j, (f j).win = j.win) : R.Holds (modJob s r f) ↔ R.Holds s := by
  simp [modJob, hf]

@[simp] theorem delJob_holds (h : R.Holds s) (r) : R.Holds (delJob s r) := by simp [delJob, h]

theorem modDesc_keeps (h : R.Holds s) (r) {f : DescEntry → DescEntry}
    (hf : ∀ d, R.ResumeOk d.resume → R.ResumeOk (f d).resume) : R.Holds (modDesc s r f) := by
  simp [modDesc, h]
  refine descsOk_map (holds_descs h) fun d hd => ?_
  split
  · exact hf d hd
  · exact hd

@[simp] theorem modDesc_holds (r) {f : DescEntry → DescEntry} (hf : ∀ d, (f d).resume = d.resume) :
    R.Holds (modDesc s r f) ↔ R.Holds s := by
  have hdescs : R.DescsOk (modDesc s r f).descs ↔ R.DescsOk s.descs := by
    simp [DescsOk, modDesc, apply_ite DescEntry.resume, hf]
  simp [Holds, hdescs, -holds_fields]

end Updates

/-! ## Updates of what no rule reads -/

section Elsewhere
variable (s : State)

@[simp] theorem setRing_holds (r v) : R.Holds (setRing s r v) ↔ R.Holds s := .rfl
@[simp] theorem modRing_holds (r f) : R.Holds (modRing s r f) ↔ R.Holds s := .rfl
@[simp] theorem modMgmt_holds (f) : R.Holds (modMgmt s f) ↔ R.Holds s := .rfl
@[simp] theorem kSet_holds (p k) : R.Holds (kSet s p k) ↔ R.Holds s := .rfl
@[simp] theorem setBus_holds (x) : R.Holds (setBus s x) ↔ R.Holds s := .rfl
@[simp] theorem noteSpec_holds (k e) : R.Holds (noteSpec s k e) ↔ R.Holds s := .rfl
@[simp] theorem launch_holds (f) : R.Holds (launch s f) ↔ R.Holds s := .rfl
@[simp] theorem noteWrite_holds (isDram start len now until_ src) :
    R.Holds (noteWrite s isDram start len now until_ src) ↔ R.Holds s := .rfl
@[simp] theorem startGrid_holds : R.Holds (startGrid s) ↔ R.Holds s := .rfl
@[simp] theorem stopGrid_holds : R.Holds (stopGrid s) ↔ R.Holds s := .rfl
@[simp] theorem busyNow_holds : R.Holds (busyNow s) ↔ R.Holds s := .rfl
@[simp] theorem hostWrite_holds (a bs) : R.Holds (hostWrite s a bs) ↔ R.Holds s := .rfl
@[simp] theorem raiseIrq_holds (v) : R.Holds (raiseIrq s v) ↔ R.Holds s := .rfl
@[simp] theorem extend_holds (i d) : R.Holds (extend s i d) ↔ R.Holds s := .rfl
@[simp] theorem assertStop_holds : R.Holds (assertStop s) ↔ R.Holds s := .rfl
@[simp] theorem writeHeader_holds : R.Holds (writeHeader s) ↔ R.Holds s := .rfl
@[simp] theorem popStream_holds (r) : R.Holds (popStream s r) ↔ R.Holds s := by simp [popStream]
@[simp] theorem refreshHeader_holds : R.Holds (refreshHeader s) ↔ R.Holds s := by simp [refreshHeader]

@[simp] theorem emberEvent_holds (cls words spec) : R.Holds (emberEvent s cls words spec) ↔ R.Holds s := by
  obtain ⟨e, h⟩ := emberEvent_eq s cls words spec
  simp [h]

@[simp] theorem emberFlushStart_holds : R.Holds (emberFlushStart s) ↔ R.Holds s := by simp [emberFlushStart]

end Elsewhere

@[simp] theorem traceAdd_holds (s kind r fl arg slot detail planId) :
    R.Holds (traceAdd s kind r fl arg slot detail planId) ↔ R.Holds s := .rfl

@[simp] theorem traceDesc_holds (s kind d arg detail) : R.Holds (traceDesc s kind d arg detail) ↔ R.Holds s := .rfl

@[simp] theorem beginExec_holds (s d) : R.Holds (beginExec s d) ↔ R.Holds s := by simp [beginExec]

/-! ## Stores -/

section Stores
variable {s : State} (h : R.Holds s)
include h

@[simp] theorem setPlaceRam_holds (pl) {r : Ram} (hr : R.ram r) : R.Holds (setPlaceRam s pl r) := by
  cases pl with
  | basin p a => exact modLant_keeps h p hr
  | cistern a => simp [setPlaceRam, h, hr]
  | dram a => simp [setPlaceRam, h, hr]

@[simp] theorem placeWrite_holds (pl bs) : R.Holds (placeWrite s pl bs) :=
  setPlaceRam_holds h pl (ram_writeWhere (holds_placeRam h pl) _ _ _)

@[simp] theorem storeAt_holds (base bs) : R.Holds (storeAt s base bs) :=
  foldl_keeps (fun _ _ ht => placeWrite_holds ht _ _) h bs

end Stores

@[simp] theorem reqReturn_holds (s req v) : R.Holds (reqReturn s req v) ↔ R.Holds s := by
  unfold reqReturn
  split <;> simp

/-! ## Events -/

section Events
variable {s : State} (h : R.Holds s)
include h

@[simp] theorem hostDram_holds (a) : R.Holds (hostDram s a) := by simp [hostDram, h]

@[simp] theorem drainWaits_holds : R.Holds (drainWaits s) := by
  unfold drainWaits
  split
  · exact h
  · exact foldl_keeps (fun _ _ ht => hostDram_holds ht _) (by simpa using h) _

@[simp] theorem endJobs_holds : R.Holds (endJobs s) := drainWaits_holds (by simp [h])

@[simp] theorem keepGates_holds : R.Holds (keepGates s) := by
  simp [keepGates, h]

@[simp] theorem enterHalt_holds : R.Holds (enterHalt s) := by
  have hended : R.Holds (endJobs (keepGates (assertStop s))) := by simp [h]
  simp [enterHalt, hended, -endJobs_jobs]

@[simp] theorem beginRelight_holds : R.Holds (beginRelight s) := by
  have hended : R.Holds (endJobs (keepGates (assertStop s))) := by simp [h]
  simp [beginRelight, h, hended, -endJobs_jobs]

@[simp] theorem handleNow_holds (e) : R.Holds (handleNow s e) := by simp [handleNow, h]

@[simp] theorem queueOverflow_holds : R.Holds (queueOverflow s) := by simp [queueOverflow, h]

@[simp] theorem handlerArrive_holds (cls) : R.Holds (handlerArrive s cls) := by simp [handlerArrive, h]

theorem nextS1_holds {t : State} (ht : nextS1 s = some t) : R.Holds t := by
  unfold nextS1 at ht
  dsimp only at ht
  split at ht
  · cases ht
    simp [h]
  · obtain ⟨e, -, rfl⟩ := Option.map_eq_some_iff.mp ht
    simp [h]

@[simp] theorem nextS1_getD_holds : R.Holds ((nextS1 s).getD s) := by
  cases ht : nextS1 s with
  | none => exact h
  | some t => exact nextS1_holds h ht

@[simp] theorem handlerDone_holds : R.Holds (handlerDone s) := by
  unfold handlerDone
  extract_lets f s0 s1
  have hs0 : R.Holds s0 := by simp [s0, h]
  split
  case h_1 t _ _ ht =>
    by_cases hr : f.state == .relight
    · simp [s1, hr] at ht
    · exact nextS1_holds hs0 (by simpa [s1, hr] using ht)
  all_goals simp [s0, h]

@[simp] theorem respondS1_holds (cls) : R.Holds (respondS1 s cls) := by simp [respondS1, h]

@[simp] theorem raiseEv_holds (cls words spec) : R.Holds (raiseEv s cls words spec) := by simp [raiseEv, h]

@[simp] theorem raise_holds (cls words) : R.Holds (raise s cls words) := raiseEv_holds h cls words false

@[simp] theorem failJob_holds (r cls) : R.Holds (failJob s r cls) := by simp [failJob, h]

@[simp] theorem raiseFor_holds (cls words r) : R.Holds (raiseFor s cls words r) := by simp [raiseFor, h]

end Events

@[simp] theorem writeEntry_holds (s r) : R.Holds (writeEntry s r) ↔ R.Holds s := by simp [writeEntry]

@[simp] theorem setRState_holds (s r st) : R.Holds (setRState s r st) ↔ R.Holds s := by simp [setRState]

@[simp] theorem wakeLanterns_holds (s ps) : R.Holds (wakeLanterns s ps) ↔ R.Holds s := by
  unfold wakeLanterns
  extract_lets cold s1
  split
  · rfl
  · have h : R.Holds s1 ↔ R.Holds s := foldl_holds (fun _ _ => by simp) cold s
    exact h

@[simp] theorem wakeJob_holds (s d) : R.Holds (wakeJob s d) ↔ R.Holds s := by
  unfold wakeJob
  split <;> simp

@[simp] theorem wakeReady_holds (s) : R.Holds (wakeReady s) ↔ R.Holds s := by simp [wakeReady]

@[simp] theorem settleReady_holds (s d) : R.Holds (settleReady s d) ↔ R.Holds s := by
  unfold settleReady
  split <;> simp

@[simp] theorem settleAll_holds (s) : R.Holds (settleAll s) ↔ R.Holds s := by simp [settleAll]

@[simp] theorem matchToken_holds (b s d) : R.Holds (matchToken b s d) ↔ R.Holds s := by simp [matchToken]

@[simp] theorem matchWhere_holds (s b p) : R.Holds (matchWhere s b p) ↔ R.Holds s := by simp [matchWhere]

@[simp] theorem matchWorld_holds (s) : R.Holds (matchWorld s) ↔ R.Holds s := by simp [matchWorld]

@[simp] theorem matchGoal_holds (s g) : R.Holds (matchGoal s g) ↔ R.Holds s := by simp [matchGoal]

@[simp] theorem matchSeeds_holds (s n) : R.Holds (matchSeeds s n) ↔ R.Holds s := by simp [matchSeeds]

@[simp] theorem matchAfter_holds (s r) : R.Holds (matchAfter s r) ↔ R.Holds s := by simp [matchAfter]

@[simp] theorem sendAbort_holds (s img tag) : R.Holds (sendAbort s img tag) ↔ R.Holds s := by simp [sendAbort]

@[simp] theorem complete_holds (s r res) : R.Holds (complete s r res) ↔ R.Holds s := by
  unfold complete
  split <;> simp

@[simp] theorem finish_holds (s r st detail) : R.Holds (finish s r st detail) ↔ R.Holds s := by simp [finish]

/-! ## What events do -/

@[simp] theorem emberThaw_holds (s) : R.Holds (emberThaw s) ↔ R.Holds s := by simp [emberThaw]

@[simp] theorem setEpoch_holds (s e teNs) : R.Holds (setEpoch s e teNs) ↔ R.Holds s := by simp [setEpoch]

/-! ## Cameras -/

@[simp] theorem camSet_holds (s p c) : R.Holds (camSet s p c) ↔ R.Holds s := by simp [camSet]

@[simp] theorem camMod_holds (s p f) : R.Holds (camMod s p f) ↔ R.Holds s := by simp [camMod]

@[simp] theorem applyTap_holds (s c ns xs) : R.Holds (applyTap s c ns xs) ↔ R.Holds s := by
  unfold applyTap
  split <;> simp

@[simp] theorem tapFrame_holds (s f) : R.Holds (tapFrame s f) ↔ R.Holds s := by
  unfold tapFrame
  split <;> simp

@[simp] theorem pushSet_holds {s : State} (hr : R.Holds s) (f) : R.Holds (pushSet s f) := by simp [pushSet, hr]

@[simp] theorem closeSet_holds {s : State} (hr : R.Holds s) : R.Holds (closeSet s) := by
  unfold closeSet
  split
  · exact hr
  next o _ =>
    extract_lets _ _ s1
    have htapped : R.Holds (o.got.foldl tapFrame s1) := by simp [s1, hr]
    split
    · simp [s1, hr]
    · simp [htapped]

@[simp] theorem settleSet_holds {s : State} (hr : R.Holds s) : R.Holds (settleSet s) := by
  unfold settleSet
  split <;> simp [hr]

@[simp] theorem leaveSets_holds {s : State} (hr : R.Holds s) (p) : R.Holds (leaveSets s p) := by
  unfold leaveSets
  split <;> simp [hr]

@[simp] theorem dropFrames_holds (s p) : R.Holds (dropFrames s p) ↔ R.Holds s := by simp [dropFrames]

@[simp] theorem judge_holds {s : State} (hr : R.Holds s) (p) : R.Holds (judge s p) := by simp [judge, hr]

@[simp] theorem joinFrame_holds {s : State} (hr : R.Holds s) (p ctr f) : R.Holds (joinFrame s p ctr f) := by
  unfold joinFrame
  dsimp only
  repeat' split
  all_goals simp [hr]

@[simp] theorem frameIn_holds {s : State} (hr : R.Holds s) (p whole f) : R.Holds (frameIn s p whole f) := by
  simp [frameIn, hr]

/-! ## Spouts -/

@[simp] theorem chanSet_holds (s ch v) : R.Holds (chanSet s ch v) ↔ R.Holds s := by cases ch <;> rfl

@[simp] theorem coreSignal_holds (s) : R.Holds (coreSignal s) ↔ R.Holds s := by simp [coreSignal]

@[simp] theorem glowSignal_holds (s) : R.Holds (glowSignal s) ↔ R.Holds s := by simp [glowSignal]

@[simp] theorem driverIrq_holds (s enableBit) : R.Holds (driverIrq s enableBit) ↔ R.Holds s := by simp [driverIrq]

@[simp] theorem agentIrq_holds (s enableBit) : R.Holds (agentIrq s enableBit) ↔ R.Holds s := by simp [agentIrq]

@[simp] theorem signalSet_holds (s a) : R.Holds (signalSet s a) ↔ R.Holds s := by
  unfold signalSet
  split <;> simp

@[simp] theorem signalClear_holds (s a) : R.Holds (signalClear s a) ↔ R.Holds s := by
  unfold signalClear
  split <;> simp

@[simp] theorem signalAck_holds (s a) : R.Holds (signalAck s a) ↔ R.Holds s := by simp [signalAck]

@[simp] theorem chanRecvReset_holds (s ch) : R.Holds (chanRecvReset s ch) ↔ R.Holds s := by simp [chanRecvReset]

@[simp] theorem chanSendReset_holds (s ch) : R.Holds (chanSendReset s ch) ↔ R.Holds s := by simp [chanSendReset]

@[simp] theorem dropLocks_holds (s held) : R.Holds (dropLocks s held) ↔ R.Holds s := by simp [dropLocks]

@[simp] theorem releaseLocks_holds {s : State} (hr : R.Holds s) (req) : R.Holds (releaseLocks s req) := by
  simp [releaseLocks, hr]

@[simp] theorem lockRead_holds (s req n) : R.Holds (lockRead s req n).1 ↔ R.Holds s := by
  unfold lockRead
  split <;> rfl

@[simp] theorem lockWrite_holds {s : State} (hr : R.Holds s) (req n v) : R.Holds (lockWrite s req n v) := by
  simp [lockWrite, hr]

@[simp] theorem hostDriverReset_holds {s : State} (hr : R.Holds s) : R.Holds (hostDriverReset s) := by
  simp [hostDriverReset, hr]

@[simp] theorem hostAgentReset_holds {s : State} (hr : R.Holds s) : R.Holds (hostAgentReset s) := by
  simp [hostAgentReset, hr]

@[simp] theorem glowPartyReset_holds {s : State} (hr : R.Holds s) : R.Holds (glowPartyReset s) := by
  simp [glowPartyReset, hr]

@[simp] theorem partnerReset_holds {s : State} (hr : R.Holds s) (p) : R.Holds (partnerReset s p) := by
  simp [partnerReset, hr]

@[simp] theorem chanBothReset_holds (s ch) : R.Holds (chanBothReset s ch) ↔ R.Holds s := by simp [chanBothReset]

@[simp] theorem bothEndsReset_holds (s p) : R.Holds (bothEndsReset s p) ↔ R.Holds s := by simp [bothEndsReset]

@[simp] theorem gateDiscard_holds (s) : R.Holds (gateDiscard s) ↔ R.Holds s := by simp [gateDiscard]

@[simp] theorem gateCheck_holds {s : State} (hr : R.Holds s) : R.Holds (gateCheck s) := by simp [gateCheck, hr]

@[simp] theorem bufWrite_holds (s ch bs off) : R.Holds (bufWrite s ch bs off) ↔ R.Holds s := by simp [bufWrite]

@[simp] theorem sendPost_holds {s : State} (hr : R.Holds s) (ch) : R.Holds (sendPost s ch) := by
  unfold sendPost
  split <;> simp [hr]

@[simp] theorem recvWord_holds (s ch w) : R.Holds (recvWord s ch w).1 ↔ R.Holds s := by simp [recvWord]

@[simp] theorem partDone_holds (s ch) : R.Holds (partDone s ch) ↔ R.Holds s := by
  unfold partDone
  split <;> simp

@[simp] theorem ackWrite_holds (s ch seq code) : R.Holds (ackWrite s ch seq code) ↔ R.Holds s := by simp [ackWrite]

@[simp] theorem putMessage_holds (s ch m) : R.Holds (putMessage s ch m) ↔ R.Holds s := by
  unfold putMessage
  split <;> simp

@[simp] theorem statusClear_holds (s ch w) : R.Holds (statusClear s ch w) ↔ R.Holds s := by simp [statusClear]

@[simp] theorem sendOn_holds (s ch msg) : R.Holds (sendOn s ch msg) ↔ R.Holds s := by
  unfold sendOn
  dsimp only
  split
  · cases msg <;> simp
  · split <;> simp

@[simp] theorem refuseMessage_holds (s ch m) : R.Holds (refuseMessage s ch m) ↔ R.Holds s := by
  unfold refuseMessage
  dsimp only
  split <;> simp

/-! ## Ember -/

@[simp] theorem flashFault_holds {s : State} (hr : R.Holds s) : R.Holds (flashFault s) := by simp [flashFault, hr]

@[simp] theorem flushEnd_holds (s) : R.Holds (flushEnd s) ↔ R.Holds s := by
  unfold flushEnd
  dsimp only
  split <;> simp

@[simp] theorem flushFailed_holds {s : State} (hr : R.Holds s) : R.Holds (flushFailed s) := by simp [flushFailed, hr]

@[simp] theorem freezeOn_holds {s : State} (hr : R.Holds s) : R.Holds (freezeOn s) := by simp [freezeOn, hr]

@[simp] theorem cursorWrite_holds (s v) : R.Holds (cursorWrite s v) ↔ R.Holds s := by simp [cursorWrite]

/-! ## K-links -/

@[simp] theorem mapDue_holds (s) : R.Holds (mapDue s) ↔ R.Holds s := by simp [mapDue]

@[simp] theorem kTrain_holds (s p k) : R.Holds (kTrain s p k) ↔ R.Holds s := by simp [kTrain]

@[simp] theorem kRetrain_holds {s : State} (hr : R.Holds s) (p) : R.Holds (kRetrain s p) := by simp [kRetrain, hr]

@[simp] theorem kFail_holds (s p) : R.Holds (kFail s p) ↔ R.Holds s := by simp [kFail]

@[simp] theorem kEnable_holds (on s p) : R.Holds (kEnable on s p) ↔ R.Holds s := by simp [kEnable]

@[simp] theorem klCtrlWrite_holds (s v) : R.Holds (klCtrlWrite s v) ↔ R.Holds s := by simp [klCtrlWrite]

@[simp] theorem readExchange_holds {s : State} (hr : R.Holds s) (j slot) : R.Holds (readExchange s j slot) := by
  simp [readExchange, hr]

@[simp] theorem failNowWhere_holds (s cls p) : R.Holds (failNowWhere s cls p) ↔ R.Holds s := by simp [failNowWhere]

@[simp] theorem findAgain_holds (s) : R.Holds (findAgain s) ↔ R.Holds s := by simp [findAgain]

@[simp] theorem takeWorldSet_holds {s : State} (hr : R.Holds s) (set) : R.Holds (takeWorldSet s set) := by
  unfold takeWorldSet
  extract_lets p s1 s2
  have h1 : R.Holds s1 := foldl_keeps (fun _ _ ht => storeAt_holds ht _ _) hr _
  have h2 : R.Holds s2 := foldl_keeps (fun _ _ ht => (noteSpec_holds _ _ _).mpr (storeAt_holds ht _ _)) h1 _
  exact storeAt_holds h2 _ _

/-! ## Motion ports -/

@[simp] theorem nodeSet_holds (s i n) : R.Holds (nodeSet s i n) ↔ R.Holds s := by simp [nodeSet]

@[simp] theorem tagFail_holds {s : State} (hr : R.Holds s) : R.Holds (tagFail s) := by simp [tagFail, hr]

@[simp] theorem sendSetpoints_holds (s port) : R.Holds (sendSetpoints s port) ↔ R.Holds s := by
  unfold sendSetpoints
  extract_lets mine inOrder
  refine (foldl_holds (fun t ic => ?_) _ _).trans .rfl
  split
  · rfl
  · exact .rfl

@[simp] theorem syncBack_holds {s : State} (hr : R.Holds s) : R.Holds (syncBack s) := by simp [syncBack, hr]

@[simp] theorem takeHello_holds {s : State} (hr : R.Holds s) (f i c) : R.Holds (takeHello s f i c) := by
  simp [takeHello, hr]

@[simp] theorem takeFrame_holds {s : State} (hr : R.Holds s) (node counter tagOk) {f : Fin 32 → NodeCfg → State}
    (hf : ∀ i c, R.Holds (f i c)) : R.Holds (takeFrame s node counter tagOk f) := by
  unfold takeFrame
  split <;> simp [hf, hr]

/-! ## Security -/

@[simp] theorem extendEvent_holds (s code) : R.Holds (extendEvent s code) ↔ R.Holds s := by simp [extendEvent]

@[simp] theorem svcAck_holds (s code) : R.Holds (svcAck s code) ↔ R.Holds s := by simp [svcAck]

@[simp] theorem svcTake_holds {s : State} (hr : R.Holds s) {f : State → State} (hf : R.Holds (f s)) :
    R.Holds (svcTake s f) := by
  unfold svcTake
  split <;> simp [hf, hr]

@[simp] theorem installSession_holds (s secret) : R.Holds (installSession s secret) ↔ R.Holds s := by
  simp [installSession]

@[simp] theorem dropExchange_holds (s) : R.Holds (dropExchange s) ↔ R.Holds s := by simp [dropExchange]

/-! ## Power -/

@[simp] theorem assignMap_holds (s) : R.Holds (assignMap s) ↔ R.Holds s := by simp [assignMap]

@[simp] theorem extendFuses_holds (s) : R.Holds (extendFuses s) ↔ R.Holds s := by simp [extendFuses]

@[simp] theorem retire_holds {s : State} (hr : R.Holds s) (failed) : R.Holds (retire s failed) := by
  refine foldl_keeps (fun t p ht => ?_) hr _
  split
  · exact ht
  · simp [ht, R.retired]

@[simp] theorem clearWorld_holds (s) : R.Holds (clearWorld s) ↔ R.Holds s := by simp [clearWorld]

@[simp] theorem loseWorld_holds (s) : R.Holds (loseWorld s) ↔ R.Holds s := by simp [loseWorld]

@[simp] theorem ram_restoreFills {r : Ram} (hr : R.ram r) (bs) : R.ram (restoreFills r bs) := by
  refine List.foldlRecOn (motive := R.ram) bs _ hr fun q hq b _ => ?_
  split
  · exact hq
  · exact ram_writeN hq _ _

@[simp] theorem loseMemories_holds {s : State} (hr : R.Holds s) (restore) : R.Holds (loseMemories s restore) := by
  have hlost : R.ram s.mem.cistern.lose := ram_lose (holds_cistern hr)
  have hlants : R.LantsOk (loseMemories s restore).lanterns := lantsOk_map_keeps (holds_lanterns hr) fun _ hl => ram_lose hl
  obtain ⟨hfuses, -, hdram, -, hjobs, hdescs⟩ := hr
  exact ⟨hfuses, by simp [loseMemories, hlost], hdram, hlants, hjobs, hdescs⟩

@[simp] theorem freshLanterns_holds (s) : R.Holds (freshLanterns s) ↔ R.Holds s := by
  have hlants : R.LantsOk (s.lanterns.map (freshLantern s.pwr.ticks)) ↔ R.LantsOk s.lanterns := lantsOk_map fun _ => rfl
  simp [freshLanterns, hlants]

@[simp] theorem startHalt_holds {s : State} (hr : R.Holds s) (fail) : R.Holds (startHalt s fail) := by
  simp [startHalt, hr]

@[simp] theorem emberBoot_holds (s triggers) : R.Holds (emberBoot s triggers) ↔ R.Holds s := by simp [emberBoot]

@[simp] theorem loadConfig_holds {s : State} (hr : R.Holds s) (o) : R.Holds (loadConfig o s) := by
  unfold loadConfig
  extract_lets c period links grid mem motion sec s1 s2 s3 mgmt s4 flush pwr
  have h2 : R.Holds s2 := by simp [s2, s1, mem, hr]
  have h3 : R.Holds s3 := by simp [s3, h2]
  have h4 : R.Holds s4 := by simp [s4, h3]
  have hflushed : R.Holds (if flush then emberFlushStart s4 else s4) := by simp [h4]
  exact hflushed

@[simp] theorem trainDies_holds {s : State} (hr : R.Holds s) (o) : R.Holds (trainDies o s) := by
  unfold trainDies
  extract_lets bad pwr mem s1 each
  have heach : ∀ m cls t, R.Holds t → R.Holds (each m cls t) := by
    refine fun m cls t ht => foldl_keeps (fun u d hu => ?_) ht _
    simp [hu]
  exact heach _ _ _ (heach _ _ _ (by simp [s1, mem, hr]))

@[simp] theorem startFinish_holds {s : State} (hr : R.Holds s) (reflectorOk) : R.Holds (startFinish s reflectorOk) := by
  unfold startFinish
  repeat' split
  all_goals simp [hr]

@[simp] theorem stepDone_holds (s n) : R.Holds (stepDone s n) ↔ R.Holds s := by simp [stepDone]

@[simp] theorem startDies_holds {s : State} (hr : R.Holds s) (o) : R.Holds (startDies o s) := by
  unfold startDies
  extract_lets s1 s2 s3
  have h1 : R.Holds s1 := by simp [s1, hr]
  have h2 : R.Holds s2 := by simp [s2, h1]
  simp [h1, h2, s3]

@[simp] theorem startRun_holds {s : State} (hr : R.Holds s) (o) : R.Holds (startRun o s) := by
  unfold startRun
  extract_lets pwr sec s1 pwr2 mem motion s2 s3
  have h3 : R.Holds s3 := by simp [s3, s2, s1, mem, hr]
  simp [h3, s1, hr]

@[simp] theorem startFrom3_holds {s : State} (hr : R.Holds s) (o) : R.Holds (startFrom3 o s) := by
  simp [startFrom3, hr]

@[simp] theorem freeAll_holds (s) : R.Holds (freeAll s) ↔ R.Holds s := by simp [freeAll]

@[simp] theorem failAssert_holds {s : State} (hr : R.Holds s) : R.Holds (failAssert s) := by
  unfold failAssert
  extract_lets s1 pwr s2 pwr2
  have h1 : R.Holds s1 := by simp [s1, hr]
  have h2 : R.Holds s2 := by simp [s2, h1]
  simp [h2]

@[simp] theorem enterDoze_holds (s) : R.Holds (enterDoze s) ↔ R.Holds s := by simp [enterDoze]

@[simp] theorem dozeLeave_holds (s) : R.Holds (dozeLeave s) ↔ R.Holds s := by simp [dozeLeave]

@[simp] theorem pwrCtrlWrite_holds (s v) : R.Holds (pwrCtrlWrite s v) ↔ R.Holds s := by simp [pwrCtrlWrite]

@[simp] theorem enterPilot_holds (s) : R.Holds (enterPilot s) ↔ R.Holds s := by simp [enterPilot]

@[simp] theorem leavePilot_holds {s : State} (hr : R.Holds s) : R.Holds (leavePilot s) := by simp [leavePilot, hr]

@[simp] theorem resetBegin_holds {s : State} (hr : R.Holds s) : R.Holds (resetBegin s) := by simp [resetBegin, hr]

@[simp] theorem pilotTimeLatch_holds (s) : R.Holds (pilotTimeLatch s) ↔ R.Holds s := by simp [pilotTimeLatch]

/-! ## Management -/

@[simp] theorem reconfigure_holds (s) : R.Holds (reconfigure s) ↔ R.Holds s := by simp [reconfigure]

@[simp] theorem restartImage_holds (s imageOk flashOk digest) :
    R.Holds (restartImage s imageOk flashOk digest) ↔ R.Holds s := by
  simp [restartImage]

@[simp] theorem glowRestart_holds {s : State} (hr :
    R.Holds s) (imageOk flashOk digest) : R.Holds (glowRestart s imageOk flashOk digest) := by
  simp [glowRestart, hr]

@[simp] theorem holdGlow_holds {s : State} (hr : R.Holds s) : R.Holds (holdGlow s) := by simp [holdGlow, hr]

@[simp] theorem loadCtrlWrite_holds (s v) : R.Holds (loadCtrlWrite s v) ↔ R.Holds s := by simp [loadCtrlWrite]

@[simp] theorem loadWinWrite_holds (s off data) : R.Holds (loadWinWrite s off data) ↔ R.Holds s := by simp [loadWinWrite]

/-! ## Faults -/

@[simp] theorem unitEffect_holds (s cls unit) : R.Holds (unitEffect s cls unit) ↔ R.Holds s := by
  unfold unitEffect
  repeat' split
  all_goals simp

@[simp] theorem admitRun_holds {s : State} (hr : R.Holds s) (d) : R.Holds (admitRun s d) := by
  unfold admitRun
  extract_lets s1 self s2 hit s3
  have hhit : ∀ t b, R.Holds (hit t b) ↔ R.Holds t := by
    intro t b
    unfold hit
    split <;> simp
  have h2 : R.Holds s2 := by simp [s2, s1, hr]
  have h3 : R.Holds s3 := by simp [s3, hhit, h2]
  split <;> simp [h3]

@[simp] theorem admitRuns_holds {s : State} (hr : R.Holds s) : R.Holds (admitRuns s) :=
  foldl_keeps (fun _ _ ht => by simp [ht]) hr _

@[simp] theorem requeue_holds {s : State} (hr : R.Holds s) (d) : R.Holds (requeue s d) := by
  unfold requeue
  split
  · exact hr
  · extract_lets s1
    have h1 : R.Holds s1 := modDesc_keeps hr _ fun _ _ => resumeOk_none
    split <;> simp [h1]

@[simp] theorem requeueAll_holds {s : State} (hr : R.Holds s) : R.Holds (requeueAll s) :=
  foldl_keeps (fun _ _ ht => requeue_holds ht _) hr _

@[simp] theorem postEmptySeeds_holds (s) : R.Holds (postEmptySeeds s) ↔ R.Holds s := by simp [postEmptySeeds]

@[simp] theorem excludeDies_holds {s : State} (hr : R.Holds s) (fail) : R.Holds (excludeDies s fail) := by
  unfold excludeDies
  extract_lets bad mem sluice s1
  split
  · exact hr
  · have hdram : ∀ bs : List Backing, R.ram (bs.foldl
        (fun r b => if b.fill.isDram then r.writeN b.fill.base b.fill.bytes else r) s1.mem.dram.lose) := fun bs => by
      refine List.foldlRecOn (motive := R.ram) bs _ (ram_lose (holds_dram hr)) fun q hq b _ => ?_
      split
      · exact ram_writeN hq _ _
      · exact hq
    obtain ⟨hfuses, hcistern, -, hlants, hjobs, hdescs⟩ := hr
    exact ⟨hfuses, hcistern, hdram _, hlants, hjobs, hdescs⟩

@[simp] theorem relightDies_holds {s : State} (hr : R.Holds s) (o) : R.Holds (relightDies s o) := by
  simp [relightDies, hr]

@[simp] theorem relightReady_holds {s : State} (hr : R.Holds s) : R.Holds (relightReady s) := by
  unfold relightReady
  extract_lets s1 safety pwr s2 s3
  have h2 : R.Holds s2 := by simp [s2, s1, hr]
  have hadmitted : R.Holds (requeueAll (admitRuns (refreshHeader s2))) := by simp [h2]
  have h3 : R.Holds s3 := by simp [s3, hadmitted]
  split <;> simp [h3]

@[simp] theorem keepShown_holds {s : State} (hr : R.Holds s) (old) : R.Holds (keepShown old s) := by
  have hbasin (p : Phys) : R.ram (s.lanterns.get p).basin := holds_lanterns hr p
  simp [keepShown, hr, hbasin]

@[simp] theorem haltFail_holds {s : State} (hr : R.Holds s) (old fail) : R.Holds (haltFail old s fail) := by
  simp [haltFail, hr]

@[simp] theorem relightTest_holds {s : State} (hr : R.Holds s) (old o) : R.Holds (relightTest old s o) := by
  unfold relightTest
  extract_lets s1 s2
  have h1 : R.Holds s1 := retire_holds hr _
  have h2 : R.Holds s2 := by simp [s2, h1]
  have hfaulted : R.Holds (emberFlushStart (assertStop (emberEvent s1 .reflectorFault [] false))) := by simp [h1]
  simp [h2, hfaulted]

@[simp] theorem passDone_holds {s : State} (hr : R.Holds s) (p) : R.Holds (passDone s p) := by simp [passDone, hr]

@[simp] theorem stopReleaseWrite_holds {s : State} (hr : R.Holds s) : R.Holds (stopReleaseWrite s) := by
  simp [stopReleaseWrite, hr]

/-! ## Memory -/

@[simp] theorem setGroup_holds (s a r) : R.Holds (setGroup s a r) ↔ R.Holds s := by
  unfold setGroup
  split <;> simp

@[simp] theorem wakeFor_holds (s pl) : R.Holds (wakeFor s pl) ↔ R.Holds s := by
  unfold wakeFor
  split <;> simp

@[simp] theorem wakeRange_holds (s pl n) : R.Holds (wakeRange s pl n) ↔ R.Holds s := by
  unfold wakeRange
  split <;> simp

@[simp] theorem retainedAccess_holds {s : State} (hr : R.Holds s) (r) : R.Holds (retainedAccess s r) := by
  simp [retainedAccess, hr]

@[simp] theorem planPut_holds {s : State} (hr : R.Holds s) (r pl bs) : R.Holds (planPut s r pl bs) := by
  simp [planPut, hr]

@[simp] theorem poolPut_holds {s : State} (hr : R.Holds s) (p a bs) : R.Holds (poolPut s p a bs) :=
  foldl_keeps (fun _ _ ht => placeWrite_holds ht _ _) hr _

@[simp] theorem failReq_holds {s : State} (hr : R.Holds s) (req cls) : R.Holds (failReq s req cls) := by
  unfold failReq
  split <;> simp [hr]

@[simp] theorem atomic_holds {s : State} (hr : R.Holds s) (req pl op x) : R.Holds (atomic s req pl op x) := by
  simp [atomic, hr]

@[simp] theorem setCollide_holds (s a) : R.Holds (setCollide s a) ↔ R.Holds s := by
  unfold setCollide
  split <;> simp

@[simp] theorem wordWrite_holds {s : State} (hr : R.Holds s) (p w be data) : R.Holds (wordWrite s p w be data) := by
  refine modLant_keeps hr p ?_
  simp [hr]

@[simp] theorem rillAlone_holds {s : State} (hr : R.Holds s) (p addr acc req) : R.Holds (rillAlone s p addr acc req) := by
  unfold rillAlone
  split <;> simp [hr]

@[simp] theorem settleRill_holds {s : State} (hr : R.Holds s) (p) : R.Holds (settleRill s p) :=
  foldl_keeps (fun _ _ ht => rillAlone_holds ht _ _ _ _) (by simp [hr]) _

@[simp] theorem settlePlace_holds {s : State} (hr : R.Holds s) (a) : R.Holds (settlePlace s a) := by
  unfold settlePlace
  split <;> simp [hr]

@[simp] theorem settleSleep_holds {s : State} (hr : R.Holds s) (now) : R.Holds (settleSleep s now) := by
  simp [settleSleep, hr]

@[simp] theorem issue_holds {s : State} (hr : R.Holds s) (r cycle op) {f : State → State}
    (hf : ∀ t, R.Holds t → R.Holds (f t)) : R.Holds (issue s r cycle op f) := by
  unfold issue
  split
  · exact hf _ (by simp [hr])
  · exact hr

@[simp] theorem dmaIssue_holds {s : State} (hr : R.Holds s) (req acc) {f : State → State}
    (hf : ∀ t, R.Holds t → R.Holds (f t)) : R.Holds (dmaIssue s req acc f) := by
  unfold dmaIssue
  split
  · exact issue_holds hr _ _ _ hf
  · exact hf s hr

@[simp] theorem windowMiss_holds {s : State} (hr : R.Holds s) (r) : R.Holds (windowMiss s r) := by simp [windowMiss, hr]

@[simp] theorem planFetch_holds {s : State} (hr : R.Holds s) (x pl ok latency) : R.Holds (planFetch s x pl ok latency) := by
  simp [planFetch, hr]

@[simp] theorem fetchAwake_holds {s : State} (hr : R.Holds s) (x pl latency) : R.Holds (fetchAwake s x pl latency) := by
  simp [fetchAwake, hr]

@[simp] theorem planStore_holds {s : State} (hr :
    R.Holds s) (x pl isDram until_) : R.Holds (planStore s x pl isDram until_) := by
  unfold planStore
  split <;> simp [hr]

@[simp] theorem deliverTo_holds {s : State} (hr : R.Holds s) (f l) : R.Holds (deliverTo f s l) := by
  unfold deliverTo
  repeat' split
  · simp [hr]
  · simp [hr]
  · exact foldl_keeps (fun _ _ ht => placeWrite_holds ht _ _) hr _

@[simp] theorem deliverAll_holds {s : State} (hr : R.Holds s) (f) : R.Holds (deliverAll s f) := by
  have hdelivered : R.Holds (f.dests.foldl (deliverTo f) s) := foldl_keeps (fun _ _ ht => deliverTo_holds ht _ _) hr _
  simp [deliverAll, hdelivered]

@[simp] theorem unsupported_holds (s) : R.Holds (unsupported s) ↔ R.Holds s := by simp [unsupported]

@[simp] theorem winAccess_holds {s : State} (hr : R.Holds s) (pl n write data) : R.Holds (winAccess s pl n write data) := by
  unfold winAccess
  split <;> simp [hr]

@[simp] theorem memWindow_holds {s : State} (hr :
    R.Holds s) (off size write data) : R.Holds (memWindow s off size write data) := by
  unfold memWindow
  repeat' split
  all_goals simp [hr]

@[simp] theorem rillTransfer_holds {s : State} (hr : R.Holds s) (x far) : R.Holds (rillTransfer s x far) := by
  unfold rillTransfer
  repeat' split
  all_goals simp [hr]

@[simp] theorem multicast_holds {s : State} (hr :
    R.Holds s) (job cycle mask addr pl) : R.Holds (multicast s job cycle mask addr pl) := by
  simp [multicast, hr]

@[simp] theorem modRetain_holds (s u f) : R.Holds (modRetain s u f) ↔ R.Holds s := by
  unfold modRetain
  split <;> simp

/-! ## World -/

@[simp] theorem brickFor_holds {s : State} (hr : R.Holds s) (count bx by_ bz) : R.Holds (brickFor s count bx by_ bz).1 := by
  unfold brickFor
  dsimp only
  split
  · exact hr
  · split <;> simp [hr]

/-! ## What keeps a job's window copy -/

@[simp] theorem foldl_win {α : Type} {f : Job → α → Job} (hf : ∀ j a, (f j a).win = j.win) (l : List α) (j : Job) :
    (l.foldl f j).win = j.win :=
  List.foldlRecOn (motive := fun k : Job => k.win = j.win) l f rfl fun k hk a _ => (hf k a).trans hk

@[simp] theorem delSolve_win (j x) : (delSolve j x).win = j.win := rfl
@[simp] theorem putSolve_win (j x) : (putSolve j x).win = j.win := rfl
@[simp] theorem jobCounts_win (f j) : (jobCounts f j).win = j.win := rfl

@[simp] theorem setSeed_win (j k f) : (setSeed j k f).win = j.win := by
  unfold setSeed
  split <;> rfl

@[simp] theorem applySolve_win (m x j) : (applySolve m x j).win = j.win := by
  unfold applySolve
  dsimp only
  split <;> simp

@[simp] theorem endSolve_win (m x y flags f j) : (endSolve m x y flags f j).win = j.win := by simp [endSolve]

@[simp] theorem judgeTrial_win (l m x y r j) : (judgeTrial l m x y r j).win = j.win := by simp [judgeTrial]

@[simp] theorem interruptSolves_win (j) : (interruptSolves j).win = j.win := by
  unfold interruptSolves
  split <;> simp

@[simp] theorem nextSeeds_win (j) : (nextSeeds j).win = j.win := by
  refine foldl_win (fun k n => ?_) _ j
  dsimp only
  split <;> simp

@[simp] theorem trackSlot_win (j) : (trackSlot j).win = j.win := by simp [trackSlot]
@[simp] theorem trackConfirmed_win (j) : (trackConfirmed j).win = j.win := rfl
@[simp] theorem endSlot_win (j) : (endSlot j).win = j.win := by simp [endSlot]
@[simp] theorem hideSpec_win (j) : (hideSpec j).win = j.win := by simp [hideSpec]

@[simp] theorem nextSlot_win (j) : (nextSlot j).win = j.win := by
  unfold nextSlot
  dsimp only
  split <;> simp

@[simp] theorem storeBricks_holds {s : State} (hr : R.Holds s) (r) : R.Holds (storeBricks s r) := by
  refine foldl_keeps (fun t e ht => ?_) hr _
  extract_lets s1 bs s2
  have h1 : R.Holds s1 := by simp [s1, ht]
  have h2 : R.Holds s2 := by simp [s2, h1]
  simp [h1, h2]

@[simp] theorem storeCoarse_holds {s : State} (hr : R.Holds s) (r) : R.Holds (storeCoarse s r) :=
  foldl_keeps (fun _ _ ht => by simp [ht]) hr _

@[simp] theorem stageStore_holds {s : State} (hr : R.Holds s) (r base bs) : R.Holds (stageStore r s base bs) := by
  simp [stageStore, hr]

@[simp] theorem allocate_holds {s : State} (hr : R.Holds s) (count bs) : R.Holds (allocate s count bs).1 := by
  unfold allocate
  refine foldl_fst_holds (fun w b hw => ?_) (by exact hr) bs
  exact brickFor_holds hw _ _ _ _

@[simp] theorem mergeEntry_holds {a} (hr : R.Holds a.1) (r touched x) : R.Holds (mergeEntry r touched a x).1 := by
  unfold mergeEntry
  extract_lets k b
  have h := brickFor_holds hr (!touched.contains b) b.1 b.2.1 b.2.2
  split
  next hb =>
    rw [hb] at h
    exact h
  next hb =>
    rw [hb] at h
    simp [h]

@[simp] theorem mergeInbox_holds {s : State} (hr : R.Holds s) (r touched entries) :
    R.Holds (mergeInbox s r touched entries).1 :=
  foldl_fst_holds (fun _ _ hw => mergeEntry_holds hw _ _ _) (w := (s, [])) hr entries

@[simp] theorem assignHot_holds {s : State} (hr : R.Holds s) (r) : R.Holds (assignHot s r) := by simp [assignHot, hr]

@[simp] theorem takeClusters_holds {s : State} (hr :
    R.Holds s) (r te clusters) : R.Holds (takeClusters s r te clusters) := by
  simp [takeClusters, hr]

/-! ## Beacon -/

@[simp] theorem modCounts_holds (s r f) : R.Holds (modCounts s r f) ↔ R.Holds s := by simp [modCounts]

@[simp] theorem noteBadIds_holds {s : State} (hr : R.Holds s) (j n) : R.Holds (noteBadIds s j n) := by
  simp [noteBadIds, hr]

@[simp] theorem noteMismatch_holds {s : State} (hr : R.Holds s) (j e) : R.Holds (noteMismatch j s e) := by
  simp [noteMismatch, hr]

@[simp] theorem addDups_holds (s j n) : R.Holds (addDups s j n) ↔ R.Holds s := by simp [addDups]

@[simp] theorem storeRows_holds {s : State} (hr : R.Holds s) (p r c b) : R.Holds (storeRows s p r c b) := by
  simp [storeRows, hr]

@[simp] theorem offerTo_holds {s : State} (hr : R.Holds s) (p j l r) : R.Holds (offerTo s p j l r) := by
  unfold offerTo
  extract_lets c o s1
  have h1 : R.Holds s1 := by simp [s1, hr]
  split <;> simp [h1]

@[simp] theorem pushOffer_holds (s p r) : R.Holds (pushOffer s p r) ↔ R.Holds s := by simp [pushOffer]

@[simp] theorem drainOffers_holds {s : State} (hr : R.Holds s) (p n) : R.Holds (drainOffers p n s) := by
  induction n generalizing s with
  | zero => exact hr
  | succ n ih =>
    unfold drainOffers
    split
    · exact ih (by simp [hr])
    · exact hr

@[simp] theorem queueOffers_holds (s p) : R.Holds (queueOffers s p) ↔ R.Holds s := by simp [queueOffers]

@[simp] theorem cycleOffers_holds {s : State} (hr : R.Holds s) (p cycles) : R.Holds (cycleOffers s p cycles) := by
  simp [cycleOffers, hr]

@[simp] theorem flushOffers_holds {s : State} (hr : R.Holds s) (p) : R.Holds (flushOffers s p) := by simp [flushOffers, hr]

@[simp] theorem closeEmpty_holds {s : State} (hr : R.Holds s) (p r) : R.Holds (closeEmpty s p r) := by
  unfold closeEmpty
  split <;> simp [hr]

@[simp] theorem opMergeLists_holds {s : State} (hr : R.Holds s) (p j l sources) :
    R.Holds (opMergeLists s p j l sources) := by
  unfold opMergeLists
  extract_lets c s0 k inputs m s0' s1
  have h0 : R.Holds s0 := foldl_keeps (fun t n ht => by split <;> simp [ht]) hr _
  have h0' : R.Holds s0' := by simp [s0', h0]
  have h1 : R.Holds s1 := by simp [s1, h0']
  exact foldl_keeps (fun _ _ ht => noteMismatch_holds ht _ _) (by simp [h1]) _

/-! ## Planning -/

@[simp] theorem countRange_holds (s p n) : R.Holds (countRange s p n) ↔ R.Holds s := by
  unfold countRange
  split
  · rfl
  · extract_lets l s1
    have h1 : R.Holds s1 ↔ R.Holds s := modLant_holds (f := fun l => { l with
      rangeCtr := BitVec.ofNat 32 (min (l.rangeCtr.toNat + n) 0xFFFF_FFFF), counted := l.counted ++ [l.cycle] }) p rfl
    split <;> simp [h1]

@[simp] theorem opDrawSeeds_holds (s j r m) : R.Holds (opDrawSeeds s j r m) ↔ R.Holds s := by simp [opDrawSeeds]

@[simp] theorem addCand_holds (s j c) : R.Holds (addCand s j c) ↔ R.Holds s := by simp [addCand]

@[simp] theorem opGenerate_holds (s p j r m l index) : R.Holds (opGenerate s p j r m l index) ↔ R.Holds s := by
  unfold opGenerate
  dsimp only
  repeat' split
  all_goals simp

@[simp] theorem modCand_holds (s j p f) : R.Holds (modCand s j p f) ↔ R.Holds s := by simp [modCand]

@[simp] theorem opTorque_holds (s j r m l index) : R.Holds (opTorque s j r m l index) ↔ R.Holds s := by simp [opTorque]

@[simp] theorem opQuery_holds (s p j r m l index) : R.Holds (opQuery s p j r m l index) ↔ R.Holds s := by
  unfold opQuery
  split <;> simp

@[simp] theorem opScore_holds (s p j r m l index) : R.Holds (opScore s p j r m l index) ↔ R.Holds s := by
  unfold opScore
  split <;> simp

@[simp] theorem opMeasure_holds {s : State} (hr : R.Holds s) (p j l k) : R.Holds (opMeasure s p j l k) := by
  unfold opMeasure
  split <;> simp [hr]

@[simp] theorem moveBlock_holds {s : State} (hr : R.Holds s) (j k) : R.Holds (moveBlock j s k) := by
  unfold moveBlock
  extract_lets l
  split
  · exact hr
  · extract_lets _ _ s1
    have h1 : R.Holds s1 := foldl_keeps (fun t p ht => by simp [ht]) hr _
    simp [h1]

/-! ## Tensor stages -/

@[simp] theorem opAssemble_holds (s p j r m k) : R.Holds (opAssemble s p j r m k) ↔ R.Holds s := by
  unfold opAssemble
  split <;> simp

@[simp] theorem opTsSetup_holds (s p j r m w l k) : R.Holds (opTsSetup s p j r m w l k) ↔ R.Holds s := by
  unfold opTsSetup
  dsimp only
  split
  · rfl
  · split
    · rfl
    · exact (countRange_holds ..).trans (modJob_holds _ fun _ => rfl)

@[simp] theorem settleSolves_holds (s r all) : R.Holds (settleSolves s r all) ↔ R.Holds s := by
  unfold settleSolves
  split
  · rfl
  · split
    · rfl
    · refine modJob_holds r fun j => foldl_win (fun k x => ?_) _ j
      split <;> simp

@[simp] theorem opIterate_holds (s p j r m w l k kind) : R.Holds (opIterate s p j r m w l k kind) ↔ R.Holds s := by
  unfold opIterate
  split <;> simp

@[simp] theorem startIk_holds (s j n target x0) : R.Holds (startIk s j n target x0) ↔ R.Holds s := by
  unfold startIk
  split
  · rfl
  · exact modJob_holds _ fun _ => rfl

/-! ## Routes -/

@[simp] theorem opRoutePass_holds (s p j r) : R.Holds (opRoutePass s p j r) ↔ R.Holds s := by simp [opRoutePass]

@[simp] theorem opIkGoal_holds (s j m) : R.Holds (opIkGoal s j m) ↔ R.Holds s := by
  unfold opIkGoal
  split <;> simp

@[simp] theorem opRouteEnds_holds (s j r m) : R.Holds (opRouteEnds s j r m) ↔ R.Holds s := by simp [opRouteEnds]

@[simp] theorem opRouteExtract_holds (s p j r) : R.Holds (opRouteExtract s p j r) ↔ R.Holds s := by
  unfold opRouteExtract
  split <;> simp

@[simp] theorem opRouteTargets_holds (s j r m) : R.Holds (opRouteTargets s j r m) ↔ R.Holds s := by simp [opRouteTargets]

@[simp] theorem opRouteSeed_holds (s j r m) : R.Holds (opRouteSeed s j r m) ↔ R.Holds s := by simp [opRouteSeed]

/-! ## Rings -/

@[simp] theorem ringOff_holds (s r) : R.Holds (ringOff s r) ↔ R.Holds s := by simp [ringOff]

@[simp] theorem settleRing_holds (s r) : R.Holds (settleRing s r) ↔ R.Holds s := by
  unfold settleRing
  dsimp only
  repeat' split
  all_goals simp

@[simp] theorem ringOverrun_holds {s : State} (hr : R.Holds s) (r) : R.Holds (ringOverrun s r) := by
  simp [ringOverrun, hr]

@[simp] theorem takeEntry_holds {s : State} (hr : R.Holds s) (x) : R.Holds (takeEntry s x) := by
  simp [takeEntry, readEntry, newEntry, hr]

@[simp] theorem acceptOne_holds {s : State} (hr : R.Holds s) (x) : R.Holds (acceptOne s x) := by simp [acceptOne, hr]

@[simp] theorem ownerDiffers_holds {s : State} (hr : R.Holds s) (r) : R.Holds (ownerDiffers s r) := by
  simp [ownerDiffers, hr]

@[simp] theorem serveRing_holds {s : State} (hr : R.Holds s) (r prod descs) : R.Holds (serveRing s r prod descs) := by
  unfold serveRing
  extract_lets s1 g n mine
  have h1 : R.Holds s1 := by simp [s1, hr]
  have htaken : R.Holds (mine.foldl acceptOne s1) := foldl_keeps (fun _ _ ht => acceptOne_holds ht _) h1 _
  simp [h1, htaken]

@[simp] theorem replayRest_holds {s : State} (hr : R.Holds s) (r descs) : R.Holds (replayRest s r descs) :=
  foldl_keeps (fun _ _ ht => acceptOne_holds ht _) hr _

@[simp] theorem lostRest_holds {s : State} (hr : R.Holds s) (r) : R.Holds (lostRest s r) := by simp [lostRest, hr]

@[simp] theorem pollRing_holds {s : State} (hr : R.Holds s) (doorbell descs r) : R.Holds (pollRing doorbell descs s r) := by
  unfold pollRing
  dsimp only
  split <;> simp [hr]

@[simp] theorem applyCancel_holds (s own target) : R.Holds (applyCancel s own target) ↔ R.Holds s := by
  unfold applyCancel
  dsimp only
  repeat' split
  all_goals simp

@[simp] theorem admitCancel_holds (s d ring index) : R.Holds (admitCancel s d ring index) ↔ R.Holds s := by
  unfold admitCancel
  split <;> simp

@[simp] theorem admitOne_holds {s : State} (hr : R.Holds s) (d) : R.Holds (admitOne s d) := by
  unfold admitOne
  repeat' split
  all_goals simp [hr]

@[simp] theorem admitAll_holds {s : State} (hr : R.Holds s) : R.Holds (admitAll s) :=
  foldl_keeps (fun t d ht => by split <;> simp [ht]) hr _

@[simp] theorem admitAt_holds {s : State} (hr : R.Holds s) (ring index isIt) : R.Holds (admitAt s ring index isIt) := by
  unfold admitAt
  split <;> simp [hr]

@[simp] theorem writeRecord_holds (s d res) : R.Holds (writeRecord s d res) ↔ R.Holds s := by
  unfold writeRecord
  split <;> simp

@[simp] theorem afterRelease_holds (s d) : R.Holds (afterRelease s d) ↔ R.Holds s := by simp [afterRelease]

@[simp] theorem retireEntry_holds {s : State} (hr : R.Holds s) (d) : R.Holds (retireEntry s d) := by
  simp [retireEntry, hr]

@[simp] theorem released_holds (s d res) : R.Holds (released s d res) ↔ R.Holds s := by simp [released]

@[simp] theorem releaseOne_holds {s : State} (hr : R.Holds s) (r) : R.Holds (releaseOne s r) := by
  unfold releaseOne
  split <;> simp [hr]

@[simp] theorem enableRing_holds {s : State} (hr : R.Holds s) (r replay) : R.Holds (enableRing s r replay) := by
  unfold enableRing
  extract_lets ix s1 s2
  have h1 : R.Holds s1 := by simp [s1, hr]
  split
  · simp [h1]
  · exact foldl_keeps (fun _ _ ht => acceptOne_holds ht _) (by simp [s2, h1]) _

@[simp] theorem disableRing_holds (s r) : R.Holds (disableRing s r) ↔ R.Holds s := by
  unfold disableRing
  dsimp only
  split <;> simp

@[simp] theorem ringCtrlWrite_holds {s : State} (hr : R.Holds s) (r v replay) : R.Holds (ringCtrlWrite s r v replay) := by
  simp [ringCtrlWrite, hr]

@[simp] theorem detach_holds {s : State} (hr : R.Holds s) : R.Holds (detach s) := by simp [detach, hr]

@[simp] theorem releaseRing_holds {s : State} (hr : R.Holds s) (n r) : R.Holds (releaseRing n s r) := by
  induction n generalizing s with
  | zero => exact hr
  | succ n ih => exact ih (by simp [hr])

@[simp] theorem holdRecord_holds (s d) : R.Holds (holdRecord s d) ↔ R.Holds s := by simp [holdRecord]

@[simp] theorem ownAgain_holds {s : State} (hr : R.Holds s) (doorbell r) : R.Holds (ownAgain doorbell s r) := by
  unfold ownAgain
  dsimp only
  repeat' split
  all_goals simp [hr]

@[simp] theorem readRest_holds {s : State} (hr : R.Holds s) (replay r) : R.Holds (readRest replay s r) :=
  foldl_keeps (fun _ _ ht => takeEntry_holds ht _) hr _

@[simp] theorem reattach_holds {s : State} (hr : R.Holds s) (doorbell replay) : R.Holds (reattach doorbell replay s) := by
  unfold reattach
  extract_lets rings s0 s1 held rings1 s2 s3 s4 rings2
  have h0 : R.Holds s0 := foldl_keeps (fun _ _ ht => ownAgain_holds ht _ _) (by simp [hr]) _
  have h1 : R.Holds s1 := foldl_keeps (fun _ _ ht => readRest_holds ht _ _) h0 _
  have h2 : R.Holds s2 := by simp [s2, h1]
  have h3 : R.Holds s3 := foldl_keeps (fun _ _ ht => by simp [ht]) h2 _
  have h4 : R.Holds s4 := foldl_keeps (fun _ _ ht => releaseRing_holds ht _ _) h3 _
  simp [hr, h4]

/-! ## Descriptors -/

@[simp] theorem runHead_holds {s : State} (hr : R.Holds s) (ring isIt) {f : State → DescEntry → State}
    (hf : ∀ t d, R.Holds t → R.Holds (f t d)) : R.Holds (runHead s ring isIt f) := by
  unfold runHead
  split
  · split
    · exact hf _ _ (by simp [hr])
    · exact hr
  · exact hr

@[simp] theorem dstWrite_holds (s r a bs) : R.Holds (dstWrite s r a bs) ↔ R.Holds s := by simp [dstWrite]

@[simp] theorem setGoal_holds (s ref n g) : R.Holds (setGoal s ref n g) ↔ R.Holds s := by simp [setGoal]

@[simp] theorem goalSet_holds (s d n rec_) : R.Holds (goalSet s d n rec_) ↔ R.Holds s := by
  unfold goalSet
  split <;> simp

@[simp] theorem loadSeeds_holds (s ref cls mode new) : R.Holds (loadSeeds s ref cls mode new) ↔ R.Holds s := by
  simp [loadSeeds]

@[simp] theorem seedsLoad_holds (s d len cls mode buf) : R.Holds (seedsLoad s d len cls mode buf) ↔ R.Holds s := by
  unfold seedsLoad
  split <;> simp

/-! ## Fusion -/

@[simp] theorem fuseSet_holds {s : State} (hr : R.Holds s) (j r set) : R.Holds (fuseSet s j r set) := by
  unfold fuseSet
  extract_lets vs touched again a now beyond w s1 b anew w1 w2 w3 w4 s2
  have ha : R.Holds a.1 := allocate_holds (allocate_holds hr _ _) _ _
  have hb : R.Holds b.1 := by
    refine mergeInbox_holds ?_ _ _ _
    simp [s1, ha]
  refine takeClusters_holds ?_ _ _ _
  simp [s2, hb]

@[simp] theorem formDistances_holds {s : State} (hr : R.Holds s) (ref r) : R.Holds (formDistances s ref r) := by
  unfold formDistances
  extract_lets s1 w
  have h1 : R.Holds s1 := by simp [s1, hr]
  refine storeCoarse_holds (storeBricks_holds ?_ _) _
  simp [h1]

@[simp] theorem writeMaster_holds {s : State} (hr : R.Holds s) (j r te x) : R.Holds (writeMaster s j r te x) := by
  unfold writeMaster
  dsimp only
  split
  · exact hr
  · simp [hr]

@[simp] theorem writeMasters_holds {s : State} (hr : R.Holds s) (j r te) : R.Holds (writeMasters s j r te) :=
  stageStore_holds (foldl_keeps (fun _ _ ht => writeMaster_holds ht _ _ _ _) hr _) _ _ _

@[simp] theorem runPhase_holds {s : State} (hr : R.Holds s) (ref k) : R.Holds (runPhase s ref k) := by
  unfold runPhase
  repeat' split
  all_goals simp [hr]

@[simp] theorem finishRun_holds {s : State} (hr : R.Holds s) (ref) : R.Holds (finishRun s ref) :=
  foldl_keeps (fun _ _ ht => runPhase_holds ht _ _) hr _

@[simp] theorem fillProbes_holds {s : State} (hr : R.Holds s) (r set) : R.Holds (fillProbes s r set) :=
  foldl_keeps (fun _ _ ht => placeWrite_holds (by simp [ht]) _ _) hr _

@[simp] theorem judgeProbe_holds {s : State} (hr : R.Holds s) (j set p ctr ok) : R.Holds (judgeProbe s j set p ctr ok) := by
  unfold judgeProbe
  extract_lets s1 s2
  have h1 : R.Holds s1 := by simp [s1, hr]
  have h2 : R.Holds s2 := by simp [s2, h1]
  simp [h1, h2]

/-! ## Inference -/

@[simp] theorem modWick_holds (s p w f) : R.Holds (modWick s p w f) ↔ R.Holds s := by simp [modWick]

@[simp] theorem opInputPixel_holds {s : State} (hr :
    R.Holds s) (p j r port decl index dst) : R.Holds (opInputPixel s p j r port decl index dst) := by
  unfold opInputPixel
  split <;> simp [hr]

@[simp] theorem opInputImage_holds {s : State} (hr :
    R.Holds s) (p j r port index dst n) : R.Holds (opInputImage s p j r port index dst n) := by
  unfold opInputImage
  split <;> simp [hr]

@[simp] theorem opChannelScale_holds (s p w acc k bias) : R.Holds (opChannelScale s p w acc k bias) ↔ R.Holds s := by
  simp [opChannelScale]

@[simp] theorem putRow_holds (s p w first xs) : R.Holds (putRow s p w first xs) ↔ R.Holds s := by simp [putRow]

@[simp] theorem putElems_holds (s p w rd t xs) : R.Holds (putElems s p w rd t xs) ↔ R.Holds s := by simp [putElems]

@[simp] theorem opElementwise_holds (s p w op t rd ra rb) : R.Holds (opElementwise s p w op t rd ra rb) ↔ R.Holds s := by
  simp [opElementwise]

@[simp] theorem opPool_holds (s p w kind t first n rd) : R.Holds (opPool s p w kind t first n rd) ↔ R.Holds s := by
  simp [opPool]

@[simp] theorem opBilinear_holds (s p w t first x y rd) : R.Holds (opBilinear s p w t first x y rd) ↔ R.Holds s := by
  simp [opBilinear]

@[simp] theorem opSumParts_holds (s p w order first rd) : R.Holds (opSumParts s p w order first rd) ↔ R.Holds s := by
  simp [opSumParts]

@[simp] theorem opGraspPose_holds (s j r m row) : R.Holds (opGraspPose s j r m row) ↔ R.Holds s := by
  unfold opGraspPose
  dsimp only
  repeat' split
  all_goals simp

@[simp] theorem opPostSolution_holds (s j k) : R.Holds (opPostSolution s j k) ↔ R.Holds s := by
  unfold opPostSolution
  split <;> simp

@[simp] theorem opCarriedFit_holds {s : State} (hr :
    R.Holds s) (p j r m port maskAt n) : R.Holds (opCarriedFit s p j r m port maskAt n) := by
  unfold opCarriedFit
  dsimp only
  split <;> simp [hr]

@[simp] theorem opInboxBrick_holds {s : State} (hr : R.Holds s) (p w j first) : R.Holds (opInboxBrick s p w j first) := by
  simp [opInboxBrick, hr]

@[simp] theorem opOffer_holds (s p w d pos reg) : R.Holds (opOffer s p w d pos reg) ↔ R.Holds s := by
  unfold opOffer
  dsimp only
  split <;> simp

@[simp] theorem opOfferRaw_holds (s p w first) : R.Holds (opOfferRaw s p w first) ↔ R.Holds s := by simp [opOfferRaw]

/-! ## Plans, weights and recipes -/

@[simp] theorem placeFill_holds {s : State} (hr : R.Holds s) (f) : R.Holds (placeFill s f) := by simp [placeFill, hr]

@[simp] theorem fillRegions_holds {s : State} (hr : R.Holds s) (owner fs) : R.Holds (fillRegions s owner fs) := by
  have hplaced : R.Holds (fs.foldl placeFill s) := foldl_keeps (fun _ _ ht => placeFill_holds ht _) hr _
  simp [fillRegions, hplaced]

@[simp] theorem stageRecipe_holds {s : State} (hr : R.Holds s) : R.Holds (stageRecipe s) := by
  unfold stageRecipe
  split
  · exact hr
  · extract_lets missing s1 mem
    have h1 : R.Holds s1 := foldl_keeps (fun _ _ ht => placeFill_holds ht _) hr _
    simp [mem, h1]

@[simp] theorem installPlan_holds {s : State} (hr : R.Holds s) (img) : R.Holds (installPlan s img) := by
  simp [installPlan, hr]

@[simp] theorem planLoad_holds {s : State} (hr : R.Holds s) (d b len pid) : R.Holds (planLoad s d b len pid) := by
  unfold planLoad
  split <;> simp [hr]

@[simp] theorem installWeights_holds {s : State} (hr : R.Holds s) (d bytes) : R.Holds (installWeights s d bytes) := by
  simp [installWeights, hr]

@[simp] theorem weightsLoad_holds {s : State} (hr : R.Holds s) (d b len id) : R.Holds (weightsLoad s d b len id) := by
  unfold weightsLoad
  dsimp only
  repeat' split
  all_goals simp [hr]

@[simp] theorem recipeLoad_holds (s d b len) : R.Holds (recipeLoad s d b len) ↔ R.Holds s := by
  unfold recipeLoad
  split <;> simp

@[simp] theorem dropParse_holds (s ring) : R.Holds (dropParse s ring) ↔ R.Holds s := by simp [dropParse]

@[simp] theorem installRecipe_holds {s : State} (hr : R.Holds s) (w r) : R.Holds (installRecipe s w r) := by
  simp [installRecipe, hr]

/-! ## Slot boundary -/

@[simp] theorem clearBytes_holds {s : State} (hr : R.Holds s) : R.Holds (clearBytes s) := by
  unfold clearBytes
  extract_lets p blank s1 s2
  have h1 : R.Holds s1 := foldl_keeps (fun _ _ ht => placeWrite_holds ht _ _) hr _
  have h2 : R.Holds s2 := foldl_keeps (fun _ _ ht => placeWrite_holds (placeWrite_holds ht _ _) _ _) h1 _
  exact foldl_keeps (fun _ _ ht => placeWrite_holds ht _ _) h2 _

@[simp] theorem stopFusion_holds (s) : R.Holds (stopFusion s) ↔ R.Holds s := by simp [stopFusion]

@[simp] theorem takeRecipe_holds {s : State} (hr : R.Holds s) : R.Holds (takeRecipe s) := by
  unfold takeRecipe
  split <;> simp [hr]

@[simp] theorem takeMap_holds {s : State} (hr : R.Holds s) : R.Holds (takeMap s) := by
  unfold takeMap
  split
  · exact hr
  · extract_lets changed s0 s1 s2 routes klink s3
    have h0 : R.Holds s0 := foldl_keeps (fun _ _ ht => by simp [ht]) hr _
    have h2 : R.Holds s2 := by simp [s2, s1, h0]
    have h3 : R.Holds s3 := by simp [s3, h2]
    simp [h3]

@[simp] theorem takeAborts_holds (s) : R.Holds (takeAborts s) ↔ R.Holds s := by simp [takeAborts]

@[simp] theorem takeSpec_holds (s) : R.Holds (takeSpec s) ↔ R.Holds s := by simp [takeSpec]

@[simp] theorem freeLanterns_holds (s j) : R.Holds (freeLanterns s j) ↔ R.Holds s := by simp [freeLanterns]

@[simp] theorem endFusion_holds (s j set) : R.Holds (endFusion s j set).1 ↔ R.Holds s := by
  unfold endFusion
  dsimp only
  split
  · rfl
  · split <;> simp

@[simp] theorem deliverCarried_holds (s j) : R.Holds (deliverCarried s j).1 ↔ R.Holds s := by
  unfold deliverCarried
  split <;> simp

@[simp] theorem deliverInbox_holds {s : State} (hr : R.Holds s) (j) : R.Holds (deliverInbox s j).1 := by
  unfold deliverInbox
  split <;> simp [hr]

@[simp] theorem endInference_holds {s : State} (hr : R.Holds s) (j) : R.Holds (endInference s j).1 := by
  simp [endInference, hr]

@[simp] theorem writeTensors_holds (s r) : R.Holds (writeTensors s r) ↔ R.Holds s := by
  unfold writeTensors
  repeat' split
  all_goals simp

@[simp] theorem abortGroup_holds (s j) : R.Holds (abortGroup s j) ↔ R.Holds s := by simp [abortGroup]

@[simp] theorem dropHubIn_holds (s r) : R.Holds (dropHubIn s r) ↔ R.Holds s := by simp [dropHubIn]

@[simp] theorem finishJob_holds {s : State} (hr : R.Holds s) (j) : R.Holds (finishJob s j) := by
  unfold finishJob
  extract_lets st s1 k j0 s0 x y
  have h1 : R.Holds s1 := by simp [s1, hr]
  have h0 : R.Holds s0 := by simp [s0, h1]
  have hx : R.Holds x.1 := by
    unfold x
    split <;> simp [h0]
  have hy : R.Holds y.1 := by simp [y, hx]
  simp [hy]

@[simp] theorem releaseAborted_holds {s : State} (hr : R.Holds s) (j) : R.Holds (releaseAborted s j) := by
  simp [releaseAborted, hr]

@[simp] theorem saveTarget_win {s : State} (hr : R.Holds s) {t j} (hj : saveTarget s t = some j) : R.ram j.win := by
  unfold saveTarget at hj
  split at hj
  next k hk =>
    cases hj
    exact holds_job hr hk
  next =>
    obtain ⟨d, hd, hresume⟩ := Option.bind_eq_some_iff.mp hj
    split at hresume
    · exact holds_desc hr hd j hresume
    · cases hresume

@[simp] theorem takeSave_holds {s : State} (hr : R.Holds s) (own t) {j} (hj : R.ram j.win) : R.Holds (takeSave s own t j) := by
  unfold takeSave
  extract_lets k s1 s2
  split
  · have hjobs : R.JobsOk (modJob s t fun _ => k).jobs := by
      intro i hi
      obtain ⟨i', hi', rfl⟩ := List.mem_map.mp hi
      split
      · exact hj
      · exact holds_jobs hr i' hi'
    obtain ⟨hfuses, hcistern, hdram, hlants, -, hdescs⟩ := hr
    exact ⟨hfuses, hcistern, hdram, hlants, hjobs, hdescs⟩
  · have h2 : R.Holds s2 := by simp [s2, s1, hr, k, hj]
    simp [h2]

@[simp] theorem saveOne_holds {s : State} (hr : R.Holds s) (own) : R.Holds (saveOne s own) := by
  unfold saveOne
  split
  · split
    · simp [hr]
    next ht =>
      obtain ⟨t', -, hj⟩ := Option.bind_eq_some_iff.mp ht
      obtain ⟨j', hj', heq⟩ := Option.map_eq_some_iff.mp hj
      cases heq
      simp [hr, saveTarget_win hr hj']
  · exact hr

@[simp] theorem endSave_holds {s : State} (hr : R.Holds s) {j} (hj : R.ram j.win) : R.Holds (endSave s j) := by
  have hfreed : R.Holds (freeLanterns (delJob s j.ref) j) := by simp [hr]
  have hkept (own : JobRef) : R.Holds (modDesc (freeLanterns (delJob s j.ref) j) own fun e =>
      { e with resume := some { j with kind := .work, endAs := .none, saver := none } }) :=
    modDesc_keeps hfreed _ fun _ _ => by simp [hj]
  unfold endSave
  cases j.saver with
  | none => exact hr
  | some own =>
    dsimp only
    generalize ((j.endAs == JobEnd.cancelled) || _) = stopped
    cases stopped with
    | true => simp [hr]
    | false =>
      rw [if_neg Bool.false_ne_true]
      exact hkept own

@[simp] theorem sendExchange_holds (s j) : R.Holds (sendExchange s j) ↔ R.Holds s := by
  unfold sendExchange
  split <;> simp

@[simp] theorem stepJob_holds {s : State} (hr : R.Holds s) {j} (hj : R.ram j.win) : R.Holds (stepJob s j) := by
  simp [stepJob, hr, hj]

@[simp] theorem closeSlot_holds {s : State} (hr : R.Holds s) (j) : R.Holds (closeSlot s j) := by
  unfold closeSlot
  extract_lets s0 s1
  have h0 : R.Holds s0 := foldl_keeps (fun t p ht => by simp [ht]) hr _
  have h1 : R.Holds s1 := by simp [s1, h0]
  exact map_getD_holds (fun _ => by simp [h1]) h1 _

@[simp] theorem endSlots_holds {s : State} (hr : R.Holds s) : R.Holds (endSlots s) := by
  unfold endSlots
  extract_lets s0 s1 s2
  have h0 : R.Holds s0 := foldl_keeps (fun _ _ ht => closeSlot_holds ht _) hr _
  have hstep (p : Job → Bool) {t : State} (ht : R.Holds t) : R.Holds ((s0.jobs.filter p).foldl stepJob t) :=
    foldl_keeps_mem (fun _ j hj hu => stepJob_holds hu (holds_jobs h0 j (List.mem_of_mem_filter hj))) ht
  have h2 : R.Holds s2 := hstep _ (hstep _ h0)
  exact foldl_keeps (fun _ _ ht => saveOne_holds ht _) (by simp [h2]) _

@[simp] theorem idleApply_holds (s) : R.Holds (idleApply s) ↔ R.Holds s := by simp [idleApply]

/-! ## Slot walk -/

@[simp] theorem refuseJob_holds {s : State} (hr : R.Holds s) (d r) : R.Holds (refuseJob s d r) := by
  unfold refuseJob
  repeat' split
  all_goals simp [hr]

@[simp] theorem beginFusion_holds {s : State} (hr : R.Holds s) (j) : R.Holds (beginFusion s j) := by
  unfold beginFusion
  split <;> simp [hr]

@[simp] theorem fillBasins_holds {s : State} (hr : R.Holds s) {j} (hwin : R.ram j.win) (hroute : R.ram j.routeWin) :
    R.Holds (fillBasins s j) := by
  refine foldl_keeps (fun t p ht => modLant_keeps ht p ?_) hr _
  have hfilled : R.ram ((lant t p).basin.overlay j.win 0 masterLen) := by simp [ht, hwin]
  simp [hfilled, hroute]

@[simp] theorem coldCopies_holds {s : State} (hr : R.Holds s) (j) : R.Holds (coldCopies s j) := by simp [coldCopies, hr]

@[simp] theorem ram_runCopy {s : State} (hr : R.Holds s) (base len) : R.ram (runCopy s base len) := by
  refine List.foldlRecOn (motive := R.ram) _ _ (ram_cisternCopy hr base len) fun q hq g _ => ?_
  split
  · exact ram_writeN hq _ _
  · exact hq

/-- What a dispatch gives a job: both of its copies are copies from the cistern, or the first is a saved one. -/
theorem newJob_copies {s : State} (hr : R.Holds s) (d img spec) :
    R.ram (newJob s d img spec).win ∧ R.ram (newJob s d img spec).routeWin := by
  have hroute : R.ram (routeCopy s) := ram_runCopy hr _ _
  unfold newJob
  split
  · exact ⟨ram_writeN ram_empty _ _, hroute⟩
  · exact ⟨ram_runCopy hr _ _, hroute⟩

@[simp] theorem dispatchJob_holds {s : State} (hr : R.Holds s) (d img spec) : R.Holds (dispatchJob s d img spec) := by
  obtain ⟨hwin, hroute⟩ := newJob_copies (R := R) hr d img spec
  unfold dispatchJob
  extract_lets j fl s1 s2 s3 s4 s5
  have h2 : R.Holds s2 := by simp [s2, s1, hr]
  have h3 : R.Holds s3 := modDesc_keeps h2 _ fun _ _ => resumeOk_none
  have h4 : R.Holds s4 := by simp [s4, dropHubIn, h3, j, hwin]
  have h5 : R.Holds s5 := (foldl_holds (fun t p => modLant_holds p rfl) _ s4).mpr h4
  exact beginFusion_holds (coldCopies_holds (fillBasins_holds (by simp [h5]) hwin hroute) _) _

@[simp] theorem walkJob_holds {w} (hr : R.Holds w.1) (x) : R.Holds (walkJob w x).1 := by
  unfold walkJob
  extract_lets s
  have hs : R.Holds s := hr
  split
  · exact hr
  · repeat' split
    all_goals simp [hr, hs]

@[simp] theorem walk_holds {s : State} (hr : R.Holds s) : R.Holds (walk s) := by
  unfold walk
  split
  · exact hr
  · exact foldl_fst_holds (fun _ _ hw => walkJob_holds hw _) hr _

@[simp] theorem keepState_holds {s : State} (hr : R.Holds s) {j} (hj : R.ram j.win) : R.Holds (keepState s j) := by
  unfold keepState
  split
  · exact modDesc_keeps hr _ fun _ _ => resumeOk_some.mpr hj
  · exact hr

@[simp] theorem beginLantern_basin (j n l) : (beginLantern j n l).basin = l.basin := by
  simp [beginLantern, enterCtx]

@[simp] theorem beginSlot_holds {s : State} (hr : R.Holds s) {j} (hj : R.ram j.win) : R.Holds (beginSlot s j) :=
  foldl_keeps (fun t p ht => by simp [ht]) (keepState_holds hr hj) _

@[simp] theorem settlePower_holds (s) : R.Holds (settlePower s) ↔ R.Holds s := by simp [settlePower]

@[simp] theorem noteBusy_holds (s) : R.Holds (noteBusy s) ↔ R.Holds s := by simp [noteBusy]

@[simp] theorem stepGrid_holds (s) : R.Holds (stepGrid s) ↔ R.Holds s := by simp [stepGrid]

@[simp] theorem idleLantern_basin (retain l) : (idleLantern retain l).basin = l.basin := by
  unfold idleLantern
  split
  · split <;> rfl
  · rfl

@[simp] theorem boundary_holds {s : State} (hr : R.Holds s) : R.Holds (boundary s) := by
  unfold boundary
  extract_lets s1 s2 s3 s4 s5
  have h1 : R.Holds s1 := by simp [s1, hr]
  have hended : R.Holds (endSlots (takeAborts (takeMap s1))) := by simp [h1]
  have h2 : R.Holds s2 := by simp [s2, hended]
  have h3 : R.Holds s3 := by simp [s3, h2]
  have h4 : R.Holds s4 := foldl_keeps_mem (fun _ j hj ht => beginSlot_holds ht (holds_jobs h3 j hj)) h3
  have hlants : R.LantsOk (s4.lanterns.map (idleLantern s4.grid.retain)) ↔ R.LantsOk s4.lanterns :=
    lantsOk_map (idleLantern_basin _)
  simp [s5, h4, hlants]

/-! ## Confirmation -/

@[simp] theorem settleRun_holds {s : State} (hr : R.Holds s) : R.Holds (settleRun s) := by
  unfold settleRun
  split <;> simp [hr]

@[simp] theorem abortSpec_holds {s : State} (hr : R.Holds s) (r j) : R.Holds (abortSpec s r j) := by
  unfold abortSpec
  extract_lets s1 s2
  have h1 : R.Holds s1 := by simp [s1, hr]
  have h2 : R.Holds s2 := modDesc_keeps h1 _ fun d hd => by simp [hd]
  simp [h2]

@[simp] theorem confirmSpec_holds {s : State} (hr : R.Holds s) (r) : R.Holds (confirmSpec s r) := by
  unfold confirmSpec
  extract_lets s1 s2
  have h1 : R.Holds s1 := by simp [s1, hr]
  have h2 : R.Holds s2 := modDesc_keeps h1 _ fun _ _ => resumeOk_none
  simp [h2]

@[simp] theorem epochCheck_holds {s : State} (hr : R.Holds s) (job j) : R.Holds (epochCheck s job j) := by
  simp [epochCheck, hr]

/-! ## Lanterns and wicks -/

@[simp] theorem stageFor_holds {s : State} (hr : R.Holds s) (p) {f : Job → Recipe → State} (hf : ∀ j r, R.Holds (f j r)) :
    R.Holds (stageFor s p f) := by
  unfold stageFor
  split
  · split
    · exact hf _ _
    · exact hr
  · exact hr

@[simp] theorem robotFor_holds {s : State} (hr : R.Holds s) (p) {f : Job → Recipe → RobotModel → Nat → State}
    (hf : ∀ j r m l, R.Holds (f j r m l)) : R.Holds (robotFor s p f) :=
  stageFor_holds hr p fun j r => by split <;> simp [hf, hr]

@[simp] theorem listFor_holds {s : State} (hr : R.Holds s) (p) {f : Job → Nat → State} (hf : ∀ j l, R.Holds (f j l)) :
    R.Holds (listFor s p f) := by
  unfold listFor
  split <;> simp [hf, hr]

@[simp] theorem runStage_holds {s : State} (hr : R.Holds s) (p w op) : R.Holds (runStage s p w op) := by
  cases op <;> simp [runStage, hr]

@[simp] theorem wickAtomic_holds {s : State} (hr :
    R.Holds s) (p w old op a ra rd) : R.Holds (wickAtomic s p w old op a ra rd) := by
  simp [wickAtomic, hr]

@[simp] theorem gather_holds {s : State} (hr : R.Holds s) (p old w op) : R.Holds (gather s p old w op) := by
  unfold gather
  extract_lets l asleep fail
  have hfail : ∀ t, R.Holds t → R.Holds (fail t) := by
    intro t ht
    unfold fail
    split <;> simp [ht]
  split
  · extract_lets bs s1
    have h1 : R.Holds s1 := by simp [s1, hr]
    split
    · exact hfail s1 h1
    · exact h1
  · split
    · exact hfail s hr
    · refine modLant_keeps hr p ?_
      simp [hr]
  · simp [hr]
  · exact hr

@[simp] theorem meshSend_holds (old p s e) : R.Holds (meshSend old p s e) ↔ R.Holds s := by
  unfold meshSend
  repeat' split
  all_goals simp

@[simp] theorem eccOp_holds {s : State} (hr : R.Holds s) (p e) : R.Holds (eccOp p s e) := by
  unfold eccOp
  split <;> simp [hr]

@[simp] theorem stageAsleep_holds {s : State} (hr : R.Holds s) (p w op) : R.Holds (stageAsleep s p w op) := by
  unfold stageAsleep
  extract_lets s1 s2
  have h1 : R.Holds s1 := runStage_holds (modLant_keeps hr p ram_blank) _ _ _
  have h2 : R.Holds s2 := modLant_keeps h1 p (holds_basin hr p)
  exact map_getD_holds (fun _ => by simp [h2]) h2 _

@[simp] theorem stageStep_holds {s : State} (hr : R.Holds s) (p e) : R.Holds (stageStep p s e) := by
  unfold stageStep
  split <;> simp [hr]

@[simp] theorem fabricCycle_holds {s : State} (hr : R.Holds s) (p old ops c) : R.Holds (fabricCycle p old ops s c) :=
  foldl_keeps (fun _ _ ht => gather_holds ht _ _ _ _) hr _

@[simp] theorem wordCycle_holds {s : State} (hr : R.Holds s) (p old ops r c) : R.Holds (wordCycle p old ops s r c).1 := by
  unfold wordCycle
  dsimp only
  repeat' split
  all_goals simp [hr]

@[simp] theorem lineWord_holds {s : State} (hr : R.Holds s) (p ops c w) : R.Holds (lineWord p ops c s w) := by
  simp [lineWord, hr]

@[simp] theorem setFlight_holds (s id f) : R.Holds (setFlight s id f) ↔ R.Holds s := by simp [setFlight]

@[simp] theorem lineArrives_holds {s : State} (hr : R.Holds s) (p old ops f k c) : R.Holds (lineArrives p old ops f k s c) := by
  unfold lineArrives
  extract_lets ws put s1
  have hput : ∀ met t, R.Holds t → R.Holds (put met t) :=
    fun _ _ ht => foldl_keeps (fun _ _ hu => lineWord_holds hu _ _ _ _) ht _
  have h1 : R.Holds s1 := by
    unfold s1
    split
    · simp [hr]
    · exact hput _ _ (fabricCycle_holds (hput _ _ hr) _ _ _ _)
  simp [h1]

@[simp] theorem writeTakes_holds {s : State} (hr : R.Holds s) (p k w) : R.Holds (writeTakes s p k w) := by
  unfold writeTakes
  split <;> simp [hr]

@[simp] theorem lineTaken_holds {s : State} (hr : R.Holds s) (p id k) : R.Holds (lineTaken p id k s) := by
  unfold lineTaken
  split <;> simp [hr]

@[simp] theorem rillPop_holds (s a) : R.Holds (rillPop s a) ↔ R.Holds s := by
  unfold rillPop
  split <;> simp

@[simp] theorem rillEnter_holds (p cycle x r) : R.Holds (rillEnter p cycle x r).1 ↔ R.Holds x.1 := by
  unfold rillEnter
  split <;> simp

@[simp] theorem rillQueue_holds {s : State} (hr : R.Holds s) (p old rill) : R.Holds (rillQueue s p old rill).1 := by
  simp [rillQueue, hr]

@[simp] theorem rillCycle_holds {x} (hr : R.Holds x.1) (p old ops c) : R.Holds (rillCycle p old ops x c).1 := by
  unfold rillCycle
  dsimp only
  split
  · simp [hr]
  · split
    · simp [hr]
    · split
      · simp [hr]
      · split
        · split <;> simp [hr]
        · simp [hr]
      · split <;> simp [hr]

@[simp] theorem rillAfter_holds {s : State} (hr : R.Holds s) (p old stop now hs) : R.Holds (rillAfter p old stop s now hs) := by
  induction hs generalizing s now with
  | nil => simp [rillAfter, hr]
  | cons x t ih =>
    obtain ⟨start, h⟩ := x
    unfold rillAfter
    extract_lets at_ need s1
    have h1 : R.Holds s1 := by
      unfold s1
      split
      · simp [hr]
      · exact map_getD_holds (fun _ => by simp [hr]) hr _
      · simp [hr]
    split
    · simp [hr]
    · exact ih h1 _

@[simp] theorem gatherAll_holds {s : State} (hr : R.Holds s) (p old ops load cycles rill) :
    R.Holds (gatherAll s p old ops load cycles rill) :=
  rillAfter_holds (foldl_fst_holds (fun _ _ hw => rillCycle_holds hw _ _ _ _) (by simp [hr]) _) _ _ _ _ _

@[simp] theorem settleSwitches_basin (l) : (settleSwitches l).basin = l.basin := by
  unfold settleSwitches
  split <;> rfl

@[simp] theorem runWicks_holds {s : State} (hr : R.Holds s) (p cycles ops rill) : R.Holds (runWicks s p cycles ops rill) := by
  unfold runWicks
  extract_lets s0 old ctx sorted counted s1 load s2 s3 s4 took s5 s6
  have h0 : R.Holds s0 := by simp [s0, hr]
  have h1 : R.Holds s1 := foldl_keeps (fun _ _ ht => by simp [ht]) h0 _
  have h2 : R.Holds s2 := by simp [s2, h1]
  have h4 : R.Holds s4 := by simp [s4, s3, h2]
  have h5 : R.Holds s5 := foldl_keeps (fun _ _ ht => stageStep_holds ht _ _) h4 _
  have h6 : R.Holds s6 := by simp [s6, h5]
  exact foldl_keeps (fun _ _ ht => eccOp_holds ht _ _) (map_getD_holds (fun _ => by simp [h6]) h6 _) _

@[simp] theorem contextLoad_holds {s : State} (hr : R.Holds s) (j p cycle target number) :
    R.Holds (contextLoad s j p cycle target number) := by
  unfold contextLoad
  extract_lets x
  split
  · simp [hr]
  · exact modLant_keeps (f := fun x => { x with contexts := x.contexts.set target.val (j.img.ctxAt number) }) hr p
      (holds_basin hr p)

/-! ## Registers -/

@[simp] theorem clearRc_holds (s off counted) : R.Holds (clearRc s off counted) ↔ R.Holds s := by
  unfold clearRc
  repeat' split
  all_goals simp

@[simp] theorem readWord0_holds (s off counted) : R.Holds (readWord0 s off counted).1 ↔ R.Holds s := by simp [readWord0]

@[simp] theorem readWord2_holds (s off) : R.Holds (readWord2 s off).1 ↔ R.Holds s := by simp [readWord2]

@[simp] theorem readWord_holds (s bar off counted) : R.Holds (readWord s bar off counted).1 ↔ R.Holds s := by
  cases bar <;> simp [readWord]

@[simp] theorem busRead_holds {s : State} (hr :
    R.Holds s) (bar off size counted) : R.Holds (busRead s bar off size counted) := by
  unfold busRead
  dsimp only
  split
  · simp [hr]
  · split
    · simp [hr]
    · split <;> simp [hr]

@[simp] theorem poolModeWrite_holds (s v) : R.Holds (poolModeWrite s v) ↔ R.Holds s := by simp [poolModeWrite]

@[simp] theorem gridWrite_holds (s v) : R.Holds (gridWrite s v) ↔ R.Holds s := by simp [gridWrite]

@[simp] theorem specWrite_holds (s v) : R.Holds (specWrite s v) ↔ R.Holds s := by simp [specWrite]

@[simp] theorem ringWrite_holds {s : State} (hr : R.Holds s) (r off v) : R.Holds (ringWrite s r off v) := by
  simp [ringWrite, hr]

@[simp] theorem pollWrite_holds (s v) : R.Holds (pollWrite s v) ↔ R.Holds s := by simp [pollWrite]

@[simp] theorem blockBase_holds (s off v) : R.Holds (blockBase s off v) ↔ R.Holds s := by
  unfold blockBase
  repeat' split
  all_goals simp

@[simp] theorem prioWrite_holds (s r v) : R.Holds (prioWrite s r v) ↔ R.Holds s := by simp [prioWrite]

@[simp] theorem sluiceWrite_holds (s off v) : R.Holds (sluiceWrite s off v) ↔ R.Holds s := by
  unfold sluiceWrite
  repeat' split
  all_goals simp

@[simp] theorem globalWrite_holds {s : State} (hr : R.Holds s) (off v) : R.Holds (globalWrite s off v) := by
  unfold globalWrite
  split <;> simp [hr]

@[simp] theorem collideClear_holds (s off v) : R.Holds (collideClear s off v) ↔ R.Holds s := by
  unfold collideClear
  repeat' split
  all_goals simp

@[simp] theorem memRegWrite_holds (s off v) : R.Holds (memRegWrite s off v) ↔ R.Holds s := by
  unfold memRegWrite
  repeat' split
  all_goals simp

@[simp] theorem freezeWrite_holds {s : State} (hr : R.Holds s) (on) : R.Holds (freezeWrite s on) := by
  simp [freezeWrite, hr]

@[simp] theorem emberRegWrite_holds {s : State} (hr : R.Holds s) (off v) : R.Holds (emberRegWrite s off v) := by
  unfold emberRegWrite
  split <;> simp [hr]

@[simp] theorem senderWrite_holds {s : State} (hr : R.Holds s) (ch off v) : R.Holds (senderWrite s ch off v) := by
  simp [senderWrite, hr]

@[simp] theorem receiverWrite_holds (s ch off v) : R.Holds (receiverWrite s ch off v) ↔ R.Holds s := by
  simp [receiverWrite]

@[simp] theorem spoutCfgWrite_holds {s : State} (hr : R.Holds s) (v) : R.Holds (spoutCfgWrite s v) := by
  simp [spoutCfgWrite, hr]

@[simp] theorem spoutBlockWrite_holds {s : State} (hr : R.Holds s) (off v) : R.Holds (spoutBlockWrite s off v) := by
  simp [spoutBlockWrite, hr]

@[simp] theorem writeWord0_holds {s : State} (hr : R.Holds s) (off v) : R.Holds (writeWord0 s off v) := by
  simp [writeWord0, hr]

@[simp] theorem writeWord2_holds {s : State} (hr : R.Holds s) (off v) : R.Holds (writeWord2 s off v) := by
  simp [writeWord2, hr]

@[simp] theorem writeWord_holds {s : State} (hr : R.Holds s) (bar off v) : R.Holds (writeWord s bar off v) := by
  unfold writeWord
  split <;> simp [hr]

@[simp] theorem headerFirst_holds (s) : R.Holds (headerFirst s) ↔ R.Holds s := by simp [headerFirst]

@[simp] theorem busWrite_holds {s : State} (hr :
    R.Holds s) (bar off size data) : R.Holds (busWrite s bar off size data) := by
  unfold busWrite
  repeat' split
  all_goals simp [hr]

@[simp] theorem setW1c_setSender_holds (s ch sets) : R.Holds (setW1c.setSender s ch sets) ↔ R.Holds s := chanSet_holds ..

@[simp] theorem setW1c_holds (s bar off sets) : R.Holds (setW1c s bar off sets) ↔ R.Holds s := by
  unfold setW1c
  repeat' split
  all_goals simp

@[simp] theorem setBits_holds (s bar off size sets) : R.Holds (setBits s bar off size sets) ↔ R.Holds s := by
  unfold setBits
  split <;> simp

/-! ## The guards of a command

Where a guard does not admit the command, the state stays as it was. -/

/-- Whatever state the outcome leads to meets the rule. -/
def Next (R : StandingRule) (o : Out) : Prop := ∀ t, o = .next t → R.Holds t

@[simp] theorem next_next {t : State} (h : R.Holds t) : R.Next (.next t) := by
  rintro u ⟨⟩
  exact h

section Guards
variable {s : State} (hr : R.Holds s) {f : State → State} (hf : R.Holds (f s))
include hr hf

@[simp] theorem next_live : R.Next (live s f) := next_next (by simp [hr, hf])

@[simp] theorem next_busLive : R.Next (busLive s f) := next_next (by simp [hr, hf])

@[simp] theorem next_pilotLive : R.Next (pilotLive s f) := next_next (by simp [hr, hf])

@[simp] theorem next_serve : R.Next (serve s f) := next_live hr (by simp [hr, hf])

@[simp] theorem next_viaBus (host : Bool) : R.Next (viaBus host s f) := by
  cases host
  · exact next_live hr hf
  · exact next_busLive hr hf

end Guards

/-! ## Start-ups -/

theorem freshHub_holds {s : State} (hr : R.Holds s) (on) : R.Holds (freshHub s on) := by
  have hlants : R.LantsOk (s.lanterns.map fun l => { Lantern.reset with basin := l.basin.lose }) :=
    lantsOk_map_keeps (holds_lanterns hr) fun _ hl => ram_lose hl
  obtain ⟨hfuses, hcistern, hdram, -⟩ := hr
  exact ⟨hfuses, ram_lose hcistern, ram_lose hdram, hlants, jobsOk_nil, descsOk_nil⟩

theorem restart_holds {s : State} (hr : R.Holds s) (o) : R.Holds (restart o s) := by
  have hflushed : R.Holds (if s.ember.flushing then flushEnd s else s) := by simp [hr]
  unfold restart
  split
  · exact hr
  · exact startFrom3_holds (freshHub_holds hflushed _) o

theorem failDeassert_holds {s : State} (hr : R.Holds s) (o) : R.Holds (failDeassert o s) := by
  unfold failDeassert
  extract_lets pwr s1
  have h1 : R.Holds s1 := hr
  simp [h1, restart_holds h1]

theorem failGone_holds {s : State} (hr : R.Holds s) (o) : R.Holds (failGone o s) := by
  simp [failGone, hr, failDeassert_holds hr]

theorem handOff_holds (s : State) (r row t) : R.Holds (handOff s r row t) ↔ R.Holds s := by
  have hmod : R.Holds (modJob s r fun k => { k with published := some t, confirmedRow := some row }) ↔ R.Holds s :=
    modJob_holds r fun _ => rfl
  exact hmod

theorem disagree_holds {s : State} (hr : R.Holds s) (r j row h) : R.Holds (disagree s r j row h) := by
  simp [disagree, countDisagree, hr]

theorem judgeRow_holds {s : State} (hr : R.Holds s) (r j row rc m t) : R.Holds (judgeRow s r j row rc m t) := by
  unfold judgeRow
  repeat' split
  all_goals simp [hr, handOff_holds, disagree_holds]

theorem execReflectorVerdict_next {s : State} (hr : R.Holds s) (job) : R.Next (execReflectorVerdict job s) := by
  refine next_serve hr ?_
  split
  · exact hr
  · split
    · exact hr
    · have h1 : R.Holds (closeAttempt s job) := by simp [closeAttempt, hr]
      extract_lets s1
      repeat' split
      all_goals simp [s1, h1, judgeRow_holds]

theorem execPoll_next {s : State} (hr : R.Holds s) (doorbell descs) : R.Next (execPoll doorbell descs s) := by
  refine next_live hr ?_
  split
  · exact foldl_keeps (fun _ r ht => pollRing_holds ht _ _ r) hr _
  · exact hr

theorem execAtomicOperation_next {s : State} (hr : R.Holds s) (req place op operand) :
    R.Next (execAtomicOperation req place op operand s) := by
  refine next_serve hr ?_
  split
  · exact dmaIssue_holds hr _ _ fun t ht => by simp [ht]
  · exact hr

theorem execRillTransfer_next {s : State} (hr : R.Holds s) (x far) : R.Next (execRillTransfer x far s) :=
  next_serve hr (issue_holds hr _ _ _ fun _ ht => rillTransfer_holds ht _ _)

theorem execCisternRead_next {s : State} (hr : R.Holds s) (x) : R.Next (execCisternRead x s) :=
  next_serve hr (issue_holds hr _ _ _ fun _ ht => by simp [ht])

theorem execCisternWrite_next {s : State} (hr : R.Holds s) (x) : R.Next (execCisternWrite x s) :=
  next_serve hr (issue_holds hr _ _ _ fun _ ht => by simp [ht])

theorem execMemoryWakeComplete_next {s : State} (hr : R.Holds s) (unit) : R.Next (execMemoryWakeComplete unit s) := by
  refine next_serve hr ?_
  split
  · refine (modLant_holds _ ?_).mpr hr
    split <;> rfl
  · exact hr

theorem execMeasurementTransfer_next {s : State} (hr : R.Holds s) (job) : R.Next (execMeasurementTransfer job s) := by
  refine next_serve hr ?_
  split
  · exact hr
  next j hj =>
    extract_lets moved
    have hmoved : R.Holds (moved.foldl (moveBlock j) s) := foldl_keeps (fun _ k ht => moveBlock_holds ht j k) hr _
    simp [hmoved]

theorem execDiagOverdue_next {s : State} (hr : R.Holds s) (l) : R.Next (execDiagOverdue l s) := by
  refine next_live hr ?_
  split
  · exact hr
  · exact raise_holds (by simp [hr]) _ _

theorem execRailUndervolt_next {s : State} (hr : R.Holds s) (rail) : R.Next (execRailUndervolt rail s) := by
  refine next_next ?_
  simp [hr]

theorem execTempRead_next {s : State} (hr : R.Holds s) (readings) : R.Next (execTempRead readings s) := by
  refine next_pilotLive hr ?_
  extract_lets read
  clear_value read
  split
  · exact hr
  · extract_lets hot v warn low trip s1 s2 s3 s4
    have h1 : R.Holds s1 := hr
    have h2 : R.Holds s2 := by simp [s2, h1]
    have h3 : R.Holds s3 := by simp [s3, h2]
    have h4 : R.Holds s4 := by simp [s4, h3]
    clear_value s4
    split <;> simp [h4]

theorem execOwnerEnrol_next {s : State} (hr : R.Holds s) (publicKey sigOk readBackOk) :
    R.Next (execOwnerEnrol publicKey sigOk readBackOk s) := by
  refine next_live hr (svcTake_holds hr ?_)
  split
  · simp [hr]
  next hfree =>
    simp only [Bool.or_eq_true, not_or, Option.isSome_iff_ne_none, ne_eq, Decidable.not_not] at hfree
    obtain ⟨⟨hnone, -⟩, -⟩ := hfree
    obtain ⟨hslot0, hslot1⟩ := R.enrolled s ⟨publicKey, true, readBackOk⟩ hnone (holds_fuses hr)
    extract_lets slot fs s1
    have h1 : R.Holds s1 := by
      obtain ⟨-, hrest⟩ := hr
      unfold s1
      split
      · exact ⟨hslot1, hrest⟩
      · exact ⟨hslot0, hrest⟩
    split <;> simp [h1]

theorem execOwnerLock_next {s : State} (hr : R.Holds s) (sigOk) : R.Next (execOwnerLock sigOk s) := by
  have hlocked := R.locked s.fuses (holds_fuses hr)
  refine next_live hr (svcTake_holds hr ?_)
  simp [hr, hlocked]

theorem execContextSaveComplete_next {s : State} (hr : R.Holds s) (ring) : R.Next (execContextSaveComplete ring s) := by
  refine next_live hr ?_
  split
  · exact hr
  split
  · exact hr
  extract_lets s1 s2
  have h1 : R.Holds s1 := by
    unfold s1
    split <;> simp [hr]
  have h2 : R.Holds s2 := modDesc_keeps h1 _ fun _ _ => resumeOk_none
  simp [h2]

theorem execPilotWake_next {s : State} (hr : R.Holds s) (digestOk ticks obs) :
    R.Next (execPilotWake digestOk ticks obs s) := by
  refine next_next ?_
  simp [hr, restart_holds]

theorem execPowerOn_next {s : State} (hr : R.Holds s) (obs) : R.Next (execPowerOn obs s) := by
  refine next_next ?_
  simp [hr, freshHub_holds]

theorem execPerstDeassert_next {s : State} (hr : R.Holds s) (obs) : R.Next (execPerstDeassert obs s) := by
  refine next_next ?_
  simp [hr, restart_holds]

theorem execPwrFailDeassert_next {s : State} (hr : R.Holds s) (obs) : R.Next (execPwrFailDeassert obs s) := by
  refine next_next ?_
  simp [hr, failGone_holds]

theorem execRailRecovery_next {s : State} (hr : R.Holds s) (rail obs) : R.Next (execRailRecovery rail obs s) := by
  refine next_next ?_
  simp [hr, failGone_holds]

/-! ## The other commands that branch -/

theorem execPlanLoad_next {s : State} (hr : R.Holds s) (ring blob) : R.Next (execPlanLoad ring blob s) := by
  refine next_live hr (runHead_holds hr _ _ fun t d ht => ?_)
  split <;> simp [ht]

theorem execGoalSet_next {s : State} (hr : R.Holds s) (ring record) : R.Next (execGoalSet ring record s) := by
  refine next_live hr (runHead_holds hr _ _ fun t d ht => ?_)
  split <;> simp [ht]

theorem execSeedsLoad_next {s : State} (hr : R.Holds s) (ring buffer) : R.Next (execSeedsLoad ring buffer s) := by
  refine next_live hr (runHead_holds hr _ _ fun t d ht => ?_)
  split <;> simp [ht]

theorem execWeightsLoad_next {s : State} (hr : R.Holds s) (ring blob) : R.Next (execWeightsLoad ring blob s) := by
  refine next_live hr (runHead_holds hr _ _ fun t d ht => ?_)
  split <;> simp [ht]

theorem execWeightsReplaceWrite_next {s : State} (hr : R.Holds s) (id) : R.Next (execWeightsReplaceWrite id s) := by
  unfold execWeightsReplaceWrite
  refine next_serve hr ?_
  split <;> simp [hr]

theorem execRecipeLoad_next {s : State} (hr : R.Holds s) (ring blob) : R.Next (execRecipeLoad ring blob s) := by
  refine next_live hr (runHead_holds hr _ _ fun t d ht => ?_)
  split <;> simp [ht]

theorem execRecipeParseDone_next {s : State} (hr : R.Holds s) (ring parse) :
    R.Next (execRecipeParseDone ring parse s) := by
  unfold execRecipeParseDone
  refine next_live hr ?_
  split <;> simp [hr]

theorem execGlowUnavailable_next {s : State} (hr : R.Holds s) (ring) : R.Next (execGlowUnavailable ring s) := by
  unfold execGlowUnavailable
  refine next_live hr ?_
  split <;> simp [hr]

theorem execContextSave_next {s : State} (hr : R.Holds s) (ring) : R.Next (execContextSave ring s) := by
  unfold execContextSave
  refine next_live hr ?_
  repeat' split
  all_goals simp [hr]

theorem execContextRestore_next {s : State} (hr : R.Holds s) (ring index saved) :
    R.Next (execContextRestore ring index saved s) := by
  unfold execContextRestore
  refine next_live hr ?_
  repeat' split
  all_goals simp [hr]

theorem execRestoreVerified_next {s : State} (hr : R.Holds s) (ring index) :
    R.Next (execRestoreVerified ring index s) := by
  unfold execRestoreVerified
  refine next_live hr ?_
  split <;> simp [hr]

theorem execFence_next {s : State} (hr : R.Holds s) (ring) : R.Next (execFence ring s) := by
  unfold execFence
  refine next_live hr ?_
  repeat' split
  all_goals simp [hr]

theorem execQuery_next {s : State} (hr : R.Holds s) (ring) : R.Next (execQuery ring s) := by
  refine next_live hr (runHead_holds hr _ _ fun t d ht => ?_)
  split <;> simp [ht]

theorem execContextLoad_next {s : State} (hr : R.Holds s) (job cycle l target number) :
    R.Next (execContextLoad job cycle l target number s) := by
  refine next_serve hr (issue_holds hr _ _ _ fun t ht => ?_)
  split <;> simp [ht]

theorem execMulticast_next {s : State} (hr : R.Holds s) (job cycle mask addr src srcAddr) :
    R.Next (execMulticast job cycle mask addr src srcAddr s) := by
  refine next_serve hr (issue_holds hr _ _ _ fun t ht => ?_)
  split <;> simp [ht]

theorem execDramRead_next {s : State} (hr : R.Holds s) (x) : R.Next (execDramRead x s) := by
  refine next_serve hr (issue_holds hr _ _ _ fun t ht => ?_)
  split <;> simp [ht]

theorem execDramWrite_next {s : State} (hr : R.Holds s) (x) : R.Next (execDramWrite x s) := by
  refine next_serve hr (issue_holds hr _ _ _ fun t ht => ?_)
  split <;> simp [ht]

theorem execPlannedDelivery_next {s : State} (hr : R.Holds s) (id arrived) :
    R.Next (execPlannedDelivery id arrived s) := by
  unfold execPlannedDelivery
  refine next_serve hr ?_
  split <;> simp [hr]

theorem execMemorySleep_next {s : State} (hr : R.Holds s) (job cycle unit) :
    R.Next (execMemorySleep job cycle unit s) := by
  refine next_serve hr (issue_holds hr _ _ _ fun t ht => ?_)
  split <;> simp [ht]

theorem execMemoryWake_next {s : State} (hr : R.Holds s) (job cycle unit) :
    R.Next (execMemoryWake job cycle unit s) := by
  refine next_serve hr (issue_holds hr _ _ _ fun t ht => ?_)
  split <;> simp [ht]

theorem execBudgetGuard_next {s : State} (hr : R.Holds s) (job l) : R.Next (execBudgetGuard job l s) := by
  unfold execBudgetGuard
  refine next_serve hr ?_
  split <;> simp [hr]

theorem execEpochCheck_next {s : State} (hr : R.Holds s) (job) : R.Next (execEpochCheck job s) := by
  unfold execEpochCheck
  refine next_serve hr ?_
  split <;> simp [hr]

theorem execReflectorAttempt_next {s : State} (hr : R.Holds s) (job) : R.Next (execReflectorAttempt job s) := by
  unfold execReflectorAttempt
  refine next_serve hr ?_
  split <;> simp [hr]

theorem execStartOfFrame_next {s : State} (hr : R.Holds s) (port timeNs) : R.Next (execStartOfFrame port timeNs s) := by
  unfold execStartOfFrame
  refine next_live hr ?_
  repeat' split
  all_goals simp [hr]

theorem execFrameReceived_next {s : State} (hr : R.Holds s) (port frame) : R.Next (execFrameReceived port frame s) := by
  unfold execFrameReceived
  refine next_live hr ?_
  split <;> simp [hr]

theorem execProbeCompare_next {s : State} (hr : R.Holds s) (port) : R.Next (execProbeCompare port s) := by
  unfold execProbeCompare
  refine next_live hr ?_
  repeat' split
  all_goals simp [hr]

theorem execCamDetached_next {s : State} (hr : R.Holds s) (port kind) : R.Next (execCamDetached port kind s) := by
  unfold execCamDetached
  refine next_live hr ?_
  split <;> simp [hr]

theorem execSelftestSlice_next {s : State} (hr : R.Holds s) (l pass) : R.Next (execSelftestSlice l pass s) := by
  unfold execSelftestSlice
  refine next_live hr ?_
  split <;> simp [hr]

theorem execFaultEvent_next {s : State} (hr : R.Holds s) (cls unit words job) :
    R.Next (execFaultEvent cls unit words job s) := by
  unfold execFaultEvent
  refine next_live hr ?_
  repeat' split
  all_goals simp [hr]

theorem execFaultHandlingComplete_next {s : State} (hr : R.Holds s) : R.Next (execFaultHandlingComplete s) := by
  unfold execFaultHandlingComplete
  refine next_live hr ?_
  split <;> simp [hr]

theorem execRelight_next {s : State} (hr : R.Holds s) (obs) : R.Next (execRelight obs s) := by
  unfold execRelight
  refine next_live hr ?_
  split <;> simp [hr]

theorem execTimeSyncLost_next {s : State} (hr : R.Holds s) : R.Next (execTimeSyncLost s) := by
  unfold execTimeSyncLost
  refine next_live hr ?_
  split <;> simp [hr]

theorem execHelloReceived_next {s : State} (hr : R.Holds s) (frame tagOk) :
    R.Next (execHelloReceived frame tagOk s) := by
  unfold execHelloReceived
  refine next_live hr ?_
  split <;> simp [hr]

theorem execJointStateReceived_next {s : State} (hr : R.Holds s) (frame tagOk) :
    R.Next (execJointStateReceived frame tagOk s) := by
  unfold execJointStateReceived
  refine next_live hr ?_
  split <;> simp [hr]

theorem execDriveLost_next {s : State} (hr : R.Holds s) (node) : R.Next (execDriveLost node s) := by
  unfold execDriveLost
  refine next_live hr ?_
  simp [hr]

theorem execKlinkPacketReceived_next {s : State} (hr : R.Holds s) (port packet) :
    R.Next (execKlinkPacketReceived port packet s) := by
  unfold execKlinkPacketReceived
  refine next_live hr ?_
  repeat' split
  all_goals simp [hr]

theorem execKlinkExchangeRead_next {s : State} (hr : R.Holds s) (job) : R.Next (execKlinkExchangeRead job s) := by
  unfold execKlinkExchangeRead
  refine next_live hr ?_
  split <;> simp [hr]

theorem execKeyExchange_next {s : State} (hr : R.Holds s) (msg) : R.Next (execKeyExchange msg s) := by
  unfold execKeyExchange
  refine next_live hr ?_
  split <;> simp [hr]

theorem execDozeWake_next {s : State} (hr : R.Holds s) (cause) : R.Next (execDozeWake cause s) := by
  unfold execDozeWake
  refine next_live hr ?_
  split <;> simp [hr]

theorem execStartupHeartbeatTimeout_next {s : State} (hr : R.Holds s) (reflectorOk imageOk flashOk digest) :
    R.Next (execStartupHeartbeatTimeout reflectorOk imageOk flashOk digest s) := by
  unfold execStartupHeartbeatTimeout
  refine next_live hr ?_
  split <;> simp [hr]

theorem execDebugAccess_next {s : State} (hr : R.Holds s) (place write data) :
    R.Next (execDebugAccess place write data s) := by
  unfold execDebugAccess
  refine next_live hr ?_
  split <;> simp [hr]

/-! ## Every command and every step -/

/-- Every command keeps the rule: the arms above by their lemmas, the others through the functions that they call. -/
theorem next_exec {s : State} (hr : R.Holds s) (c : Instr) : R.Next (exec c s) := by
  cases c
  all_goals simp only [exec]
  all_goals simp [hr,
    execPlanLoad_next, execGoalSet_next, execSeedsLoad_next, execWeightsLoad_next, execWeightsReplaceWrite_next,
    execRecipeLoad_next, execRecipeParseDone_next, execGlowUnavailable_next, execContextSave_next,
    execContextSaveComplete_next, execContextRestore_next, execRestoreVerified_next, execFence_next, execQuery_next,
    execPoll_next, execContextLoad_next, execAtomicOperation_next, execRillTransfer_next, execMulticast_next,
    execCisternRead_next, execCisternWrite_next, execDramRead_next, execDramWrite_next, execPlannedDelivery_next,
    execMemorySleep_next, execMemoryWake_next, execMemoryWakeComplete_next, execBudgetGuard_next,
    execMeasurementTransfer_next, execEpochCheck_next, execReflectorAttempt_next, execReflectorVerdict_next,
    execStartOfFrame_next, execFrameReceived_next, execProbeCompare_next, execCamDetached_next,
    execSelftestSlice_next, execDiagOverdue_next, execFaultEvent_next, execFaultHandlingComplete_next,
    execRelight_next, execTimeSyncLost_next, execHelloReceived_next, execJointStateReceived_next, execDriveLost_next,
    execKlinkPacketReceived_next, execKlinkExchangeRead_next, execKeyExchange_next, execOwnerEnrol_next,
    execOwnerLock_next, execDozeWake_next, execPilotWake_next, execPowerOn_next, execStartupHeartbeatTimeout_next,
    execPerstDeassert_next, execPwrFailDeassert_next, execRailUndervolt_next, execTempRead_next,
    execRailRecovery_next, execDebugAccess_next,
    execPlanRun, execCancel, execRecordRelease, execShadowHeaderRefresh, execRingEnable, execRingDisable,
    execDeviceDetach, execDeviceReattach, execSlotBoundary, execWickInstruction, execContextSwitch,
    execDdrRefreshLimit, execD2dRetrain, execReflectorSelfCheck, execSetTimeout, execI3cInBandEvent,
    execCameraDiscovered, execCameraConfigured, execWorldStale, execDiagAdmitHold, execLockstepMismatch,
    execStopRelease, execPtpFrameReceived, execQbvCycle, execHelloTransmit, execKlPortEnable, execKlinkTrained,
    execKlinkTrainTimeout, execKlinkCertReceived, execKlinkCertTimeout, execKlinkLockLoss, execGroupMapIssue,
    execGroupMapReceived, execDeviceUnreachable, execKlinkExchangeReceived, execKlinkExchExpired,
    execGroupAbortReceived, execWorldMasterReceived, execPublishedTrajReceived, execPartnerResetReport, execSpoutSend,
    execGateLockoutEnd, execSpoutReceive, execSpoutAck, execDriverReset, execAgentReset, execAttestationReport,
    execEmberClear, execLockRead, execLockWrite, execEmberWriteComplete, execEmberFlush, execEmberFlushComplete,
    execEmberFreeze, execEmberUnfreeze, execEmberCursorWrite, execEmberFillComplete, execGlowHeartbeat,
    execGlowRestart, execGlowBusViolation, execGlowLoadMeasure, execGlowLoadWinWrite, execGlowLoadGo, execDozeEntry,
    execPilotArmWrite, execPilotEntry, execDeviceReset, execPwrFailAssert, execBasinPoolModeWrite, execPlanGridWrite,
    execSpecCtrlWrite, execMemWindowAccess, execTraceWinRead, execRcFieldRead, execPilotTimeRead, execRegisterWrite,
    execPwrGoodDeassert, execDebugAttach, execMotionPortLinkChange]

theorem next_step {s : State} (hr : R.Holds s) : R.Next (step s) := by
  unfold step
  split
  next c rest _ => exact next_exec (s := { s with pending := rest }) hr c
  · exact next_next (by simp [tickPass, hr])

/-! ## The two rules -/

/-- The memories are in canonical form, whatever the fuses hold. -/
def canonicalMemories : StandingRule where
  fuses _ := True
  canonical := True
  retired _ _ _ := trivial
  locked _ _ := trivial
  enrolled _ _ _ _ := ⟨trivial, trivial⟩

theorem canonicalMemories_iff (s : State) : canonicalMemories.Holds s ↔ MemWf s := by
  simp only [Holds, canonicalMemories, ram, LantsOk, JobsOk, DescsOk, ResumeOk, MemWf, true_and, forall_const]
  rfl

/-- The owner key that the fuses hold. -/
def fusedOwner (f : Fuses) : Option (BitVec 512) :=
  if f.owner0.commit then some f.owner0.key else if f.owner1.commit then some f.owner1.key else none

theorem fusedOwner_fuses (s : State) : fusedOwner s.fuses = ownerKey s := rfl

/-- The fuses hold the owner key `k`. -/
def ownerIs (k : BitVec 512) : StandingRule where
  fuses f := fusedOwner f = some k
  canonical := False
  retired _ _ h := h
  locked _ h := h
  enrolled s _ hnone h := by rw [fusedOwner_fuses, hnone] at h; cases h

theorem ownerIs_iff (k : BitVec 512) (s : State) : (ownerIs k).Holds s ↔ ownerKey s = some k := by
  simp [Holds, ownerIs, ram, LantsOk, JobsOk, DescsOk, ResumeOk, fusedOwner_fuses, -holds_fields]

end StandingRule

open StandingRule in
/-- Settles O56: the canonical form of the memories is a standing rule. -/
theorem stepKeepsMemWf : Obligations.StepKeepsMemWf := by
  intro s t hwf hstep
  exact (canonicalMemories_iff t).mp (next_step ((canonicalMemories_iff s).mpr hwf) t hstep)

open StandingRule in
/-- Settles O59: the only command that writes an owner's slot does so where no owner is enrolled. -/
theorem ownerKeyStays : Obligations.OwnerKeyStays := by
  intro s t k hkey hstep
  exact (ownerIs_iff k t).mp (next_step ((ownerIs_iff k s).mpr hkey) t hstep)

end Sys2Proof.Machine

/-! # What a completion keeps (O25) -/

namespace Sys2Proof.Machine

open Sys2Proof

/-- The fields that a completion does not touch. -/
theorem WeirFrame.untouched {s t : State} (h : WeirFrame s t) :
    t.jobs = s.jobs ∧ t.rings = s.rings ∧ t.host = s.host ∧ t.mem = s.mem ∧ t.world = s.world ∧ t.safety = s.safety
      ∧ t.ember = s.ember ∧ t.motion = s.motion ∧ t.klink = s.klink ∧ t.sec = s.sec ∧ t.grid = s.grid
      ∧ t.sluice.goals = s.sluice.goals ∧ t.sluice.images = s.sluice.images := by
  obtain ⟨_, _, _, _, _, _, rfl⟩ := h
  exact ⟨rfl, rfl, rfl, rfl, rfl, rfl, rfl, rfl, rfl, rfl, rfl, rfl, rfl⟩

/-- Settles O25: the result stands in the release place, the frame of a completion leaves the rest, and no descriptor is lost. -/
theorem completionKeepsResult : Obligations.CompletionKeepsResult := by
  intro s r res d hd
  obtain ⟨hjobs, hrings, hhost, hmem, hworld, hsafety, hember, hmotion, hklink, hsec, hgrid, hgoals, himages⟩ :=
    (weirFrame_complete s r res).untouched
  have hlength : (complete s r res).descs.length = s.descs.length := by
    simpa using congrArg List.length (sameReplays_complete hd res)
  have hdone := doneAs_complete hd res
  simp only [Bool.and_eq_true, beq_iff_eq] at hdone
  exact ⟨hdone, hjobs, hrings, hhost, hmem, hworld, hsafety, hember, hmotion, hklink, hsec, hgrid, hgoals, himages, hlength⟩

end Sys2Proof.Machine

/-! # The spout channels and the lock bank (O44, O46)

First what a write of one channel leaves of the others, and that no signal, event or release of locks touches a channel; then the
party resets and the lock operations. -/

namespace Sys2Proof.Machine

open Sys2Proof

/-! ## Channels -/

@[simp] theorem chanGet_chanSet_same (s : State) (ch : Chan) (c : SChan) : chanGet (chanSet s ch c) ch = c := by
  cases ch <;> simp [chanGet, chanSet, Vector.get_eq_getElem]

theorem chanGet_chanSet_of_ne (s : State) {ch x : Chan} (h : x ≠ ch) (c : SChan) :
    chanGet (chanSet s ch c) x = chanGet s x := by
  cases ch <;> cases x <;> simp only [chanGet, chanSet, Vector.get_eq_getElem]
  all_goals
    rw [Vector.getElem_set_ne]
    exact fun hval => h (by rw [Fin.ext hval])

@[simp] theorem chanSet_locks (s : State) (ch : Chan) (c : SChan) : (chanSet s ch c).spout.locks = s.spout.locks := by
  cases ch <;> rfl

/-- A signal raises an interrupt of the host or counts one of a core, or does nothing. -/
def SignalFrame (s t : State) : Prop :=
  ∃ h n g, t = { s with host := h, spout := { s.spout with signals := n, glowSignals := g } } ∧ h.busRead = s.host.busRead

theorem SignalFrame.refl (s : State) : SignalFrame s s := ⟨s.host, s.spout.signals, s.spout.glowSignals, rfl, rfl⟩

theorem signalFrame_raiseIrq (s : State) (v : Nat) : SignalFrame s (raiseIrq s v) := by
  refine ⟨s.host.irq v, s.spout.signals, s.spout.glowSignals, rfl, ?_⟩
  unfold HostIf.irq
  split <;> rfl

theorem signalFrame_driverIrq (s : State) (b : Nat) : SignalFrame s (driverIrq s b) := by
  unfold driverIrq
  split
  · exact signalFrame_raiseIrq ..
  · exact .refl s

theorem signalFrame_agentIrq (s : State) (b : Nat) : SignalFrame s (agentIrq s b) := by
  unfold agentIrq
  split
  · exact signalFrame_raiseIrq ..
  · exact .refl s

theorem signalFrame_coreSignal (s : State) : SignalFrame s (coreSignal s) := ⟨_, _, _, rfl, rfl⟩

theorem signalFrame_glowSignal (s : State) : SignalFrame s (glowSignal s) := ⟨_, _, _, rfl, rfl⟩

theorem signalFrame_coreSignal_if (s : State) (p : Prop) [Decidable p] : SignalFrame s (if p then coreSignal s else s) := by
  split
  · exact signalFrame_coreSignal s
  · exact .refl s

theorem signalFrame_signalSet (s : State) (ch : Chan) : SignalFrame s (signalSet s ch) := by
  unfold signalSet
  split
  · exact signalFrame_driverIrq s 6
  · exact signalFrame_coreSignal s
  · exact signalFrame_glowSignal s
  · exact signalFrame_agentIrq s 14
  · exact signalFrame_coreSignal_if s _

theorem signalFrame_signalClear (s : State) (ch : Chan) : SignalFrame s (signalClear s ch) := by
  unfold signalClear
  split
  · exact signalFrame_driverIrq s 7
  · exact signalFrame_coreSignal s
  · exact signalFrame_glowSignal s
  · exact signalFrame_agentIrq s 15
  · exact signalFrame_coreSignal_if s _

theorem SignalFrame.chanGet {s t : State} (h : SignalFrame s t) (x : Chan) : chanGet t x = chanGet s x := by
  obtain ⟨_, _, _, rfl, -⟩ := h
  cases x <;> rfl

theorem SignalFrame.locks {s t : State} (h : SignalFrame s t) : t.spout.locks = s.spout.locks := by
  obtain ⟨_, _, _, rfl, -⟩ := h; rfl

theorem SignalFrame.busRead {s t : State} (h : SignalFrame s t) : t.host.busRead = s.host.busRead := by
  obtain ⟨_, _, _, rfl, hbus⟩ := h; exact hbus

theorem SignalFrame.sec {s t : State} (h : SignalFrame s t) : t.sec = s.sec := by
  obtain ⟨_, _, _, rfl, -⟩ := h; rfl

theorem SignalFrame.gate {s t : State} (h : SignalFrame s t) :
    t.spout.gateKey = s.spout.gateKey ∧ t.spout.gateFail = s.spout.gateFail ∧ t.spout.lockout = s.spout.lockout := by
  obtain ⟨_, _, _, rfl, -⟩ := h; exact ⟨rfl, rfl, rfl⟩

theorem chanGet_of_spout {s t : State} (h : t.spout = s.spout) (x : Chan) : chanGet t x = chanGet s x := by
  cases x <;> simp only [chanGet, h]

theorem SignalFrame.rest {s t : State} (h : SignalFrame s t) :
    t.ember = s.ember ∧ t.fuses = s.fuses ∧ t.pwr = s.pwr ∧ t.mgmt = s.mgmt := by
  obtain ⟨_, _, _, rfl, -⟩ := h; exact ⟨rfl, rfl, rfl, rfl⟩

/-! ## Acknowledgements (R355, R364) -/

/-- A channel with an acknowledgement: it shows SEQ and CODE, and the message that it names is ended. -/
def ackedChan (c : SChan) (seq code : W16) : SChan :=
  { c with ackSeq := seq, ackCode := code, lastAck := some (c.msgEpoch, seq, code)
           unacked := if endsMessage c seq code then none else c.unacked }

theorem partDone_frame (s : State) (ch : Chan) : ∃ x, partDone s ch = { s with sec := x } ∧ (ch ≠ .s 1 → x = s.sec) := by
  unfold partDone
  split
  · split
    · exact ⟨_, rfl, fun h => absurd rfl h⟩
    · split
      · exact ⟨_, rfl, fun h => absurd rfl h⟩
      · exact ⟨s.sec, rfl, fun _ => rfl⟩
  · exact ⟨s.sec, rfl, fun _ => rfl⟩

/-- An acknowledgement writes its channel and signals the sender; on S1 it may end a part of what sconce sends. -/
theorem ackWrite_frame (s : State) (ch : Chan) (seq code : W16) :
    ∃ x, SignalFrame (chanSet { s with sec := x } ch (ackedChan (chanGet s ch) seq code)) (ackWrite s ch seq code)
      ∧ (ch ≠ .s 1 → x = s.sec) := by
  have hack : ackWrite s ch seq code
      = signalClear (chanSet (if endsMessage (chanGet s ch) seq code then partDone s ch else s) ch
          (ackedChan (chanGet s ch) seq code)) ch := rfl
  rw [hack]
  split
  · obtain ⟨x, hpart, hx⟩ := partDone_frame s ch
    exact ⟨x, hpart ▸ signalFrame_signalClear _ ch, hx⟩
  · exact ⟨s.sec, signalFrame_signalClear _ ch, fun _ => rfl⟩

@[simp] theorem chanGet_ackWrite_same (s : State) (ch : Chan) (seq code : W16) :
    chanGet (ackWrite s ch seq code) ch = ackedChan (chanGet s ch) seq code := by
  obtain ⟨x, hframe, -⟩ := ackWrite_frame s ch seq code
  rw [hframe.chanGet, chanGet_chanSet_same]

theorem ackWrite_sec (s : State) {ch : Chan} (h : ch ≠ .s 1) (seq code : W16) : (ackWrite s ch seq code).sec = s.sec := by
  obtain ⟨x, hframe, hx⟩ := ackWrite_frame s ch seq code
  rw [hframe.sec, ← hx h]
  cases ch <;> rfl

theorem ackWrite_rest (s : State) (ch : Chan) (seq code : W16) :
    (ackWrite s ch seq code).ember = s.ember ∧ (ackWrite s ch seq code).fuses = s.fuses
      ∧ (ackWrite s ch seq code).spout.gateKey = s.spout.gateKey
      ∧ (ackWrite s ch seq code).host.busRead = s.host.busRead := by
  obtain ⟨x, hframe, -⟩ := ackWrite_frame s ch seq code
  obtain ⟨hember, hfuses, -⟩ := hframe.rest
  rw [hember, hfuses, hframe.gate.1, hframe.busRead]
  cases ch <;> exact ⟨rfl, rfl, rfl, rfl⟩

/-! ## Requests of the services of S0 (R363, R364) -/

section Requests
variable {s : State} (f : State → State)

/-- A request that has been acted on is only acknowledged again. -/
theorem svcTake_of_acked {k : W16} (h : ackedAs (chanGet s (.s 0)) (svcSeq s) = some k) : svcTake s f = svcAck s k := by
  simp only [svcTake, h]

theorem svcTake_of_bad (h : ackedAs (chanGet s (.s 0)) (svcSeq s) = none)
    (hbad : badLength (chanGet s (.s 0)).buf.toList = true) : svcTake s f = svcAck s 3 := by
  simp only [svcTake, h, hbad, if_true]

theorem svcTake_of_new (h : ackedAs (chanGet s (.s 0)) (svcSeq s) = none)
    (hgood : badLength (chanGet s (.s 0)).buf.toList = false) : svcTake s f = f s := by
  simp only [svcTake, h, hgood, Bool.false_eq_true, if_false]

theorem live_svcTake_of_acked (hs : Live s) {k : W16} (h : ackedAs (chanGet s (.s 0)) (svcSeq s) = some k) :
    live s (fun s => svcTake s f) = .next (svcAck s k) := by
  rw [live_of_hub hs, svcTake_of_acked f h]

theorem live_svcTake_of_bad (hs : Live s) (h : ackedAs (chanGet s (.s 0)) (svcSeq s) = none)
    (hbad : badLength (chanGet s (.s 0)).buf.toList = true) : live s (fun s => svcTake s f) = .next (svcAck s 3) := by
  rw [live_of_hub hs, svcTake_of_bad f h hbad]

theorem live_svcTake_of_new (hs : Live s) (h : ackedAs (chanGet s (.s 0)) (svcSeq s) = none)
    (hgood : badLength (chanGet s (.s 0)).buf.toList = false) : live s (fun s => svcTake s f) = .next (f s) := by
  rw [live_of_hub hs, svcTake_of_new f h hgood]

end Requests

/-! ## Resets of a channel's ends (R360 to R362) -/

theorem chanGet_chanRecvReset (s : State) (ch x : Chan) :
    chanGet (chanRecvReset s ch) x = chanGet (chanSet s ch (recvReset (chanGet s ch))) x := by
  unfold chanRecvReset
  dsimp only
  split
  · exact (signalFrame_signalClear _ ch).chanGet x
  · rfl

theorem chanRecvReset_locks (s : State) (ch : Chan) : (chanRecvReset s ch).spout.locks = s.spout.locks := by
  unfold chanRecvReset
  dsimp only
  split
  · exact (signalFrame_signalClear _ ch).locks.trans (chanSet_locks s ch _)
  · exact chanSet_locks s ch _

@[simp] theorem chanGet_chanRecvReset_same (s : State) (ch : Chan) :
    chanGet (chanRecvReset s ch) ch = recvReset (chanGet s ch) := by
  rw [chanGet_chanRecvReset, chanGet_chanSet_same]

theorem chanGet_chanRecvReset_of_ne (s : State) {ch x : Chan} (h : x ≠ ch) :
    chanGet (chanRecvReset s ch) x = chanGet s x := by
  rw [chanGet_chanRecvReset, chanGet_chanSet_of_ne s h]

@[simp] theorem chanGet_chanSendReset_same (s : State) (ch : Chan) :
    chanGet (chanSendReset s ch) ch = sendReset (chanGet s ch) :=
  chanGet_chanSet_same s ch _

theorem chanGet_chanSendReset_of_ne (s : State) {ch x : Chan} (h : x ≠ ch) :
    chanGet (chanSendReset s ch) x = chanGet s x :=
  chanGet_chanSet_of_ne s h _

/-- Settles O44: the sender's reset and then the reset of both ends, read off the channel's new registers. -/
theorem channelResets : Obligations.ChannelResets := by
  constructor
  · intro s ch c d
    have hd : d = sendReset c := chanGet_chanSendReset_same s ch
    have hnext : c.epoch ≠ c.epoch + 1 := by bv_omega
    rw [hd]
    refine ⟨rfl, rfl, rfl, rfl, rfl, rfl, fun hfull => ⟨?_, rfl, fun hsame => ?_⟩, fun hempty => ?_⟩
    · simp [sendReset, hfull]
    · exact hsame ▸ hnext
    · simp [sendReset, hempty]
  · intro s ch c d
    have hd : d = { sendReset (recvReset c) with dropped := c.full } := by simp [d, c, chanBothReset]
    rw [hd]
    exact ⟨rfl, rfl, rfl, rfl, rfl, rfl, rfl⟩

/-! ## Locks (R368 to R371) -/

theorem pack_eq_zero {l : List (Nat × Nat)} (h : pack l = 0) : ∀ x ∈ l, x.2 = 0 := by
  induction l with
  | nil => exact fun _ hx => absurd hx List.not_mem_nil
  | cons a t ih =>
    obtain ⟨ha, ht⟩ : a.2 * 2 ^ a.1 = 0 ∧ pack t = 0 := Nat.add_eq_zero_iff.mp h
    have ha2 : a.2 = 0 := (Nat.mul_eq_zero.mp ha).resolve_right (by simp)
    exact List.forall_mem_cons.mpr ⟨ha2, ih ht⟩

/-- A mask with no bit set names no lock. -/
theorem any_of_lockMask_zero {s : State} {held : Fin 11 → Bool} (h : lockMask s held = 0) (n : Fin 64) :
    (s.spout.locks.get n).any held = false := by
  have hbit := pack_eq_zero h _ (List.mem_map_of_mem (List.mem_finRange n))
  simpa [b2n] using hbit

/-- A release frees the locks that its party holds, and leaves the channels. -/
theorem releaseLocks_spec (s : State) (req : Fin 11) :
    (∀ x, chanGet (releaseLocks s req) x = chanGet s x)
      ∧ ∀ n, (releaseLocks s req).spout.locks.get n = if s.spout.locks.get n = some req then none else s.spout.locks.get n := by
  unfold releaseLocks
  dsimp only
  split
  next hnone =>
    refine ⟨fun _ => rfl, fun n => ?_⟩
    have hfree := any_of_lockMask_zero hnone n
    split
    next hheld => simp [hheld] at hfree
    next => rfl
  next =>
    refine ⟨fun x => ?_, fun n => ?_⟩
    · rw [chanGet_of_spout (raise_spout ..)]
      cases x <;> rfl
    · have hget : (dropLocks s (· == req)).spout.locks.get n
          = if (s.spout.locks.get n).any (· == req) then none else s.spout.locks.get n := by
        simp [dropLocks, Vector.get_eq_getElem]
      rw [raise_spout, hget]
      cases s.spout.locks.get n <;> simp

/-! ## The parties (R359) -/

/-- The channel that the party receives on is emptied, the end that it sends from is reset, and its locks are free. -/
def AfterPartyReset (s t : State) (rx tx : Chan) (req : Fin 11) : Prop :=
  chanGet t rx = recvReset (chanGet s rx) ∧ chanGet t tx = sendReset (chanGet s tx)
    ∧ (∀ x, x ≠ rx → x ≠ tx → chanGet t x = chanGet s x)
    ∧ ∀ n, t.spout.locks.get n = if s.spout.locks.get n = some req then none else s.spout.locks.get n

theorem afterPartyReset (s : State) {rx tx : Chan} (hne : tx ≠ rx) (req : Fin 11) :
    AfterPartyReset s (releaseLocks (chanSendReset (chanRecvReset s rx) tx) req) rx tx req := by
  obtain ⟨hchans, hlocks⟩ := releaseLocks_spec (chanSendReset (chanRecvReset s rx) tx) req
  refine ⟨?_, ?_, fun x hrx htx => ?_, fun n => ?_⟩
  · rw [hchans, chanGet_chanSendReset_of_ne _ hne.symm, chanGet_chanRecvReset_same]
  · rw [hchans, chanGet_chanSendReset_same, chanGet_chanRecvReset_of_ne _ hne]
  · rw [hchans, chanGet_chanSendReset_of_ne _ htx, chanGet_chanRecvReset_of_ne _ hrx]
  · have hkept : (chanSendReset (chanRecvReset s rx) tx).spout.locks = s.spout.locks :=
      (chanSet_locks _ tx _).trans (chanRecvReset_locks s rx)
    rw [hlocks, hkept]

theorem afterPartyReset_hostDriver (s : State) : AfterPartyReset s (hostDriverReset s) (.n 1) (.n 0) 0 :=
  afterPartyReset s (by decide) 0

theorem afterPartyReset_hostAgent (s : State) : AfterPartyReset s (hostAgentReset s) (.s 1) (.s 0) 1 :=
  afterPartyReset s (by decide) 1

/-- The two channels of a partner differ. -/
theorem partnerRx_ne_partnerTx (p : Fin 7) : partnerRx p ≠ partnerTx p := by
  simp only [partnerRx, partnerTx, ne_eq, Chan.s.injEq, Fin.ext_iff, Fin.ofNat]
  omega

theorem viaBus_of_hub {s : State} {host : Bool} (hs : Live s) (h : host = true → s.pwr.perstN = true) (f : State → State) :
    viaBus host s f = .next (f s) := by
  cases host with
  | true => exact busLive_of_onLink ⟨hs, h rfl⟩ f
  | false => exact live_of_hub hs f

theorem afterPartyReset_partner (s : State) (p : Fin 7) :
    AfterPartyReset s (partnerReset s p) (partnerTx p) (partnerRx p) ⟨4 + p.val, by omega⟩ := by
  have hreq : Fin.ofNat 11 (4 + p.val) = ⟨4 + p.val, by omega⟩ := Fin.ext (Nat.mod_eq_of_lt (by omega))
  exact hreq ▸ afterPartyReset s (partnerRx_ne_partnerTx p) (Fin.ofNat 11 (4 + p.val))

/-- Settles O46: every party's reset by `afterPartyReset`, and the lock's read and write by the cases of R369 and R370. -/
theorem partyResetsAndLocks : Obligations.PartyResetsAndLocks := by
  constructor
  · intro s p hs after
    refine ⟨fun hlink => ?driver, fun hlink => ?agent, ?partner⟩
    case driver =>
      exact ⟨hostDriverReset s, busLive_of_onLink ⟨hs, hlink⟩ hostDriverReset, afterPartyReset_hostDriver s⟩
    case agent =>
      exact ⟨hostAgentReset s, busLive_of_onLink ⟨hs, hlink⟩ hostAgentReset, afterPartyReset_hostAgent s⟩
    case partner =>
      exact ⟨partnerReset s p, live_of_hub hs fun s => partnerReset s p, afterPartyReset_partner s p⟩
  · intro s r n v hs hhost read
    have hread : exec (.lockRead r n) s = .next (setBus (lockRead s r n).1 (lockRead s r n).2) :=
      viaBus_of_hub hs (fun h => hhost (of_decide_eq_true h)) fun s => setBus (lockRead s r n).1 (lockRead s r n).2
    have hwrite (v : W32) : exec (.lockWrite r n v) s = .next (lockWrite s r n v) :=
      viaBus_of_hub hs (fun h => hhost (of_decide_eq_true h)) fun s => lockWrite s r n v
    refine ⟨fun hfree => ?_, fun o ho => ?_, fun hown => ?_, fun hother => ?_⟩
    · simp only [hread, lockRead, hfree]
      rfl
    · simp only [hread, lockRead, ho]
      rfl
    · rw [hwrite, lockWrite, if_pos ⟨hown, rfl⟩]
    · have hnot : ¬ (s.spout.locks.get n = some r ∧ v = 0) := by
        rintro ⟨hown, rfl⟩
        exact hother.elim (· hown) (· rfl)
      rw [hwrite, lockWrite, if_neg hnot]

end Sys2Proof.Machine

/-! # The ember event log (O48, O49)

A write either raises the count of the last record or places a new one: `emberWrite_of_repeat` and `emberWrite_of_new`. The
commands of the log are these two and the flush. -/

namespace Sys2Proof.Machine

open Sys2Proof

/-! ## What a write does (R447, R449, R450) -/

/-- The pending event repeats the last record. -/
def Repeats (e : Ember) (p : PendSlot) (r : EmberRec) : Prop :=
  e.last = some r ∧ r.cls = p.cls ∧ r.words = p.words ∧ neverRepeats p.cls = false

/-- The last record with the pending event counted. -/
def countedRecord (r : EmberRec) (p : PendSlot) : EmberRec :=
  let n := r.repeat_ + p.count
  { r with repeat_ := min n 65535, sat := r.sat || p.sat || 65535 < n, folded := r.folded || p.folded }

theorem emberWrite_of_repeat {e : Ember} {p : PendSlot} {r : EmberRec} (h : Repeats e p r) :
    emberWrite e p = { emberPlace e (countedRecord r p) with writing := true } := by
  obtain ⟨hlast, hcls, hwords, hnever⟩ := h
  simp [emberWrite, hlast, hcls, hwords, hnever, countedRecord]

/-- The new record of a pending event. -/
def newRecord (e : Ember) (p : PendSlot) : EmberRec :=
  { seq := e.next, time := BitVec.ofNat 48 p.first, cls := p.cls, sat := p.sat, folded := p.folded, damaged := false
    spec := p.spec, repeat_ := p.count, words := p.words, defined := p.defined }

/-- The log once the page before a new record is written, where one is due. -/
def pageReady (e : Ember) : Ember := if e.next.toNat % 64 = 0 then pageWrite e e.next else e

/-- The log once the sector of a new record is erased, where it enters one. -/
def sectorReady (e : Ember) : Ember := if e.next.toNat % 1024 = 0 then emberErase (pageReady e) e.next else pageReady e

/-- The log before a new record is placed; a clear's record begins a new head area. -/
def recordReady (e : Ember) (p : PendSlot) : Ember :=
  let e3 := if p.cls == .emberCleared then emberClearAt (sectorReady e) e.next else sectorReady e
  { e3 with next := e.next + 1, reserve := if e.next + 1 = e3.reserve - 16384 then e3.reserve + 65536 else e3.reserve }

theorem emberWrite_of_new {e : Ember} {p : PendSlot} (h : ∀ r, ¬ Repeats e p r) :
    emberWrite e p = { emberPlace (recordReady e p) (newRecord e p) with writing := true } := by
  cases hlast : e.last with
  | none =>
    simp only [emberWrite, hlast]
    rfl
  | some r =>
    have hrep : (r.cls == p.cls && r.words == p.words && !neverRepeats p.cls) = false := by
      by_contra hne
      simp only [Bool.not_eq_false, Bool.and_eq_true, beq_iff_eq, Bool.not_eq_true'] at hne
      exact h r ⟨hlast, hne.1.1, hne.1.2, hne.2⟩
    simp only [emberWrite, hlast, hrep]
    rfl

/-- A class that never repeats always takes a new record (R447). -/
theorem not_repeats_of_never {e : Ember} {p : PendSlot} (h : neverRepeats p.cls = true) (r : EmberRec) : ¬ Repeats e p r :=
  fun ⟨_, _, _, hnever⟩ => Bool.noConfusion (hnever.symm.trans h)

/-! ## What readying a record writes -/

theorem pageWrite_frame (e : Ember) (upto : W32) : ∃ flash flashed copy pages failed fault, pageWrite e upto =
    { e with flash := flash, flashed := flashed, headCopy := copy, pages := pages, pageFail := failed, flashFail := fault } := by
  unfold pageWrite
  split
  · exact ⟨_, _, _, _, _, _, rfl⟩
  · split <;> exact ⟨_, _, _, _, _, _, rfl⟩

/-- The control area, the flash and the head area may change; the tail and the pending slots stay. -/
theorem recordReady_frame (e : Ember) (p : PendSlot) :
    ∃ flash flashed copy pages failed fault clear head flushing to_ reserve, recordReady e p =
      { e with flash := flash, flashed := flashed, headCopy := copy, pages := pages, pageFail := failed, flashFail := fault
               clear := clear, head := head, flushing := flushing, flushTo := to_, reserve := reserve, next := e.next + 1 } := by
  obtain ⟨_, _, _, _, _, _, hpage⟩ := pageWrite_frame e e.next
  simp only [recordReady, sectorReady, pageReady, hpage, emberErase, emberClearAt]
  repeat' split
  all_goals exact ⟨_, _, _, _, _, _, _, _, _, _, _, rfl⟩

@[simp] theorem recordReady_next (e : Ember) (p : PendSlot) : (recordReady e p).next = e.next + 1 := rfl

@[simp] theorem recordReady_tail (e : Ember) (p : PendSlot) : (recordReady e p).tail = e.tail := by
  obtain ⟨_, _, _, _, _, _, _, _, _, _, _, h⟩ := recordReady_frame e p
  rw [h]

/-! ## Events (O48) -/

/-- The pending slot of an event that is logged. -/
def eventSlot (s : State) (cls : EventClass) (words : List W32) (spec : Bool) : PendSlot :=
  ⟨cls, 1, false, false, snapshot s cls words, min words.length 12, s.pwr.ticks, spec⟩

theorem emberEvent_of_recording {s : State} (honline : s.ember.online = true) (hfrozen : s.ember.frozen = false)
    (cls : EventClass) (words : List W32) (spec : Bool) :
    emberEvent s cls words spec = { s with ember := emberLog s.ember (eventSlot s cls words spec) } := by
  simp [emberEvent, honline, hfrozen, eventSlot]

theorem emberLog_of_idle {e : Ember} (h : e.writing = false) (p : PendSlot) : emberLog e p = emberWrite e p := by
  simp [emberLog, h]

theorem neverRepeats_eq_true {cls : EventClass} : neverRepeats cls = true ↔ cls = .emberCleared ∨ cls = .frozenDrops := by
  cases cls <;> simp [neverRepeats]

/-- Settles O48: the two cases of a write, for an event that finds none in progress. -/
theorem eventsAreRecorded : Obligations.EventsAreRecorded := by
  intro s cls words spec honline hfrozen hidle snap t
  have ht : t.ember = emberWrite s.ember (eventSlot s cls words spec) := by
    simp only [t, emberEvent_of_recording honline hfrozen, emberLog_of_idle hidle]
  refine ⟨fun hnew => ?_, fun r hlast hcls hwords hne hnf hcount => ?_⟩
  · have hfresh : ∀ r, ¬ Repeats s.ember (eventSlot s cls words spec) r := by
      rcases hnew with hcls | hcls | hother
      · exact not_repeats_of_never (neverRepeats_eq_true.mpr (.inl hcls))
      · exact not_repeats_of_never (neverRepeats_eq_true.mpr (.inr hcls))
      · exact fun r ⟨hlast, hcls, hwords, _⟩ => hother r hlast ⟨hcls, hwords⟩
    rw [ht, emberWrite_of_new hfresh]
    refine ⟨rfl, rfl, ?_⟩
    exact (SMap.find_put _ _ _ _).trans (if_pos rfl)
  · have hrepeat : Repeats s.ember (eventSlot s cls words spec) r :=
      ⟨hlast, hcls, hwords, Bool.eq_false_iff.mpr (mt neverRepeats_eq_true.mp (not_or.mpr ⟨hne, hnf⟩))⟩
    have hmin : min (r.repeat_ + 1) 65535 = r.repeat_ + 1 := by omega
    rw [ht, emberWrite_of_repeat hrepeat]
    exact ⟨rfl, congrArg some hmin, rfl⟩

/-! ## Writes (R448, R452) -/

theorem nextWrite_of_none {e : Ember} (h : e.pend = []) : nextWrite e = { e with writing := false } := by
  cases hfrozen : e.frozen <;> simp [nextWrite, h, earliest, hfrozen]

theorem nextWrite_of_one {e : Ember} {p : PendSlot} (hfrozen : e.frozen = false) (h : e.pend = [p]) :
    nextWrite e = emberWrite { e with writing := false, pend := [] } p := by
  simp [nextWrite, h, earliest, hfrozen]

theorem exec_emberWriteComplete {s : State} (hgood : s.pwr.pwrGood = true) :
    exec .emberWriteComplete s = .next (flashFault { s with ember := nextWrite s.ember }) :=
  pilotLive_of_good hgood fun s => flashFault { s with ember := nextWrite s.ember }

/-! ## Flushes (R452, R458) -/

theorem clearDone_of_none {e : Ember} (h : e.clearing = none) : clearDone e = none := by
  simp [clearDone, h]

theorem clearDone_of_some {e : Ember} {q : W16} (h : e.clearing = some q) (hpend : ∀ x ∈ e.pend, x.cls ≠ .emberCleared) :
    clearDone e = some q := by
  simpa [clearDone, h] using hpend

/-- The log as a flush ends, but for the clear that may wait for it. -/
def flushedLog (e : Ember) (clearing : Option W16) : Ember :=
  { emberToFlash e e.flushTo with headCopy := (emberToFlash e e.flushTo).head, flushing := false, clearing := clearing }

theorem flushEnd_of_none {s : State} (h : s.ember.clearing = none) :
    flushEnd s = busyNow { s with ember := flushedLog s.ember none } := by
  simp only [flushEnd, clearDone_of_none h]
  exact congrArg (fun c => busyNow { s with ember := flushedLog s.ember c }) h

theorem flushEnd_of_clear {s : State} {q : W16} (h : clearDone s.ember = some q) :
    flushEnd s = ackWrite (busyNow { s with ember := flushedLog s.ember none }) (.s 0) q 0 := by
  simp only [flushEnd, h]
  rfl

theorem exec_emberFlushComplete {s : State} (hgood : s.pwr.pwrGood = true) (hflush : s.ember.flushing = true) (ok : Bool) :
    exec (.emberFlushComplete ok) s = .next (if ok then flushEnd s else flushFailed s) := by
  have hexec : exec (.emberFlushComplete ok) s
      = pilotLive s fun s => if !s.ember.flushing then s else if ok then flushEnd s else flushFailed s := rfl
  rw [hexec, pilotLive_of_good hgood]
  simp [hflush]

/-! ## Freezes (R456) -/

/-- No ring is served in service. -/
def NoRingServed (s : State) : Prop := s.safety.state ≠ .service ∨ ∀ r, (ringGet s r).state ≠ .running

theorem noRingServed_iff (s : State) : NoRingServed s ↔
    (s.safety.state != .service || s.rings.ring.toList.all fun g => g.state != .running) = true := by
  simp [NoRingServed, ringGet, Vector.get_eq_getElem, Fin.forall_iff]

theorem freezeOn_of_idle {s : State} (h : NoRingServed s) (hfrozen : s.ember.frozen = false) :
    freezeOn s = { s with ember := { s.ember with
      frozen := true, frozenAt := s.pwr.ticks, frozenN := 0, frozenS2 := 0, frozenS3 := 0 } } := by
  simp only [freezeOn, (noRingServed_iff s).mp h, if_true, hfrozen, Bool.false_eq_true, if_false]

theorem freezeOn_of_served {s : State} (h : ¬ NoRingServed s) : freezeOn s = raise s .emberFreezeRefused [] :=
  if_neg fun hall => h ((noRingServed_iff s).mpr hall)

/-- The counts of a freeze, as its record carries them. -/
def frozenWords (s : State) : List W32 :=
  [BitVec.ofNat 32 s.ember.frozenN, BitVec.ofNat 32 s.ember.frozenS2, BitVec.ofNat 32 s.ember.frozenS3,
    BitVec.ofNat 32 (s.pwr.ticks - s.ember.frozenAt)]

/-- The record of a freeze's end, where no write is in progress. -/
theorem emberThaw_spec {s : State} (hidle : s.ember.writing = false) :
    (emberThaw s).ember.frozen = false ∧ (emberThaw s).ember.next = s.ember.next + 1
      ∧ (emberThaw s).ember.last.map (·.cls) = some .frozenDrops
      ∧ (emberThaw s).ember.last.map (·.words) = some (snapshot s .frozenDrops (frozenWords s)) := by
  have hthaw : (emberThaw s).ember = emberWrite { s.ember with frozen := false, frozenN := 0, frozenS2 := 0, frozenS3 := 0 }
      ⟨.frozenDrops, 1, false, false, snapshot s .frozenDrops (frozenWords s), 4, s.pwr.ticks, false⟩ :=
    emberLog_of_idle (e := { s.ember with frozen := false, frozenN := 0, frozenS2 := 0, frozenS3 := 0 }) hidle _
  rw [hthaw, emberWrite_of_new (not_repeats_of_never rfl)]
  obtain ⟨_, _, _, _, _, _, _, _, _, _, _, hready⟩ := recordReady_frame
    { s.ember with frozen := false, frozenN := 0, frozenS2 := 0, frozenS3 := 0 }
    ⟨.frozenDrops, 1, false, false, snapshot s .frozenDrops (frozenWords s), 4, s.pwr.ticks, false⟩
  rw [hready]
  exact ⟨rfl, rfl, rfl, rfl⟩

/-- The freeze's end is due. -/
def thawDue (s : State) : UnfreezeCause → Bool
  | .write => pcieUp s
  | .timeout => decide (s.ember.frozenAt + 100 * ticksPerMs ≤ s.pwr.ticks)

theorem exec_emberUnfreeze {s : State} (hgood : s.pwr.pwrGood = true) (c : UnfreezeCause) :
    exec (.emberUnfreeze c) s = .next (if s.ember.frozen && thawDue s c then emberThaw s else s) := by
  have hexec : exec (.emberUnfreeze c) s
      = pilotLive s fun s => if s.ember.frozen && thawDue s c then emberThaw s else s := by cases c <;> rfl
  rw [hexec, pilotLive_of_good hgood]

/-! ## Clears (R457, R458) -/

/-- Every record of the tail and of flash is at or above a SEQ. -/
def KeepsFrom (q : W32) (e : Ember) : Prop :=
  (∀ r ∈ e.tail, serialLt r.2.seq q = false) ∧ ∀ r ∈ e.flash, serialLt r.2.seq q = false

theorem keepsFrom_removeBelow (e : Ember) (q : W32) : KeepsFrom q (removeBelow e q) := by
  constructor <;> intro r hr <;> simpa using (List.mem_filter.mp hr).2

/-- What a fold of records into the flash adds is of those records. -/
theorem flash_puts_keep {q : W32} {m : SMap EmberRec} (hm : ∀ r ∈ m, serialLt r.2.seq q = false) {l : List EmberRec}
    (hl : ∀ r ∈ l, serialLt r.seq q = false) :
    ∀ x ∈ l.foldl (fun (f : SMap EmberRec) x => f.put (x.seq.toNat % 65536) x) m, serialLt x.2.seq q = false := by
  refine List.foldlRecOn (motive := fun f : SMap EmberRec => ∀ x ∈ f, serialLt x.2.seq q = false) l _ hm ?_
  intro f hf r hr x hx
  rcases SMap.mem_put f _ r x hx with rfl | hold
  · exact hl r hr
  · exact hf x hold

theorem KeepsFrom.emberToFlash {q : W32} {e : Ember} (h : KeepsFrom q e) (upto : W32) : KeepsFrom q (emberToFlash e upto) := by
  obtain ⟨htail, hflash⟩ := h
  refine ⟨htail, flash_puts_keep hflash fun r hr => ?_⟩
  obtain ⟨x, hx, rfl⟩ := List.mem_map.mp hr
  exact htail x (List.mem_of_mem_filter hx)

theorem KeepsFrom.pageWrite {q : W32} {e : Ember} (h : KeepsFrom q e) (upto : W32) : KeepsFrom q (pageWrite e upto) := by
  unfold Machine.pageWrite
  split
  · exact h
  · split
    · exact h
    · exact h.emberToFlash upto

theorem mem_flash_sectorReady {e : Ember} {r : Nat × EmberRec} (h : r ∈ (sectorReady e).flash) : r ∈ (pageReady e).flash := by
  unfold sectorReady at h
  split at h
  · exact List.mem_of_mem_filter h
  · exact h

theorem recordReady_flash (e : Ember) (p : PendSlot) : (recordReady e p).flash = (sectorReady e).flash := by
  unfold recordReady
  dsimp only
  split <;> rfl

theorem KeepsFrom.pageReady {q : W32} {e : Ember} (h : KeepsFrom q e) : KeepsFrom q (pageReady e) := by
  unfold Machine.pageReady
  split
  · exact h.pageWrite e.next
  · exact h

theorem KeepsFrom.recordReady {q : W32} {e : Ember} (h : KeepsFrom q e) (p : PendSlot) : KeepsFrom q (recordReady e p) :=
  ⟨by rw [recordReady_tail]; exact h.1,
    fun r hr => h.pageReady.2 r (mem_flash_sectorReady (recordReady_flash e p ▸ hr))⟩

/-- Where the new record is at or above the SEQ too, so is every record once it is placed. -/
theorem KeepsFrom.emberPlace {q : W32} {e : Ember} (h : KeepsFrom q e) {r : EmberRec} (hr : serialLt r.seq q = false) :
    KeepsFrom q (emberPlace e r) := by
  obtain ⟨htail, hflash⟩ := h
  constructor
  · intro x hx
    rcases SMap.mem_put _ _ _ x hx with rfl | hold
    · exact hr
    · exact htail x hold
  · intro x hx
    unfold Machine.emberPlace at hx
    dsimp only at hx
    split at hx
    · rcases SMap.mem_put _ _ _ x hx with rfl | hold
      · exact hr
      · exact hflash x hold
    · exact hflash x hx

/-- The pending slot of a clear's record. -/
def clearSlot (s : State) (q : W32) (signed : Bool) : PendSlot :=
  ⟨.emberCleared, 1, false, false, snapshot s .emberCleared
    [q, s.ember.clear, BitVec.ofNat 32 (b2n signed), BitVec.ofNat 32 (groupSize s)], 4, s.pwr.ticks, false⟩

/-- An accepted clear: the records below its SEQ are removed, its own is logged, and the message waits for the flush. -/
def clearAccepted (s : State) (q : W32) (signed : Bool) : Ember :=
  { emberLog (removeBelow s.ember q) (clearSlot s q signed) with clearing := some (svcSeq s) }

/-- The clear's record where no write is in progress: it becomes C and head position 0, and is flushed. -/
theorem clearAccepted_of_idle {s : State} (hidle : s.ember.writing = false) {q : W32}
    (hnext : serialLt s.ember.next q = false) (signed : Bool) :
    let e := clearAccepted s q signed
    KeepsFrom q e ∧ e.clear = s.ember.next ∧ e.next = s.ember.next + 1 ∧ e.flushing = true
      ∧ (e.head.find 0).map (·.cls) = some .emberCleared ∧ (e.head.find 0).map (·.seq) = some s.ember.next := by
  intro e
  let p := clearSlot s q signed
  have hlog : emberLog (removeBelow s.ember q) p
      = { emberPlace (recordReady (removeBelow s.ember q) p) (newRecord (removeBelow s.ember q) p) with writing := true } :=
    (emberLog_of_idle (e := removeBelow s.ember q) hidle p).trans (emberWrite_of_new (not_repeats_of_never rfl))
  obtain ⟨htail, hflash⟩ : KeepsFrom q (emberPlace (recordReady (removeBelow s.ember q) p) (newRecord (removeBelow s.ember q) p)) :=
    ((keepsFrom_removeBelow s.ember q).recordReady p).emberPlace hnext
  have he : e = { emberPlace (recordReady (removeBelow s.ember q) p) (newRecord (removeBelow s.ember q) p)
      with writing := true, clearing := some (svcSeq s) } := congrArg (fun x => { x with clearing := some (svcSeq s) }) hlog
  have hpos : headPos (recordReady (removeBelow s.ember q) p) (newRecord (removeBelow s.ember q) p) = 0 := by
    simp [headPos, recordReady, newRecord, p, clearSlot, emberClearAt]
  have hhead : e.head.find 0 = some (newRecord (removeBelow s.ember q) p) := by
    rw [he]
    simp [emberPlace, hpos, SMap.find_put]
  rw [hhead, he]
  exact ⟨⟨htail, hflash⟩, rfl, rfl, rfl, rfl, rfl⟩

theorem emberPend_has (l : List PendSlot) (p : PendSlot) : ∃ x ∈ emberPend l p, x.cls = p.cls := by
  unfold emberPend
  split
  next hsame =>
    obtain ⟨q, hq, hcls⟩ := List.any_eq_true.mp hsame
    exact ⟨_, List.mem_map_of_mem hq, by simp only [if_pos hcls]; exact beq_iff_eq.mp hcls⟩
  next => exact ⟨p, List.mem_append_right l (List.mem_singleton_self p), rfl⟩

/-- The clear's record waits for the write in progress. -/
theorem clearAccepted_of_writing {s : State} (hwriting : s.ember.writing = true) (q : W32) (signed : Bool) :
    KeepsFrom q (clearAccepted s q signed) ∧ ∃ x ∈ (clearAccepted s q signed).pend, x.cls = .emberCleared := by
  have hlog : emberLog (removeBelow s.ember q) (clearSlot s q signed)
      = { removeBelow s.ember q with pend := emberPend s.ember.pend (clearSlot s q signed) } := if_pos hwriting
  rw [clearAccepted, hlog]
  exact ⟨keepsFrom_removeBelow s.ember q, emberPend_has s.ember.pend (clearSlot s q signed)⟩

/-- A clear is refused: not the owner's session, a SEQ that is not to be cleared, or no signature where one is needed. -/
def clearRefused (s : State) (q : W32) (signed ok : Bool) : Bool :=
  s.sec.session != .owned || serialLt s.ember.next q || !serialLt s.ember.clear q
    || (3 ≤ groupSize s && !(signed && ok)) || (signed && !ok)

theorem clearRefused_iff (s : State) (q : W32) (signed ok : Bool) : clearRefused s q signed ok = true ↔
    s.sec.session ≠ .owned ∨ serialLt s.ember.next q = true ∨ serialLt s.ember.clear q = false
      ∨ ¬ ((signed = true → ok = true) ∧ (3 ≤ groupSize s → signed = true)) := by
  cases signed <;> cases ok <;> simp [clearRefused, or_assoc]

/-- The log takes no clear now: it is frozen, a flush runs, or an earlier clear waits for one. -/
def clearBusy (s : State) : Bool := s.ember.frozen || s.ember.flushing || s.ember.clearing.isSome

theorem clearBusy_iff (s : State) : clearBusy s = true ↔
    ¬ (s.ember.frozen = false ∧ s.ember.flushing = false ∧ s.ember.clearing = none) := by
  simp [clearBusy, not_and_or, or_assoc, Option.isSome_iff_ne_none, -not_and]

/-- What a request to clear the log does once it is taken. -/
theorem exec_emberClear {s : State} (hs : Live s) (hnew : ackedAs (chanGet s (.s 0)) (svcSeq s) = none)
    (hgood : badLength (chanGet s (.s 0)).buf.toList = false) (q : W32) (signed ok : Bool) :
    exec (.emberClear q signed ok) s = .next (
      if clearRefused s q signed ok then svcAck s 6
      else if clearBusy s then svcAck s 1
      else { s with ember := clearAccepted s q signed }) := by
  have hexec : exec (.emberClear q signed ok) s = live s fun s => svcTake s fun s =>
      if clearRefused s q signed ok then svcAck s 6
      else if clearBusy s then svcAck s 1
      else { s with ember := clearAccepted s q signed } := rfl
  rw [hexec, live_of_hub hs, svcTake_of_new _ hnew hgood]

/-! ## The commands -/

theorem exec_emberFillComplete {s : State} (hs : Live s) : exec .emberFillComplete s = .next (
    if s.ember.winReady then s else { s with ember := { s.ember with winReady := true, window := flashWindow s.ember } }) :=
  live_of_hub hs fun s => if s.ember.winReady then s
    else { s with ember := { s.ember with winReady := true, window := flashWindow s.ember } }

theorem cursorWrite_eq (s : State) (v : W32) : cursorWrite s v = { s with ember := { s.ember with
    index := BitVec.ofNat 16 v.toNat, area := BitVec.ofNat 2 (v.toNat / 65536), winReady := v.toNat / 65536 % 4 != 2 } } := by
  have harea : BitVec.ofNat 2 (bits v.toNat 17 16) = BitVec.ofNat 2 (v.toNat / 65536) := by
    apply BitVec.eq_of_toNat_eq
    simp [bits]
  have hready : (BitVec.ofNat 2 (v.toNat / 65536) != 2#2) = (v.toNat / 65536 % 4 != 2) := by
    rw [Bool.eq_iff_iff]
    simp [← BitVec.toNat_inj]
  simp only [cursorWrite, harea]
  rw [← hready]
  rfl

/-- Settles O49: each command by its equation above, a clear by the cases of R457 and R458. -/
theorem emberCommands : Obligations.EmberCommands := by
  constructor
  · intro s v p hs hgood e logged
    refine ⟨fun hnone => ?write, fun hfrozen hone => ?writeNext, fun honline => ?flush, fun hflush hclear => ?flushEnd,
      fun q hflush hclear hpend => ?flushClear, fun hflush => ?flushFail, fun hlink => ⟨fun hfrozen hidle => ?freeze,
      fun hservice hserved => ?freezeRefused, ?cursor⟩, fun hearly => ?early, fun c hfrozen hidle hdue => ?thaw,
      fun hfill => ?fill, fun hready => ?filled⟩
    case write => rw [exec_emberWriteComplete hgood, nextWrite_of_none hnone]; rfl
    case writeNext => rw [exec_emberWriteComplete hgood, nextWrite_of_one hfrozen hone]; rfl
    case flush =>
      have hstart : emberFlushStart s = { s with ember := { e with flushing := true, flushTo := e.next } } := if_pos honline
      exact (pilotLive_of_good hgood emberFlushStart).trans (congrArg _ hstart)
    case flushEnd =>
      refine ⟨_, exec_emberFlushComplete hgood hflush true, ?_⟩
      rw [if_pos rfl, flushEnd_of_none hclear]
      exact ⟨rfl, rfl, rfl, rfl, rfl⟩
    case flushClear =>
      refine ⟨_, exec_emberFlushComplete hgood hflush true, ?_⟩
      rw [if_pos rfl, flushEnd_of_clear (clearDone_of_some hclear hpend), (ackWrite_rest ..).1, chanGet_ackWrite_same]
      exact ⟨rfl, rfl, rfl⟩
    case flushFail => exact exec_emberFlushComplete hgood hflush false
    case freeze =>
      exact (busLive_of_onLink ⟨hs, hlink⟩ freezeOn).trans (congrArg _ (freezeOn_of_idle hidle hfrozen))
    case freezeRefused =>
      have hnot : ¬ NoRingServed s := fun h => h.elim (· hservice) fun hall => hserved.elim hall
      exact (busLive_of_onLink ⟨hs, hlink⟩ freezeOn).trans (congrArg _ (freezeOn_of_served hnot))
    case cursor =>
      exact (busLive_of_onLink ⟨hs, hlink⟩ fun s => cursorWrite s v).trans (congrArg _ (cursorWrite_eq s v))
    case early =>
      have hnot : thawDue s .timeout = false := decide_eq_false (Nat.not_le_of_lt hearly)
      rw [exec_emberUnfreeze hgood, hnot, Bool.and_false]
      rfl
    case thaw =>
      have hthaw : thawDue s c = true := by
        rcases hdue with ⟨rfl, hlink⟩ | ⟨rfl, hlate⟩
        · simp [thawDue, pcieUp, hs, hlink]
        · exact decide_eq_true hlate
      refine ⟨emberThaw s, ?_, emberThaw_spec hidle⟩
      rw [exec_emberUnfreeze hgood, hthaw, hfrozen]
      rfl
    case fill => rw [exec_emberFillComplete hs, if_neg (by simpa using hfill)]; rfl
    case filled => rw [exec_emberFillComplete hs, if_pos hready]
  · intro s q signed ok hs before bad signedOk free
    refine ⟨fun k hk => ?acked, fun hnew hbad => ?bad, fun hnew hgood howned hnext hclear hsigned => ⟨fun hbusy => ?busy,
      fun hfree => ?accepted⟩, fun hnew hgood hrefused => ?refused⟩
    case acked => exact live_svcTake_of_acked _ hs hk
    case bad => exact live_svcTake_of_bad _ hs hnew hbad
    case refused => rw [exec_emberClear hs hnew hgood, if_pos ((clearRefused_iff s q signed ok).mpr hrefused)]
    all_goals
      have hpermit : clearRefused s q signed ok = false := by
        rw [Bool.eq_false_iff, Ne, clearRefused_iff]
        simp only [howned, hnext, hclear, ne_eq, not_true_eq_false, Bool.false_eq_true, Bool.true_eq_false, false_or, not_not]
        exact hsigned
    case busy =>
      rw [exec_emberClear hs hnew hgood, hpermit, (clearBusy_iff s).mpr hbusy]
      rfl
    case accepted =>
      have hidle : clearBusy s = false := by
        rw [Bool.eq_false_iff, Ne, clearBusy_iff, not_not]
        exact hfree
      refine ⟨{ s with ember := clearAccepted s q signed }, ?_, rfl, ?_⟩
      · rw [exec_emberClear hs hnew hgood, hpermit, hidle]
        rfl
      cases hwriting : s.ember.writing with
      | false =>
        obtain ⟨⟨htail, hflash⟩, hrest⟩ := clearAccepted_of_idle hwriting hnext signed
        exact ⟨htail, hflash, fun _ => hrest, fun h => Bool.noConfusion h⟩
      | true =>
        obtain ⟨⟨htail, hflash⟩, hpend⟩ := clearAccepted_of_writing hwriting q signed
        exact ⟨htail, hflash, fun h => Bool.noConfusion h, fun _ => hpend⟩

end Sys2Proof.Machine

/-! # Messages on the spouts (O45, O47) -/

namespace Sys2Proof.Machine

open Sys2Proof

/-! ## Slices and buffers -/

theorem slice_length (bs : List Byte) (off n : Nat) : (slice bs off n).length = n := by
  simp only [slice, List.length_append, List.length_replicate, List.length_take, List.length_drop]
  omega

theorem slice_self {bs : List Byte} {n : Nat} (h : bs.length = n) : slice bs 0 n = bs := by
  simp [slice, ← h]

/-- A buffer read as a list holds what was written to all of it. -/
theorem toList_ofFn_nth {bs : List Byte} (h : bs.length = 64) : (Vector.ofFn fun i : Fin 64 => nth bs i.val 0).toList = bs := by
  refine List.ext_getElem (by simp [h]) fun i hi hbs => ?_
  simp [nth, List.getElem?_eq_getElem hbs]

/-! ## Writes of a buffer, and SEND (R355, R356) -/

/-- No channel but one is touched. -/
def Alone (ch : Chan) (s t : State) : Prop := ∀ x, x ≠ ch → chanGet t x = chanGet s x

theorem Alone.trans {ch : Chan} {a b c : State} (h : Alone ch a b) (k : Alone ch b c) : Alone ch a c :=
  fun x hx => (k x hx).trans (h x hx)

theorem alone_chanSet (s : State) (ch : Chan) (c : SChan) : Alone ch s (chanSet s ch c) :=
  fun _ hx => chanGet_chanSet_of_ne s hx c

theorem alone_signalFrame {s t : State} (h : SignalFrame s t) (ch : Chan) : Alone ch s t := fun x _ => h.chanGet x

section Sends
variable {s : State} {ch : Chan}

theorem bufWrite_of_full (h : (chanGet s ch).full = true) (bs : List Byte) (off : Nat) :
    bufWrite s ch bs off = chanSet s ch { chanGet s ch with blocked := true } := by
  simp [bufWrite, h]

/-- The buffer once a whole message is written to it. -/
def writtenBuf (bs : List Byte) : Vector Byte 64 := Vector.ofFn fun i => nth bs i.val 0

theorem bufWrite_of_empty (h : (chanGet s ch).full = false) {bs : List Byte} (hlen : bs.length = 64) :
    bufWrite s ch bs 0 = chanSet s ch { chanGet s ch with buf := writtenBuf bs } := by
  have hdrop : (chanGet s ch).buf.toList.drop bs.length = [] := List.drop_eq_nil_of_le (by simp [hlen])
  simp [bufWrite, h, hdrop, writtenBuf]

theorem putMessage_of_full (h : (chanGet s ch).full = true) (m : List Byte) :
    putMessage s ch m = chanSet s ch { chanGet s ch with blocked := true } := by
  unfold putMessage
  split <;> exact bufWrite_of_full h _ _

/-- Whatever a sender writes while FULL is 1 sets BLOCKED at most. -/
theorem sendOn_of_full (h : (chanGet s ch).full = true) (msg : Option (List Byte)) :
    sendOn s ch msg = s ∨ sendOn s ch msg = chanSet s ch { chanGet s ch with blocked := true } := by
  unfold sendOn
  dsimp only
  split
  · cases msg with
    | none => exact .inl rfl
    | some m => exact .inr (bufWrite_of_full h _ _)
  · split
    · exact .inr (putMessage_of_full h _)
    · exact .inl rfl
    · exact .inr (putMessage_of_full h _)

theorem sendPost_of_full (h : (chanGet s ch).full = true) :
    sendPost s ch = chanSet s ch { chanGet s ch with blocked := true } := by
  simp [sendPost, h]

/-- The state with a message posted, before the receiver is signalled. -/
def posted (s : State) (ch : Chan) : State :=
  chanSet s ch { chanGet s ch with full := true, msgEpoch := (chanGet s ch).epoch }

theorem sendPost_of_empty (h : (chanGet s ch).full = false) (hch : ch ≠ .s 0) :
    sendPost s ch = signalSet (posted s ch) ch := by
  simp only [sendPost, h, Bool.false_eq_true, if_false]
  rfl

theorem sendPost_s0_of_empty (h : (chanGet s (.s 0)).full = false) : sendPost s (.s 0) = gateCheck (posted s (.s 0)) := by
  simp [sendPost, h, posted]

/-- What the channel holds after SEND, and that no other channel is touched. -/
theorem chanGet_sendPost (h : (chanGet s ch).full = false) (hch : ch ≠ .s 0) :
    chanGet (sendPost s ch) ch = { chanGet s ch with full := true, msgEpoch := (chanGet s ch).epoch }
      ∧ Alone ch s (sendPost s ch) := by
  have hsignal := signalFrame_signalSet (posted s ch) ch
  rw [sendPost_of_empty h hch]
  exact ⟨(hsignal.chanGet ch).trans (chanGet_chanSet_same s ch _),
    (alone_chanSet s ch _).trans (alone_signalFrame hsignal ch)⟩

/-- A message that is no core's is written as it stands. -/
theorem sendOn_of_host (h : (chanGet s ch).full = false) (hdev : deviceSends ch = false) (m : List Byte) :
    sendOn s ch (some m) = chanSet s ch { chanGet s ch with buf := writtenBuf (slice m 0 64) } := by
  simp only [sendOn, hdev, Bool.not_false, if_true, Option.elim_some]
  exact bufWrite_of_empty h (slice_length m 0 64)

theorem sendOn_of_none (hfree : (chanGet s ch).unacked = none) : sendOn s ch none = s := by
  simp [sendOn, hfree]

/-- A core's message that no acknowledgement has ended is written again. -/
theorem sendOn_again (hdev : deviceSends ch = true) {k : List Byte} (hk : (chanGet s ch).unacked = some k)
    (msg : Option (List Byte)) : sendOn s ch msg = putMessage s ch k := by
  simp [sendOn, hdev, hk]

/-- A core's new message as it is kept: the next SEQ before what the sender gives. -/
def numbered (s : State) (ch : Chan) (m : List Byte) : List Byte :=
  leBytes 2 (chanGet s ch).nextSeq.toNat ++ match ch with
    | .s 1 => nextS1Message s m
    | _ => slice m 2 62

theorem numbered_of_ne (hs1 : ch ≠ .s 1) (m : List Byte) :
    numbered s ch m = leBytes 2 (chanGet s ch).nextSeq.toNat ++ slice m 2 62 := by
  unfold numbered
  split
  · exact absurd rfl hs1
  · rfl

/-- The channel of a core that has numbered and kept its next message. -/
def keptMessage (s : State) (ch : Chan) (m : List Byte) : State :=
  chanSet s ch { chanGet s ch with nextSeq := (chanGet s ch).nextSeq + 1, unacked := some (numbered s ch m) }

theorem sendOn_new (h : (chanGet s ch).full = false) (hdev : deviceSends ch = true) (hfree : (chanGet s ch).unacked = none)
    (m : List Byte) : sendOn s ch (some m) = putMessage (keptMessage s ch m) ch (numbered s ch m) := by
  unfold sendOn
  dsimp only
  rw [if_neg (by simp [hdev]), hfree]
  exact if_neg (by simp [h])

theorem putMessage_of_empty (h : (chanGet s ch).full = false) (hch : ch ≠ .s 1) (m : List Byte) :
    putMessage s ch m = chanSet s ch { chanGet s ch with buf := writtenBuf (slice m 0 64) } := by
  unfold putMessage
  split
  · exact absurd rfl hch
  · exact bufWrite_of_empty h (slice_length m 0 64)

/-- A channel that is written, with FULL 0, and then posted. -/
theorem sendPost_chanSet {c : SChan} (h : c.full = false) (hch : ch ≠ .s 0) :
    chanGet (sendPost (chanSet s ch c) ch) ch = { c with full := true, msgEpoch := c.epoch }
      ∧ Alone ch s (sendPost (chanSet s ch c) ch) := by
  obtain ⟨hchan, halone⟩ := chanGet_sendPost (s := chanSet s ch c) (ch := ch) (by simpa using h) hch
  refine ⟨?_, (alone_chanSet s ch c).trans halone⟩
  rw [hchan, chanGet_chanSet_same]

end Sends

/-- The channel once the status bits to which the sender wrote 1 are cleared (R355). -/
def statusCleared (c : SChan) (w : BitVec 2) : SChan :=
  { c with dropped := c.dropped && !w.getLsbD 0, blocked := c.blocked && !w.getLsbD 1 }

theorem statusClear_eq (s : State) (ch : Chan) (w : BitVec 2) :
    statusClear s ch w = chanSet s ch (statusCleared (chanGet s ch) w) := rfl

/-! ## SPOUT_SEND -/

/-- The host's accesses reach the block: over the link where the host sends, and in a hub that is powered. -/
def Reaches (s : State) (ch : Chan) : Prop := Live s ∧ ∀ x ∈ [Chan.n 0, .n 1, .s 0, .s 1], ch = x → s.pwr.perstN = true

theorem exec_spoutSend {s : State} {ch : Chan} (h : Reaches s ch) (w : BitVec 2) (msg : Option (List Byte)) :
    exec (.spoutSend ch w msg) s = .next (if shedsSend s ch msg then statusClear s ch w
      else sendPost (sendOn (statusClear s ch w) ch msg) ch) := by
  refine viaBus_of_hub h.1 (fun hhost => ?_) fun s => if shedsSend s ch msg then statusClear s ch w
      else sendPost (sendOn (statusClear s ch w) ch msg) ch
  simp only [Bool.or_eq_true, beq_iff_eq] at hhost
  rcases hhost with rfl | rfl <;> exact h.2 _ (by simp) rfl

theorem exec_spoutReceive {s : State} {ch : Chan} (h : Reaches s ch) (w : Fin 16) :
    exec (.spoutReceive ch w) s = .next (
      let t := setBus (recvWord s ch w).1 (recvWord s ch w).2
      if sconceInbox ch && (chanGet s ch).full && w == 15 then refuseMessage t ch (chanGet s ch).buf.toList else t) := by
  refine viaBus_of_hub h.1 (fun hhost => ?_) fun s =>
      let t := setBus (recvWord s ch w).1 (recvWord s ch w).2
      if sconceInbox ch && (chanGet s ch).full && w == 15 then refuseMessage t ch (chanGet s ch).buf.toList else t
  simp only [Bool.or_eq_true, beq_iff_eq] at hhost
  rcases hhost with rfl | rfl <;> exact h.2 _ (by simp) rfl

theorem exec_spoutAck {s : State} {ch : Chan} (h : Reaches s ch) (seq code : W16) :
    exec (.spoutAck ch seq code) s = .next (if code == 0xFFFF then s else ackWrite s ch seq (shedCode s ch code)) := by
  refine viaBus_of_hub h.1 (fun hhost => ?_) fun s => if code == 0xFFFF then s else ackWrite s ch seq (shedCode s ch code)
  simp only [Bool.or_eq_true, beq_iff_eq] at hhost
  rcases hhost with rfl | rfl <;> exact h.2 _ (by simp) rfl

section Messages
variable {s : State} {ch : Chan} (w : BitVec 2)

theorem chanGet_statusClear : chanGet (statusClear s ch w) ch = statusCleared (chanGet s ch) w := chanGet_chanSet_same ..

theorem alone_statusClear : Alone ch s (statusClear s ch w) := alone_chanSet s ch _

/-- A message posted while FULL is 1 is ignored and sets BLOCKED. -/
theorem sendPost_sendOn_of_full (h : (chanGet s ch).full = true) (msg : Option (List Byte)) :
    let t := sendPost (sendOn (statusClear s ch w) ch msg) ch
    chanGet t ch = { statusCleared (chanGet s ch) w with blocked := true } ∧ Alone ch s t := by
  intro t
  have hclear : Alone ch s (statusClear s ch w) := alone_statusClear w
  have hget := chanGet_statusClear (s := s) (ch := ch) w
  have hfull : (chanGet (statusClear s ch w) ch).full = true := by rw [hget]; exact h
  rcases sendOn_of_full hfull msg with hsame | hblocked
  · have ht : t = chanSet (statusClear s ch w) ch { chanGet (statusClear s ch w) ch with blocked := true } := by
      simp only [t, hsame, sendPost_of_full hfull]
    rw [ht, chanGet_chanSet_same, hget]
    exact ⟨rfl, hclear.trans (alone_chanSet _ ch _)⟩
  · have hagain : (chanGet (sendOn (statusClear s ch w) ch msg) ch).full = true := by
      rw [hblocked, chanGet_chanSet_same]
      exact hfull
    have ht : t = chanSet (sendOn (statusClear s ch w) ch msg) ch
        { chanGet (sendOn (statusClear s ch w) ch msg) ch with blocked := true } := sendPost_of_full hagain
    rw [ht, chanGet_chanSet_same, hblocked, chanGet_chanSet_same, hget]
    exact ⟨rfl, (hclear.trans (alone_chanSet _ ch _)).trans (alone_chanSet _ ch _)⟩

variable (h : (chanGet s ch).full = false) (hch : ch ≠ .s 0)
include h

theorem full_statusClear : (chanGet (statusClear s ch w) ch).full = false := by
  rw [chanGet_statusClear]
  exact h

include hch

/-- A message that is no core's. -/
theorem sendPost_sendOn_of_host (hdev : deviceSends ch = false) (m : List Byte) :
    let t := sendPost (sendOn (statusClear s ch w) ch (some m)) ch
    (chanGet t ch).full = true ∧ (chanGet t ch).msgEpoch = (chanGet s ch).epoch
      ∧ (chanGet t ch).buf.toList = slice m 0 64 ∧ (chanGet t ch).epoch = (chanGet s ch).epoch ∧ Alone ch s t := by
  intro t
  have hfull : (chanGet (statusClear s ch w) ch).full = false := full_statusClear w h
  have hsent := sendOn_of_host hfull hdev m
  obtain ⟨hchan, halone⟩ := sendPost_chanSet (s := statusClear s ch w) (ch := ch)
    (c := { chanGet (statusClear s ch w) ch with buf := writtenBuf (slice m 0 64) }) hfull hch
  rw [← hsent] at hchan halone
  rw [hchan, chanGet_statusClear]
  exact ⟨rfl, rfl, toList_ofFn_nth (slice_length m 0 64), rfl, (alone_statusClear w).trans halone⟩

/-- A core's message that no acknowledgement has ended is posted again. -/
theorem sendPost_sendOn_again (hs1 : ch ≠ .s 1) (hdev : deviceSends ch = true) {k : List Byte}
    (hk : (chanGet s ch).unacked = some k) (msg : Option (List Byte)) :
    let t := sendPost (sendOn (statusClear s ch w) ch msg) ch
    (chanGet t ch).full = true ∧ (chanGet t ch).buf.toList = slice k 0 64
      ∧ (chanGet t ch).nextSeq = (chanGet s ch).nextSeq ∧ (chanGet t ch).unacked = some k ∧ Alone ch s t := by
  intro t
  have hfull : (chanGet (statusClear s ch w) ch).full = false := full_statusClear w h
  have hkept : (chanGet (statusClear s ch w) ch).unacked = some k := by rw [chanGet_statusClear]; exact hk
  have hsent := (sendOn_again hdev hkept msg).trans (putMessage_of_empty hfull hs1 k)
  obtain ⟨hchan, halone⟩ := sendPost_chanSet (s := statusClear s ch w) (ch := ch)
    (c := { chanGet (statusClear s ch w) ch with buf := writtenBuf (slice k 0 64) }) hfull hch
  rw [← hsent] at hchan halone
  rw [hchan, chanGet_statusClear]
  exact ⟨rfl, toList_ofFn_nth (slice_length k 0 64), rfl, hk, (alone_statusClear w).trans halone⟩

/-- A core's new message is numbered, kept and posted. -/
theorem sendPost_sendOn_new (hs1 : ch ≠ .s 1) (hdev : deviceSends ch = true) (hfree : (chanGet s ch).unacked = none)
    (m : List Byte) :
    let t := sendPost (sendOn (statusClear s ch w) ch (some m)) ch
    let k := leBytes 2 (chanGet s ch).nextSeq.toNat ++ slice m 2 62
    (chanGet t ch).full = true ∧ (chanGet t ch).buf.toList = k
      ∧ (chanGet t ch).nextSeq = (chanGet s ch).nextSeq + 1 ∧ (chanGet t ch).unacked = some k ∧ Alone ch s t := by
  intro t k
  let u := statusClear s ch w
  have hnum : numbered u ch m = k := by
    rw [numbered_of_ne hs1, chanGet_statusClear]
    rfl
  have hkfull : (chanGet (keptMessage u ch m) ch).full = false := by
    rw [keptMessage, chanGet_chanSet_same]
    exact full_statusClear w h
  have hlen : k.length = 64 := by simp [k, slice_length]
  have hsent : sendOn u ch (some m)
      = chanSet (keptMessage u ch m) ch { chanGet (keptMessage u ch m) ch with buf := writtenBuf k } := by
    rw [sendOn_new (full_statusClear w h) hdev (by rw [chanGet_statusClear]; exact hfree), hnum, putMessage_of_empty hkfull hs1,
      slice_self hlen]
  obtain ⟨hchan, halone⟩ := sendPost_chanSet (s := keptMessage u ch m) (ch := ch)
    (c := { chanGet (keptMessage u ch m) ch with buf := writtenBuf k }) hkfull hch
  rw [← hsent] at hchan halone
  rw [hchan, keptMessage, chanGet_chanSet_same, hnum, chanGet_statusClear]
  exact ⟨rfl, toList_ofFn_nth hlen, rfl, rfl, ((alone_statusClear w).trans (alone_chanSet u ch _)).trans halone⟩

end Messages

/-! ## SPOUT_RECEIVE (R356, R363, R364) -/

section Receives
variable {s : State} {ch : Chan}

theorem receiverWord_of_full {c : SChan} (h : c.full = true) (w : Fin 16) :
    receiverWord c (4 * w.val) = field c.buf.toList (4 * w.val) 4 := by
  have hlow : 4 * w.val < 0x40 := by omega
  simp [receiverWord, hlow, h]

theorem receiverWord_of_empty {c : SChan} (h : c.full = false) (w : Fin 16) : receiverWord c (4 * w.val) = 0 := by
  have hlow : 4 * w.val < 0x40 := by omega
  simp [receiverWord, hlow, h]

/-- A read that takes no message returns a word and changes nothing. -/
theorem exec_spoutReceive_of_not_last (h : Reaches s ch) {w : Fin 16} (hlast : ((chanGet s ch).full && w == 15) = false) :
    exec (.spoutReceive ch w) s = .next (setBus s (receiverWord (chanGet s ch) (4 * w.val))) := by
  have hword : recvWord s ch w = (s, receiverWord (chanGet s ch) (4 * w.val)) := by simp [recvWord, hlast]
  simp [exec_spoutReceive h, hword, Bool.and_assoc, hlast]

/-- The message of a channel is taken: FULL clears, and the last word is on the bus. -/
def taken (s : State) (ch : Chan) : State :=
  setBus (signalClear (chanSet s ch { chanGet s ch with full := false }) ch) (field (chanGet s ch).buf.toList 60 4)

theorem chanGet_taken (s : State) (ch : Chan) : chanGet (taken s ch) ch = { chanGet s ch with full := false } := by
  have hbus : ∀ (u : State) (v : Nat), chanGet (setBus u v) ch = chanGet u ch := fun u v => chanGet_of_spout rfl ch
  rw [taken, hbus, (signalFrame_signalClear _ ch).chanGet, chanGet_chanSet_same]

theorem exec_spoutReceive_last (h : Reaches s ch) (hfull : (chanGet s ch).full = true) :
    exec (.spoutReceive ch 15) s = .next (if sconceInbox ch then refuseMessage (taken s ch) ch (chanGet s ch).buf.toList
      else taken s ch) := by
  have hword : recvWord s ch 15
      = (signalClear (chanSet s ch { chanGet s ch with full := false }) ch, field (chanGet s ch).buf.toList 60 4) := by
    have hlast : receiverWord (chanGet s ch) 60 = field (chanGet s ch).buf.toList 60 4 := receiverWord_of_full hfull 15
    simp [recvWord, hfull, hlast]
  simp [exec_spoutReceive h, hword, hfull, taken]

/-- Sconce's answer to a message that it has taken and does not act on (R363, R364). -/
def answerTo (s : State) (ch : Chan) (m : List Byte) : Option W16 :=
  if ch ≠ .s 0 ∧ (ackedAs (chanGet s ch) (BitVec.ofNat 16 (field m 0 2))).isSome = true then
    ackedAs (chanGet s ch) (BitVec.ofNat 16 (field m 0 2))
  else if offered ch m = false then some 2
  else if badFields (if ch = .s 0 then 48 else 56) m = true then some 3
  else none

theorem refuseMessage_eq (s : State) (ch : Chan) (m : List Byte) : refuseMessage s ch m
    = ((answerTo s ch m).map (ackWrite s ch (BitVec.ofNat 16 (field m 0 2)))).getD s := by
  unfold refuseMessage answerTo
  by_cases hch : ch = .s 0
  · subst hch
    by_cases hoffered : offered (.s 0) m = true
    · by_cases hbad : badFields 48 m = true <;> simp [hoffered, hbad]
    · simp [hoffered]
  · have hne : (ch == Chan.s 0) = false := by simpa using hch
    cases hack : ackedAs (chanGet s ch) (BitVec.ofNat 16 (field m 0 2)) with
    | some code => simp [hch, hne, hack]
    | none =>
      by_cases hoffered : offered ch m = true
      · by_cases hbad : badFields 56 m = true <;> simp [hch, hne, hack, hoffered, hbad]
      · simp [hne, hack, hoffered]

/-- What sconce's answer leaves where it takes a message. -/
theorem refuseMessage_taken (s : State) (ch : Chan) :
    let m := (chanGet s ch).buf.toList
    let t := refuseMessage (taken s ch) ch m
    (chanGet t ch).full = false ∧ (chanGet t ch).buf = (chanGet s ch).buf ∧ t.host.busRead = BitVec.ofNat 64 (field m 60 4)
      ∧ (answerTo s ch m = none → chanGet t ch = { chanGet s ch with full := false })
      ∧ ∀ a, answerTo s ch m = some a →
        (chanGet t ch).ackSeq = BitVec.ofNat 16 (field m 0 2) ∧ (chanGet t ch).ackCode = a := by
  intro m t
  have hsame : answerTo (taken s ch) ch m = answerTo s ch m := by
    unfold answerTo
    rw [chanGet_taken]
    rfl
  have ht : t = ((answerTo s ch m).map (ackWrite (taken s ch) ch (BitVec.ofNat 16 (field m 0 2)))).getD (taken s ch) := by
    rw [← hsame]
    exact refuseMessage_eq (taken s ch) ch m
  cases hanswer : answerTo s ch m with
  | none =>
    have hsilent : t = taken s ch := by rw [ht, hanswer]; rfl
    rw [hsilent, chanGet_taken]
    exact ⟨rfl, rfl, rfl, fun _ => rfl, fun _ h => nomatch h⟩
  | some a =>
    have hanswered : t = ackWrite (taken s ch) ch (BitVec.ofNat 16 (field m 0 2)) a := by rw [ht, hanswer]; rfl
    rw [hanswered, chanGet_ackWrite_same, chanGet_taken, (ackWrite_rest ..).2.2.2]
    exact ⟨rfl, rfl, rfl, (fun h => nomatch h), fun b h => ⟨rfl, Option.some.inj h⟩⟩

end Receives

/-! ## The gate (R366, R367) -/

theorem lockedOut_iff (s : State) : lockedOut s = true ↔ ∃ x, s.spout.lockout = some x ∧ s.pwr.ticks < x := by
  simp [lockedOut, Option.any_eq_true]

/-- A message that the gate discards: FULL clears, and its SEQ is acknowledged `SP_AUTH_FAIL`. -/
def Discarded (s t : State) : Prop :=
  (chanGet t (.s 0)).full = false ∧ (chanGet t (.s 0)).ackCode = 4
    ∧ (chanGet t (.s 0)).ackSeq = BitVec.ofNat 16 (field (chanGet s (.s 0)).buf.toList 0 2)

theorem discarded_gateDiscard (s : State) : Discarded s (gateDiscard s) := by
  have hchan : chanGet (gateDiscard s) (.s 0) = { chanGet s (.s 0) with
      full := false, ackSeq := BitVec.ofNat 16 (field (chanGet s (.s 0)).buf.toList 0 2), ackCode := spAuthFail } := by
    rw [gateDiscard, (signalFrame_signalClear _ _).chanGet, chanGet_chanSet_same]
  rw [Discarded, hchan]
  exact ⟨rfl, rfl, rfl⟩

theorem gateDiscard_gate (s : State) :
    (gateDiscard s).spout.gateFail = s.spout.gateFail ∧ (gateDiscard s).spout.lockout = s.spout.lockout := by
  obtain ⟨-, hfail, hlock⟩ := (signalFrame_signalClear (chanSet s (.s 0) { chanGet s (.s 0) with
      full := false, ackSeq := BitVec.ofNat 16 (field (chanGet s (.s 0)).buf.toList 0 2), ackCode := spAuthFail }) (.s 0)).gate
  exact ⟨hfail, hlock⟩

/-- The message in S0's buffer passes the gate: its TAG is right, or before the first session it is of the key exchange. -/
def passesGate (s : State) : Bool :=
  (s.spout.gateKey && tagOk s) || (!s.spout.gateKey && field (chanGet s (.s 0)).buf.toList 2 1 == 1)

theorem gateCheck_of_locked {s : State} (h : lockedOut s = true) : gateCheck s = gateDiscard s := if_pos h

/-- The gate shows sconce a message that passes. -/
theorem gateCheck_of_pass {s : State} (h : lockedOut s = false) (hpass : passesGate s = true) :
    (∀ x, chanGet (gateCheck s) x = chanGet s x) ∧ (gateCheck s).spout.gateFail = 0 := by
  have hpass' : ((s.spout.gateKey && tagOk s) || (!s.spout.gateKey && field (chanGet s (.s 0)).buf.toList 2 1 == 1)) = true := hpass
  have hcheck : gateCheck s = signalSet { s with spout := { s.spout with gateFail := 0 } } (.s 0) := by
    simp [gateCheck, h, hpass']
  have hsignal := signalFrame_signalSet { s with spout := { s.spout with gateFail := 0 } } (.s 0)
  rw [hcheck]
  refine ⟨fun x => (hsignal.chanGet x).trans ?_, hsignal.gate.2.1⟩
  cases x <;> rfl

/-- The failure count and the lock-out after a further failure. -/
def gateFailed (s : State) : State :=
  { s with spout := { s.spout with
      gateFail := if s.spout.gateFail + 1 = 8 then 0 else s.spout.gateFail + 1
      lockout := if s.spout.gateFail + 1 = 8 then some (s.pwr.ticks + ticksPerSec) else none } }

theorem gateCheck_of_fail {s : State} (h : lockedOut s = false) (hfail : passesGate s = false) :
    Discarded s (gateCheck s) ∧ (gateCheck s).spout.gateFail = (gateFailed s).spout.gateFail
      ∧ (gateCheck s).spout.lockout = (gateFailed s).spout.lockout := by
  have hfail' : ((s.spout.gateKey && tagOk s) || (!s.spout.gateKey && field (chanGet s (.s 0)).buf.toList 2 1 == 1)) = false := hfail
  have hcheck : gateCheck s = raise (gateDiscard (gateFailed s)) .spoutGateFail [] := by
    simp [gateCheck, h, hfail', gateFailed]
  have hspout : (gateCheck s).spout = (gateDiscard (gateFailed s)).spout := by rw [hcheck, raise_spout]
  obtain ⟨hcount, hlock⟩ := gateDiscard_gate (gateFailed s)
  refine ⟨?_, by rw [hspout, hcount], by rw [hspout, hlock]⟩
  rw [Discarded, chanGet_of_spout hspout]
  exact discarded_gateDiscard (gateFailed s)

theorem chanSet_chanGet (s : State) (ch : Chan) : chanSet s ch (chanGet s ch) = s := by
  cases ch <;> simp [chanSet, chanGet, Vector.get_eq_getElem]

theorem statusClear_zero (s : State) (ch : Chan) : statusClear s ch 0 = s := by
  have hsame : statusCleared (chanGet s ch) 0 = chanGet s ch := by simp [statusCleared]
  rw [statusClear_eq, hsame, chanSet_chanGet]

/-- SEND on S0 with nothing written before it. -/
theorem exec_spoutSend_s0 {s : State} (hs : OnLink s) (hempty : (chanGet s (.s 0)).full = false) :
    exec (.spoutSend (.s 0) 0 none) s = .next (gateCheck (posted s (.s 0))) := by
  have hreach : Reaches s (.s 0) := ⟨hs.1, fun _ _ _ => hs.2⟩
  rw [exec_spoutSend hreach, statusClear_zero]
  exact congrArg _ (sendPost_s0_of_empty hempty)

theorem exec_gateLockoutEnd {s : State} (hs : Live s) : exec .gateLockoutEnd s
    = .next (if lockedOut s then s else { s with spout := { s.spout with lockout := none } }) :=
  live_of_hub hs fun s => if lockedOut s then s else { s with spout := { s.spout with lockout := none } }

theorem chanGet_posted (s : State) (ch : Chan) :
    chanGet (posted s ch) ch = { chanGet s ch with full := true, msgEpoch := (chanGet s ch).epoch } := chanGet_chanSet_same ..

theorem passesGate_posted (s : State) : passesGate (posted s (.s 0)) = true ↔
    let c := chanGet s (.s 0)
    if s.spout.gateKey then
      slice c.buf.toList 56 8 = mac8 (gateKey s) (slice c.buf.toList 0 56 ++ leBytes 1 0 ++ leBytes 1 c.epoch.toNat)
    else field c.buf.toList 2 1 = 1 := by
  have hkey : (posted s (.s 0)).spout.gateKey = s.spout.gateKey := rfl
  unfold passesGate tagOk
  rw [chanGet_posted, hkey]
  cases s.spout.gateKey with
  | true => simp only [Bool.true_and, Bool.not_true, Bool.false_and, Bool.or_false, beq_iff_eq, if_true]; rfl
  | false => simp

theorem discarded_posted {s : State} (t : State) (h : Discarded (posted s (.s 0)) t) : Discarded s t := by
  rw [Discarded, chanGet_posted] at h
  exact h

/-- Settles O45: a send by what stands in the buffer, a read by whether it is the last word, and the gate by its three cases. -/
theorem spoutsCarryMessages : Obligations.SpoutsCarryMessages := by
  constructor
  · intro s ch w1c m k msg w seq code hs hhost c d alone text q answer code1
    have hreach : Reaches s ch := ⟨hs, hhost⟩
    have hs0 : deviceSends ch = true → ch ≠ .s 0 := by
      rintro hdev rfl
      exact absurd hdev (by decide)
    have hsends (msg) (hshed : shedsSend s ch msg = false) :
        exec (.spoutSend ch w1c msg) s = .next (sendPost (sendOn (statusClear s ch w1c) ch msg) ch) := by
      rw [exec_spoutSend hreach, hshed]
      rfl
    refine ⟨fun hshed => ?shed, fun hshed hfull => ?full, fun hempty hch hfree => ?send, fun hempty hch hdev => ?host,
      fun hempty hs1 hdev hshed => ⟨fun hfree => ?new, fun hk => ?again⟩, fun hfull hw => ?word, fun hfull => ?last,
      fun hempty => ?nothing, fun hcode => ⟨_, ?ack, chanGet_ackWrite_same s ch seq code1⟩, fun hglow => ?code, fun hcode => ?noAck⟩
    case shed => rw [exec_spoutSend hreach, hshed]; rfl
    case full => exact ⟨_, hsends msg hshed, sendPost_sendOn_of_full w1c hfull msg⟩
    case send =>
      have hshed : shedsSend s ch none = false := by simp [shedsSend]
      have hunacked : (chanGet (statusClear s ch w1c) ch).unacked = none := by rw [chanGet_statusClear]; exact hfree
      have hsent := hsends none hshed
      rw [sendOn_of_none hunacked, statusClear_eq] at hsent
      exact ⟨_, hsent, sendPost_chanSet (s := s) (c := statusCleared c w1c) hempty hch⟩
    case host =>
      have hshed : shedsSend s ch (some m) = false := by
        have hn1 : (ch == Chan.n 1) = false := by
          rw [beq_eq_false_iff_ne]
          rintro rfl
          exact absurd hdev (by decide)
        simp [shedsSend, hn1]
      exact ⟨_, hsends _ hshed, sendPost_sendOn_of_host w1c hempty hch hdev m⟩
    case new => exact ⟨_, hsends _ hshed, sendPost_sendOn_new w1c hempty (hs0 hdev) hs1 hdev hfree m⟩
    case again => exact ⟨_, hsends _ hshed, sendPost_sendOn_again w1c hempty (hs0 hdev) hs1 hdev hk (some m)⟩
    case word =>
      rw [exec_spoutReceive_of_not_last hreach (by simp [hw]), receiverWord_of_full hfull]
      rfl
    case last =>
      refine ⟨_, exec_spoutReceive_last hreach hfull, ?_⟩
      cases hinbox : sconceInbox ch with
      | true =>
        have hanswer : answer = answerTo s ch text := by simp only [answer, hinbox, Bool.true_eq_false, if_false]; rfl
        rw [hanswer]
        exact refuseMessage_taken s ch
      | false =>
        have hanswer : answer = none := if_pos hinbox
        rw [hanswer, if_neg Bool.false_ne_true, chanGet_taken]
        exact ⟨rfl, rfl, rfl, fun _ => rfl, fun _ h => nomatch h⟩
    case nothing =>
      have hlast : ((chanGet s ch).full && w == 15) = false := by rw [show (chanGet s ch).full = false from hempty]; rfl
      rw [exec_spoutReceive_of_not_last hreach hlast, receiverWord_of_empty hempty]
      rfl
    case ack =>
      rw [exec_spoutAck hreach, if_neg (by simpa using hcode)]
    case code =>
      rcases hglow with hch | ⟨h3, h4⟩
      · simp [code1, shedCode, hch]
      · simp [code1, shedCode, h3, h4]
    case noAck => rw [exec_spoutAck hreach, hcode]; rfl
  · intro s hs hempty c passes discarded locked
    have hlocked : lockedOut s = true ↔ locked := lockedOut_iff s
    have hopen (h : ¬ locked) : lockedOut s = false := Bool.eq_false_iff.mpr (mt hlocked.mp h)
    have hsend := exec_spoutSend_s0 hs hempty
    refine ⟨fun hl hpass => ?pass, fun hl hfail => ?fail, fun hl => ?locked, fun hl => ?ended, fun hl => ?notYet⟩
    case pass =>
      obtain ⟨hchans, hcount⟩ := gateCheck_of_pass (s := posted s (.s 0)) (hopen hl) ((passesGate_posted s).mpr hpass)
      refine ⟨_, hsend, ?_⟩
      rw [hchans, chanGet_posted]
      exact ⟨rfl, rfl, hcount⟩
    case fail =>
      have hbad : passesGate (posted s (.s 0)) = false := Bool.eq_false_iff.mpr (mt (passesGate_posted s).mp hfail)
      obtain ⟨hdiscarded, hcount, hlock⟩ := gateCheck_of_fail (s := posted s (.s 0)) (hopen hl) hbad
      refine ⟨_, hsend, discarded_posted _ hdiscarded, fun hfew => ?_, fun hseven => ?_⟩
      · have hnot : ¬ s.spout.gateFail + 1 = 8 := by omega
        exact ⟨hcount.trans (if_neg hnot), hlock.trans (if_neg hnot)⟩
      · exact hlock.trans (if_pos (congrArg (· + 1) hseven))
    case locked =>
      have hcheck := gateCheck_of_locked (s := posted s (.s 0)) (hlocked.mpr hl)
      exact ⟨_, hsend, discarded_posted _ (hcheck ▸ discarded_gateDiscard _)⟩
    case ended => rw [exec_gateLockoutEnd hs.1, hopen hl]; rfl
    case notYet => rw [exec_gateLockoutEnd hs.1, hlocked.mpr hl]; rfl

end Sys2Proof.Machine

/-! # Owner enrolment, the key exchange and reports (O47)

The services of S0 are taken through `svcTake`; each service's outcome is stated once, as what is done to the state before its
acknowledgement. Then what sconce posts on S1. -/

namespace Sys2Proof.Machine

open Sys2Proof

/-! ## Acknowledgements of S0 -/

theorem svcAck_sec (s : State) (code : W16) : (svcAck s code).sec = s.sec := ackWrite_sec s (by decide) _ _

theorem svcAck_fuses (s : State) (code : W16) : (svcAck s code).fuses = s.fuses := (ackWrite_rest ..).2.1

theorem svcAck_gateKey (s : State) (code : W16) : (svcAck s code).spout.gateKey = s.spout.gateKey := (ackWrite_rest ..).2.2.1

theorem ownerKey_congr {s t : State} (h : t.fuses = s.fuses) : ownerKey t = ownerKey s := by rw [ownerKey, h, ownerKey]

/-! ## Enrolment and the lock (R410, R411, R413) -/

/-- The fuses with the slot programmed that has no programmed bit. -/
def enrolledFuses (s : State) (slot : OwnerSlot) : State :=
  if s.fuses.owner0.anyBit then { s with fuses := { s.fuses with owner1 := slot } }
  else { s with fuses := { s.fuses with owner0 := slot } }

/-- Enrolment is refused: a key is enrolled, both slots are damaged, or the signature fails. -/
def enrolRefused (s : State) (sigOk : Bool) : Bool := (ownerKey s).isSome || enrolDamaged s || !sigOk

theorem exec_ownerEnrol (key : BitVec 512) (sig back : Bool) (s : State) : exec (.ownerEnrol key sig back) s =
    live s fun s => svcTake s fun s =>
      if enrolRefused s sig then svcAck s 6
      else if back then svcAck (extendEvent (enrolledFuses s ⟨key, true, back⟩) 1) 0
      else svcAck (enrolledFuses s ⟨key, true, back⟩) 6 := rfl

theorem exec_ownerLock (sig : Bool) (s : State) : exec (.ownerLock sig) s =
    live s fun s => svcTake s fun s =>
      if (ownerKey s).isSome && sig then svcAck (extendEvent { s with fuses := { s.fuses with lock := true } } 2) 0
      else svcAck s 6 := rfl

theorem commits_of_no_owner {s : State} (h : ownerKey s = none) :
    s.fuses.owner0.commit = false ∧ s.fuses.owner1.commit = false := by
  unfold ownerKey at h
  split at h
  · cases h
  · split at h
    · cases h
    · simp_all

/-- Where no key is enrolled, the programmed slot is the owner's once its commit bit reads back. -/
theorem ownerKey_enrolledFuses {s : State} (h : ownerKey s = none) (key : BitVec 512) (back : Bool) :
    ownerKey (enrolledFuses s ⟨key, true, back⟩) = if back then some key else none := by
  obtain ⟨h0, h1⟩ := commits_of_no_owner h
  unfold enrolledFuses
  split <;> simp [ownerKey, h0, h1]

theorem enrolledFuses_anyBit (s : State) (key : BitVec 512) (back : Bool) :
    (if s.fuses.owner0.anyBit then (enrolledFuses s ⟨key, true, back⟩).fuses.owner1.anyBit
      else (enrolledFuses s ⟨key, true, back⟩).fuses.owner0.anyBit) = true := by
  unfold enrolledFuses
  split <;> rfl

theorem enrolledFuses_sec (s : State) (slot : OwnerSlot) : (enrolledFuses s slot).sec = s.sec := by
  unfold enrolledFuses
  split <;> rfl

/-- An event code extends M7. -/
theorem extendEvent_meas (s : State) (code : Nat) : (extendEvent s code).sec.meas.get 7
    = Config.sm3 (digestBytes (s.sec.meas.get 7) ++ digestBytes (Config.sm3 (leBytes 1 code))) := by
  simp [extendEvent, extend, Vector.get_eq_getElem]

/-! ## The key exchange (R422, R423) -/

theorem exec_keyExchange_first (cert : Bool) (pay : List Byte) (s : State) : exec (.keyExchange (.first cert pay)) s =
    live s fun s => svcTake s fun s =>
      if certRefused s cert then svcAck (dropExchange s) 4
      else svcAck { s with sec := { s.sec with ke := 1, keCert := cert, kePeer := pay, keOut := [] } } 0 := rfl

theorem exec_keyExchange_second {s : State} (hs : Live s) : exec (.keyExchange .second) s = .next (
    if s.sec.ke = 1 then { s with sec := { s.sec with ke := 2, keOut := secondMessage s }, free := s.free + 1 } else s) :=
  live_of_hub hs fun s =>
    if s.sec.ke = 1 then { s with sec := { s.sec with ke := 2, keOut := secondMessage s }, free := s.free + 1 } else s

theorem exec_keyExchange_third (ok : Bool) (secret : Digest) (s : State) : exec (.keyExchange (.third ok secret)) s =
    live s fun s => svcTake s fun s =>
      if s.sec.ke ≠ 2 then svcAck s 6
      else if !ok || certRefused s s.sec.keCert then svcAck (dropExchange s) 4
      else if installRefused s then svcAck (dropExchange s) 6
      else svcAck (installSession s secret) 0 := rfl

theorem exec_attestationReport (nonce : Digest) (s : State) : exec (.attestationReport nonce) s =
    live s fun s => svcTake s fun s =>
      if s.sec.reporting then svcAck s 1
      else svcAck { s with sec := { s.sec with
        reports := s.sec.reports + 1
        reportOut := attestBytes s nonce (s.sec.reports + 1)
          ++ leBytes 64 (Config.signature identityKey s.sec.reports.toNat (Config.sm3 (attestBytes s nonce (s.sec.reports + 1)))).toNat
        reporting := true } } 0 := rfl

theorem certRefused_iff (s : State) (cert : Bool) : certRefused s cert = false ↔ ownerKey s = none ∨ cert = true := by
  cases cert <;> simp [certRefused]

theorem secondMessage_length (s : State) : (secondMessage s).length = 160 := by
  simp [secondMessage, digestBytes]

theorem secondMessage_take (s : State) :
    (secondMessage s).take 64 = leBytes 64 (Config.sm2Public identityKey).toNat := by
  simp [secondMessage, List.append_assoc, List.take_left']

/-! ## What sconce posts on S1 (R363, R366, R417, R422) -/

theorem chanSet_sec (s : State) (ch : Chan) (c : SChan) : (chanSet s ch c).sec = s.sec := by cases ch <;> rfl

theorem chanSet_gateKey (s : State) (ch : Chan) (c : SChan) : (chanSet s ch c).spout.gateKey = s.spout.gateKey := by
  cases ch <;> rfl

theorem exec_spoutSend_s1 {s : State} (hs : OnLink s) (msg : Option (List Byte)) :
    exec (.spoutSend (.s 1) 0 msg) s = .next (sendPost (sendOn s (.s 1) msg) (.s 1)) := by
  have hreach : Reaches s (.s 1) := ⟨hs.1, fun _ _ _ => hs.2⟩
  have hshed : shedsSend s (.s 1) msg = false := by simp [shedsSend]
  rw [exec_spoutSend hreach, statusClear_zero, hshed]
  rfl

theorem taggedS1_length (s : State) (m : List Byte) : (taggedS1 s m).length = 64 := by
  unfold taggedS1
  split
  · simp [gateTag, mac8, slice_length]
  · exact slice_length m 0 64

/-- A message stands posted on S1, with the TAG once a session has been installed. -/
def PostedS1 (s t : State) (x : List Byte) : Prop :=
  (chanGet t (.s 1)).full = true ∧ (chanGet t (.s 1)).unacked = some x ∧ t.sec = s.sec
    ∧ (s.spout.gateKey = false → (chanGet t (.s 1)).buf.toList = slice x 0 64)
    ∧ (s.spout.gateKey = true →
      (chanGet t (.s 1)).buf.toList = slice x 0 56 ++ gateTag s x 1 (chanGet s (.s 1)).epoch.toNat)

/-- The message that sconce keeps is written with its TAG and posted. -/
theorem postedS1_putMessage {s : State} (hempty : (chanGet s (.s 1)).full = false) {k : List Byte}
    (hk : (chanGet s (.s 1)).unacked = some k) : PostedS1 s (sendPost (putMessage s (.s 1) k) (.s 1)) k
      ∧ (chanGet (sendPost (putMessage s (.s 1) k) (.s 1)) (.s 1)).nextSeq = (chanGet s (.s 1)).nextSeq := by
  have hput : putMessage s (.s 1) k = chanSet s (.s 1) { chanGet s (.s 1) with buf := writtenBuf (taggedS1 s k) } :=
    bufWrite_of_empty hempty (taggedS1_length s k)
  have hpost := sendPost_of_empty (s := putMessage s (.s 1) k) (ch := .s 1) (by rw [hput, chanGet_chanSet_same]; exact hempty)
    (by decide)
  have hsec : (sendPost (putMessage s (.s 1) k) (.s 1)).sec = s.sec := by
    rw [hpost, (signalFrame_signalSet _ _).sec, posted, chanSet_sec, hput, chanSet_sec]
  obtain ⟨hchan, -⟩ := sendPost_chanSet (s := s) (ch := .s 1)
    (c := { chanGet s (.s 1) with buf := writtenBuf (taggedS1 s k) }) hempty (by decide)
  rw [← hput] at hchan
  refine ⟨⟨by rw [hchan], by rw [hchan]; exact hk, hsec, fun hkey => ?_, fun hkey => ?_⟩, by rw [hchan]⟩
  all_goals
    rw [hchan]
    refine (toList_ofFn_nth (taggedS1_length s k)).trans ?_
    simp [taggedS1, hkey]

/-- The new message that sconce numbers and keeps is posted as `postedS1_putMessage` says. -/
theorem postedS1_new {s : State} (hempty : (chanGet s (.s 1)).full = false) (m : List Byte) :
    let x := numbered s (.s 1) m
    let t := sendPost (putMessage (keptMessage s (.s 1) m) (.s 1) x) (.s 1)
    PostedS1 s t x ∧ (chanGet t (.s 1)).nextSeq = (chanGet s (.s 1)).nextSeq + 1 := by
  intro x t
  let u := keptMessage s (.s 1) m
  have hu : chanGet u (.s 1) = { chanGet s (.s 1) with
      nextSeq := (chanGet s (.s 1)).nextSeq + 1, unacked := some x } := chanGet_chanSet_same ..
  have hsec : u.sec = s.sec := chanSet_sec ..
  have hkey : u.spout.gateKey = s.spout.gateKey := chanSet_gateKey ..
  have htag (e : Nat) : gateTag u x 1 e = gateTag s x 1 e := by simp only [gateTag, gateKey, hsec]
  obtain ⟨⟨hfull, hkept, hsame, hplain, htagged⟩, hnext⟩ :=
    postedS1_putMessage (s := u) (k := x) (by rw [hu]; exact hempty) (by rw [hu])
  rw [hkey] at hplain htagged
  rw [hu] at htagged hnext
  exact ⟨⟨hfull, hkept, hsame.trans hsec, hplain, fun h => (htagged h).trans (congrArg _ (htag _))⟩, hnext⟩

/-! ### The parts of a split message (R363) -/

theorem slice_append_left {a b : List Byte} {n : Nat} (h : a.length = n) : slice (a ++ b) 0 n = a := by
  simp [slice, ← h]

theorem slice_append_right {a b : List Byte} {k : Nat} (h : a.length = k) (n : Nat) : slice (a ++ b) k n = slice b 0 n := by
  simp [slice, ← h]

/-- A part begins with its service, and its 48 bytes are the next of what is left. -/
theorem slice_splitPart (a : List Byte) (ha : a.length = 2) (service total : Nat) (left : List Byte) :
    field (a ++ splitPart service total left) 2 1 = service % 256
      ∧ slice (a ++ splitPart service total left) 8 48 = slice left 0 48 := by
  constructor
  · have hhead : splitPart service total left = leBytes 1 service ++ (leBytes 1
        (b2n (left.length == total) + 2 * b2n (left.length ≤ 48)) ++ leBytes 2 (min 48 left.length) ++ [0, 0] ++ slice left 0 48) := by
      simp [splitPart, List.append_assoc]
    rw [field, slice_append_right ha, hhead, slice_append_left (leBytes_length 1 service), leNat_leBytes, pow_one]
  · have hhead : a ++ splitPart service total left = (a ++ leBytes 1 service ++ leBytes 1
        (b2n (left.length == total) + 2 * b2n (left.length ≤ 48)) ++ leBytes 2 (min 48 left.length) ++ [0, 0]) ++ slice left 0 48 := by
      simp [splitPart, List.append_assoc]
    rw [hhead, slice_append_right (by simp [ha]), slice_self (slice_length left 0 48)]

/-- What follows SEQ: a part of the key exchange's second message, a part of a report, or the sender's own. -/
theorem numbered_s1_spec (s : State) (m : List Byte) :
    let n := (chanGet s (.s 1)).nextSeq
    let x := numbered s (.s 1) m
    slice x 0 2 = leBytes 2 n.toNat
      ∧ (s.sec.keOut ≠ [] → field x 2 1 = 1 ∧ slice x 8 48 = slice s.sec.keOut 0 48)
      ∧ (s.sec.keOut = [] → s.sec.reporting = true → field x 2 1 = 4 ∧ slice x 8 48 = slice s.sec.reportOut 0 48)
      ∧ (s.sec.keOut = [] → s.sec.reporting = false → slice x 2 62 = slice m 2 62) := by
  intro n x
  have hx : x = leBytes 2 n.toNat ++ nextS1Message s m := rfl
  have hseq : (leBytes 2 n.toNat).length = 2 := leBytes_length 2 _
  rw [hx]
  refine ⟨slice_append_left hseq, fun hke => ?_, fun hke hrep => ?_, fun hke hrep => ?_⟩
  · have hnext : nextS1Message s m = splitPart 1 160 s.sec.keOut := by simp [nextS1Message, hke]
    rw [hnext]
    exact slice_splitPart _ hseq 1 160 _
  · have hnext : nextS1Message s m = splitPart 4 0xAE0 s.sec.reportOut := by simp [nextS1Message, hke, hrep]
    rw [hnext]
    exact slice_splitPart _ hseq 4 0xAE0 _
  · have hnext : nextS1Message s m = slice m 2 62 := by simp [nextS1Message, hke, hrep]
    rw [hnext, slice_append_right hseq, slice_self (slice_length m 2 62)]

/-- An acknowledgement that ends sconce's message on S1 takes its part off what is still to be sent. -/
theorem ackWrite_sec_of_ends {s : State} {ch : Chan} {seq code : W16} (h : endsMessage (chanGet s ch) seq code = true) :
    (ackWrite s ch seq code).sec = (partDone s ch).sec := by
  have hack : ackWrite s ch seq code
      = signalClear (chanSet (if endsMessage (chanGet s ch) seq code then partDone s ch else s) ch
          (ackedChan (chanGet s ch) seq code)) ch := rfl
  rw [hack, h, if_pos rfl, (signalFrame_signalClear _ ch).sec, chanSet_sec]

/-- Settles O47: each service by its equation, and sconce's messages on S1 by what it keeps and posts. -/
theorem ownerAndSessions : Obligations.OwnerAndSessions := by
  refine ⟨?owner, ?sessions, ?messages⟩
  case owner =>
    intro s key sig back hs before bad
    refine ⟨fun k hk => ⟨live_svcTake_of_acked _ hs hk, live_svcTake_of_acked _ hs hk⟩,
      fun hnew hbad => ⟨live_svcTake_of_bad _ hs hnew hbad, live_svcTake_of_bad _ hs hnew hbad⟩,
      fun hnew hgood hnone hsound => ⟨?enrolled, ?unread⟩, fun hnew hgood hrefused => ?refused,
      fun hnew hgood howner => ?locked, fun hnew hgood hrefused => ?unlocked⟩
    all_goals have hexec (sig back : Bool) : exec (.ownerEnrol key sig back) s = .next (
        if enrolRefused s sig then svcAck s 6
        else if back then svcAck (extendEvent (enrolledFuses s ⟨key, true, back⟩) 1) 0
        else svcAck (enrolledFuses s ⟨key, true, back⟩) 6) :=
      (exec_ownerEnrol key sig back s).trans (live_svcTake_of_new _ hs hnew hgood)
    all_goals have hlock (sig : Bool) : exec (.ownerLock sig) s = .next (
        if (ownerKey s).isSome && sig then svcAck (extendEvent { s with fuses := { s.fuses with lock := true } } 2) 0
        else svcAck s 6) :=
      (exec_ownerLock sig s).trans (live_svcTake_of_new _ hs hnew hgood)
    case enrolled =>
      have hpermit : enrolRefused s true = false := by simp [enrolRefused, hnone, hsound]
      have hrun := hexec true true
      rw [hpermit] at hrun
      refine ⟨_, hrun, ?_, ?_⟩
      · exact (ownerKey_congr (svcAck_fuses _ _)).trans (ownerKey_enrolledFuses hnone key true)
      · rw [if_neg Bool.false_ne_true, if_pos rfl, svcAck_sec, extendEvent_meas, enrolledFuses_sec]
        rfl
    case unread =>
      have hpermit : enrolRefused s true = false := by simp [enrolRefused, hnone, hsound]
      have hrun := hexec true false
      rw [hpermit] at hrun
      refine ⟨_, hrun, ?_, ?_, ?_⟩
      · exact (ownerKey_congr (svcAck_fuses _ _)).trans (ownerKey_enrolledFuses hnone key false)
      · rw [if_neg Bool.false_ne_true, if_neg Bool.false_ne_true, svcAck_sec, enrolledFuses_sec]
      · rw [if_neg Bool.false_ne_true, if_neg Bool.false_ne_true, svcAck_fuses]
        exact enrolledFuses_anyBit s key false
    case refused =>
      have hrefuse : enrolRefused s sig = true := by simpa [enrolRefused, or_assoc] using hrefused
      rw [hexec, hrefuse, if_pos rfl]
    case locked =>
      refine ⟨_, hlock true, ?_, ?_⟩
      · rw [howner, Bool.true_and, if_pos rfl, svcAck_fuses]
        rfl
      · rw [howner, Bool.true_and, if_pos rfl, svcAck_sec, extendEvent_meas]
        rfl
    case unlocked =>
      have hno : ((ownerKey s).isSome && sig) = false := by
        rcases hrefused with hnone | hsig
        · rw [hnone]; rfl
        · rw [hsig, Bool.and_false]
      rw [hlock, hno]
      rfl
  case sessions =>
    intro s cert ok pay secret nonce hs before bad dropped certOk
    refine ⟨fun k hk => ⟨live_svcTake_of_acked _ hs hk, live_svcTake_of_acked _ hs hk, live_svcTake_of_acked _ hs hk⟩,
      fun hnew hbad => ⟨live_svcTake_of_bad _ hs hnew hbad, live_svcTake_of_bad _ hs hnew hbad,
        live_svcTake_of_bad _ hs hnew hbad⟩,
      fun hone => ?second, secondMessage_length s, secondMessage_take s, fun hone => ?notSecond, fun hnew hgood => ?taken⟩
    case second => rw [exec_keyExchange_second hs, if_pos hone]
    case notSecond => rw [exec_keyExchange_second hs, if_neg hone]
    case taken =>
      have hfirst := (exec_keyExchange_first cert pay s).trans (live_svcTake_of_new _ hs hnew hgood)
      have hthird (ok : Bool) := (exec_keyExchange_third ok secret s).trans (live_svcTake_of_new _ hs hnew hgood)
      have hreport := (exec_attestationReport nonce s).trans (live_svcTake_of_new _ hs hnew hgood)
      have hcert (x : Bool) (h : certOk x) : certRefused s x = false := (certRefused_iff s x).mpr h
      have hnocert (x : Bool) (h : ¬ certOk x) : certRefused s x = true := by
        rw [← Bool.not_eq_false, certRefused_iff]
        exact h
      refine ⟨fun hc => ?_, fun hc => ?_, fun htwo hc hbound => ⟨_, hthird true, ?_⟩, fun htwo hc => ?_, fun htwo hc hbound => ?_,
        fun htwo => ?_, fun hrep => ?_, fun hrep => ⟨_, hreport, ?_⟩⟩
      · rw [hfirst, hcert cert hc]; rfl
      · rw [hfirst, hnocert cert hc]; rfl
      · rw [hcert _ hc, hbound, if_neg (not_not.mpr htwo), Bool.not_true, Bool.false_or, if_neg Bool.false_ne_true,
          if_neg Bool.false_ne_true, svcAck_sec, svcAck_gateKey]
        exact ⟨rfl, rfl, rfl, rfl, rfl, extendEvent_meas _ 4⟩
      · have hstop : (!ok || certRefused s s.sec.keCert) = true := by
          rcases hc with rfl | hc
          · rfl
          · rw [hnocert _ hc, Bool.or_true]
        rw [hthird, if_neg (not_not.mpr htwo), hstop]
        rfl
      · rw [hthird, hcert _ hc, hbound, if_neg (not_not.mpr htwo)]
        rfl
      · rw [hthird, if_pos htwo]
      · rw [hreport, hrep]; rfl
      · rw [hrep, if_neg Bool.false_ne_true, svcAck_sec]
        exact ⟨rfl, rfl, _, rfl⟩
  case messages =>
    intro s m k seq code hs c posted
    refine ⟨fun hempty hfree => ?new, fun hempty hk => ?again, fun hk hreport hseq hbusy hnone => ?ended⟩
    case new =>
      obtain ⟨hposted, hnext⟩ := postedS1_new hempty m
      refine ⟨_, numbered s (.s 1) m, ?_, hposted, hnext, numbered_s1_spec s m⟩
      rw [exec_spoutSend_s1 hs, sendOn_new hempty (by decide) hfree]
    case again =>
      refine ⟨_, ?_, (postedS1_putMessage hempty hk).1⟩
      rw [exec_spoutSend_s1 hs, sendOn_again (by decide) hk]
    case ended =>
      have hshed : shedCode s (.s 1) code = code := by simp [shedCode]
      have hends : endsMessage c seq code = true := by
        rw [endsMessage, hk, bne_iff_ne.mpr hbusy, hseq]
        simp
      have hpart : (partDone s (.s 1)).sec = { s.sec with
          reportOut := s.sec.reportOut.drop 48, reporting := !(s.sec.reportOut.drop 48).isEmpty } := by
        simp [partDone, show (chanGet s (.s 1)).unacked = some k from hk, hreport]
      refine ⟨ackWrite s (.s 1) seq code, ?_, ?_, ?_, ?_⟩
      · rw [exec_spoutAck ⟨hs.1, fun _ _ _ => hs.2⟩, hshed, if_neg (by simpa using hnone)]
      · rw [ackWrite_sec_of_ends hends, hpart]
      · rw [chanGet_ackWrite_same]
        exact if_pos hends
      · rw [ackWrite_sec_of_ends hends, hpart]
        simp

end Sys2Proof.Machine

/-! # What no event changes

An event writes the log, the event handler, four power registers and the lanterns' gates, rewrites the shadow header and may end the jobs.
A relation between states that each of these writes keeps holds between the states before and after the event. -/

namespace Sys2Proof.Machine

open Sys2Proof

/-- A relation that every write of an event keeps. -/
structure EventRule (P : State → State → Prop) : Prop where
  refl : ∀ s, P s s
  trans : ∀ {a b c}, P a b → P b c → P a c
  ember : ∀ s e, P s { s with ember := e }
  safety : ∀ s f, P s { s with safety := f }
  stop : ∀ s, P s { s with pwr := { s.pwr with stop := true } }
  preS1 : ∀ s l, P s { s with pwr := { s.pwr with preS1 := l } }
  halted : ∀ s, P s { s with pwr := { s.pwr with waitGlow := false, heldStart := none } }
  gates : ∀ s, P s (keepGates s)
  jobs : ∀ s, P s (endJobs s)
  header : ∀ s, P s (refreshHeader s)

namespace EventRule

variable {P : State → State → Prop} (R : EventRule P)
include R

theorem emberEvent (s : State) (cls : EventClass) (words : List W32) (spec : Bool) :
    P s (Machine.emberEvent s cls words spec) := by
  obtain ⟨e, h⟩ := emberEvent_eq s cls words spec
  exact h ▸ R.ember s e

theorem emberFlushStart (s : State) : P s (Machine.emberFlushStart s) := by
  obtain ⟨e, h⟩ := emberFlushStart_eq s
  exact h ▸ R.ember s e

theorem assertStop (s : State) : P s (Machine.assertStop s) := R.trans (R.stop s) (R.safety _ _)

theorem stopAndFlush (s : State) : P s (Machine.emberFlushStart (Machine.assertStop s)) :=
  R.trans (R.assertStop s) (R.emberFlushStart _)

theorem jobsEnd (s : State) : P s (endJobs (keepGates (Machine.assertStop s))) :=
  R.trans (R.trans (R.assertStop s) (R.gates _)) (R.jobs _)

theorem enterHalt (s : State) : P s (Machine.enterHalt s) :=
  R.trans (R.trans (R.trans (R.jobsEnd s) (R.halted _)) (R.safety _ _)) (R.header _)

theorem beginRelight (s : State) : P s (Machine.beginRelight s) := by
  unfold Machine.beginRelight
  split
  · exact R.refl s
  · split
    · exact R.enterHalt s
    · exact R.trans (R.trans (R.jobsEnd s) (R.safety _ _)) (R.header _)

theorem handleNow (s : State) (e : EventClass × Nat) : P s (Machine.handleNow s e) := by
  unfold Machine.handleNow
  extract_lets f s1
  have hs1 : P s s1 := R.safety s _
  split
  · exact R.trans hs1 (R.beginRelight s1)
  · exact hs1

theorem queueOverflow (s : State) : P s (Machine.queueOverflow s) := by
  unfold Machine.queueOverflow
  extract_lets s1
  have hs1 : P s s1 := R.trans (R.emberEvent s _ _ _) (R.stopAndFlush _)
  clear_value s1
  split
  · exact R.trans hs1 (R.preS1 s1 _)
  · split
    · exact R.trans hs1 (R.safety s1 _)
    · exact R.trans hs1 (R.handleNow s1 _)

theorem handlerArrive (s : State) (cls : EventClass) : P s (Machine.handlerArrive s cls) := by
  unfold Machine.handlerArrive
  extract_lets e now
  split
  · exact R.handleNow s e
  · split
    · exact R.safety s _
    · exact R.queueOverflow s

theorem respondS1 (s : State) (cls : EventClass) : P s (Machine.respondS1 s cls) := by
  unfold Machine.respondS1
  extract_lets s1
  have hs1 : P s s1 := R.stopAndFlush s
  clear_value s1
  split
  · exact R.trans hs1 (R.enterHalt s1)
  · split
    · exact R.trans hs1 (R.preS1 s1 _)
    · exact R.trans hs1 (R.handlerArrive s1 cls)

/-- The rule for events: what each of their writes keeps, they keep. -/
theorem raise (s : State) (cls : EventClass) (words : List W32) : P s (Machine.raise s cls words) := by
  unfold Machine.raise raiseEv
  extract_lets s1
  have hs1 : P s s1 := R.emberEvent s _ _ _
  clear_value s1
  split
  · exact R.refl s
  · split
    · exact R.trans hs1 (R.respondS1 s1 cls)
    · exact R.trans hs1 (R.handlerArrive s1 cls)

end EventRule

end Sys2Proof.Machine

/-! # K-link ports and group exchanges (O41, O43)

An event may end the jobs and send their aborts over the ports (R385): it changes no more of a port than its sequence number and its
replay buffer. -/

namespace Sys2Proof.Machine

open Sys2Proof

/-! ## What a port sends -/

/-- No more than a sequence number and a replay buffer differ. -/
def SentOnly (p q : KPort) : Prop := ∃ n r, q = { p with txSeq := n, replay := r }

theorem SentOnly.refl (p : KPort) : SentOnly p p := ⟨p.txSeq, p.replay, rfl⟩

theorem SentOnly.trans {p q r : KPort} (h : SentOnly p q) (k : SentOnly q r) : SentOnly p r := by
  obtain ⟨_, _, rfl⟩ := h
  obtain ⟨_, _, rfl⟩ := k
  exact ⟨_, _, rfl⟩

theorem SentOnly.fields {p q : KPort} (h : SentOnly p q) :
    q.state = p.state ∧ q.retrains = p.retrains ∧ q.crcErr = p.crcErr := by
  obtain ⟨_, _, rfl⟩ := h
  exact ⟨rfl, rfl, rfl⟩

theorem sentOnly_set (ports : Vector KPort 4) (i : Fin 4) {k : KPort} (h : SentOnly (ports.get i) k) (q : Fin 4) :
    SentOnly (ports.get q) ((ports.set i k).get q) := by
  rw [Vector.get_eq_getElem, Vector.get_eq_getElem, Vector.getElem_set]
  split
  next hiq =>
    have : i = q := Fin.ext hiq
    subst this
    exact h
  next => exact .refl _

theorem sentOnly_sendOver (k : Klink) (routes : List (Option (Nat × Nat))) (m : KMsg) (q : Fin 4) :
    SentOnly (k.ports.get q) ((k.sendOver routes m).ports.get q) := by
  unfold Klink.sendOver
  split
  · exact .refl _
  · refine List.foldlRecOn (motive := fun u : Klink => SentOnly (k.ports.get q) (u.ports.get q)) routes _ (.refl _) ?_
    intro u hu r _
    cases r with
    | none => exact hu
    | some x => exact hu.trans (sentOnly_set u.ports _ (KPort.send_frame _ m) q)

theorem sentOnly_send (k : Klink) (m : KMsg) (q : Fin 4) : SentOnly (k.ports.get q) ((k.send m).ports.get q) :=
  sentOnly_sendOver k k.routes m q

/-! ## Events leave the ports' states -/

/-- The ports have sent at most. -/
def SameLinks (s t : State) : Prop := ∀ q, SentOnly (kGet s q) (kGet t q)

theorem SameLinks.of_klink {s t : State} (h : t.klink = s.klink) : SameLinks s t := fun q => by
  rw [kGet, kGet, h]
  exact .refl _

theorem SameLinks.trans {a b c : State} (h : SameLinks a b) (k : SameLinks b c) : SameLinks a c := fun q => (h q).trans (k q)

theorem refreshHeader_klink (s : State) : (refreshHeader s).klink = s.klink := by
  obtain ⟨r, h, heq⟩ := refreshHeader_frame s
  rw [heq]

theorem sameLinks_endJobs (s : State) : SameLinks s (endJobs s) := by
  intro q
  unfold endJobs
  obtain ⟨r, w, v, h, -⟩ := drainWaits_eq { s with
    jobs := []
    klink := (s.jobs.filter fun j => j.img.group.isSome).foldl (fun k j => k.send (.abort j.img.planId j.desc.tag)) s.klink }
  rw [h]
  exact List.foldlRecOn (motive := fun u : Klink => SentOnly (s.klink.ports.get q) (u.ports.get q)) _ _ (.refl _)
    fun u hu _ _ => hu.trans (sentOnly_send u _ q)

theorem keepGates_klink (s : State) : (keepGates s).klink = s.klink := by unfold keepGates; rfl

/-- The aborts that the jobs' end sends are all that an event writes of the ports. -/
theorem sameLinks_events : EventRule SameLinks where
  refl _ := .of_klink rfl
  trans := SameLinks.trans
  ember _ _ := .of_klink rfl
  safety _ _ := .of_klink rfl
  stop _ := .of_klink rfl
  preS1 _ _ := .of_klink rfl
  halted _ := .of_klink rfl
  gates s := .of_klink (keepGates_klink s)
  jobs := sameLinks_endJobs
  header s := .of_klink (refreshHeader_klink s)

theorem sameLinks_raise (s : State) (cls : EventClass) (words : List W32) : SameLinks s (raise s cls words) :=
  sameLinks_events.raise s cls words

/-! ## Port states (R375) -/

@[simp] theorem kGet_kSet_same (s : State) (p : Fin 4) (k : KPort) : kGet (kSet s p k) p = k := by
  simp [kGet, kSet, Vector.get_eq_getElem]

theorem kGet_kSet_of_ne (s : State) {p q : Fin 4} (h : q ≠ p) (k : KPort) : kGet (kSet s p k) q = kGet s q := by
  simp only [kGet, kSet, Vector.get_eq_getElem]
  exact Vector.getElem_set_ne _ _ fun hval => h (Fin.ext hval.symm)

@[simp] theorem kSet_kSet (s : State) (p : Fin 4) (k l : KPort) : kSet (kSet s p k) p l = kSet s p l := by
  simp [kSet]

/-- The state to which a write of `KL_CTRL` takes a port. -/
def enabledState (on : Bool) (n : Nat) : Nat := if on then (if n = 0 then 1 else n) else 0

theorem kEnable_state (on : Bool) (s : State) (p : Fin 4) : (kGet (kEnable on s p) p).state = enabledState on (kGet s p).state := by
  unfold kEnable enabledState
  dsimp only
  split
  · split <;> simp_all [kTrain]
  · split <;> simp_all

theorem kEnable_cases (on : Bool) (s : State) (p : Fin 4) : kEnable on s p = s ∨ ∃ k, kEnable on s p = kSet s p k := by
  unfold kEnable kTrain
  dsimp only
  split
  · split
    · exact .inr ⟨_, rfl⟩
    · exact .inl rfl
  · split
    · exact .inl rfl
    · exact .inr ⟨_, rfl⟩

theorem kGet_kEnable_of_ne (on : Bool) (s : State) {p q : Fin 4} (h : q ≠ p) : kGet (kEnable on s p) q = kGet s q := by
  rcases kEnable_cases on s p with heq | ⟨k, heq⟩ <;> rw [heq]
  exact kGet_kSet_of_ne s h k

theorem kEnable_enable (on : Bool) (s : State) (p : Fin 4) : (kEnable on s p).klink.enable = s.klink.enable := by
  rcases kEnable_cases on s p with heq | ⟨k, heq⟩ <;> rw [heq]
  rfl

/-- Each port of a list without repeats is taken to its state once. -/
theorem kEnables_state (on : Fin 4 → Bool) {l : List (Fin 4)} (hl : l.Nodup) (s : State) (q : Fin 4) :
    (kGet (l.foldl (fun s p => kEnable (on p) s p) s) q).state
      = if q ∈ l then enabledState (on q) (kGet s q).state else (kGet s q).state := by
  induction l generalizing s with
  | nil => simp
  | cons p t ih =>
    obtain ⟨hp, ht⟩ := List.nodup_cons.mp hl
    rw [List.foldl_cons, ih ht]
    by_cases hq : q = p
    · subst hq
      rw [if_neg hp, if_pos (List.mem_cons_self ..), kEnable_state]
    · rw [kGet_kEnable_of_ne _ s hq]
      simp [hq]

theorem klCtrlWrite_enable (s : State) (v : W32) : (klCtrlWrite s v).klink.enable = BitVec.ofNat 4 v.toNat :=
  List.foldlRecOn (motive := fun t : State => t.klink.enable = BitVec.ofNat 4 v.toNat) (List.finRange 4) _ rfl
    fun t ht p _ => (kEnable_enable _ t p).trans ht

theorem klCtrlWrite_state (s : State) (v : W32) (q : Fin 4) :
    (kGet (klCtrlWrite s v) q).state = enabledState (v.getLsbD q.val) (kGet s q).state := by
  refine (kEnables_state (fun p => v.getLsbD p.val) (List.nodup_finRange 4) _ q).trans ?_
  rw [if_pos (List.mem_finRange q)]
  rfl

/-- A port that leaves for state 4. -/
theorem kFail_eq (s : State) (p : Fin 4) :
    kFail s p = kSet s p { kGet s p with state := 4, partner := none, since := s.pwr.ticks } := rfl

/-- An up port that is lost trains again: counted, logged, and a reason for a new group map (R379). -/
theorem kRetrain_spec (s : State) (p : Fin 4) :
    (kGet (kRetrain s p) p).state = 1 ∧ (kGet (kRetrain s p) p).retrains = satInc (kGet s p).retrains
      ∧ (kGet (kRetrain s p) p).crcErr = (kGet s p).crcErr ∧ (kRetrain s p).klink.changeAt = some s.pwr.ticks := by
  let s1 := kTrain s p { kGet s p with retrains := satInc (kGet s p).retrains }
  have hlinks : SameLinks s1 (raise (raise s1 .klinkRetrain []) .klinkDown []) :=
    (sameLinks_raise s1 _ _).trans (sameLinks_raise _ _ _)
  have hticks : (raise (raise s1 .klinkRetrain []) .klinkDown []).pwr.ticks = s.pwr.ticks := by
    rw [raise_pwr_ticks, raise_pwr_ticks]
    rfl
  have htrain : kGet s1 p = { kGet s p with retrains := satInc (kGet s p).retrains, state := 1, attempts := 0, partner := none, crcRun := 0, since := s.pwr.ticks } := kGet_kSet_same ..
  obtain ⟨hstate, hretrains, hcrc⟩ := (hlinks p).fields
  rw [htrain] at hstate hretrains hcrc
  exact ⟨hstate, hretrains, hcrc, congrArg some hticks⟩

/-! ## Training and certificates -/

theorem exec_klinkTrained {s : State} (hs : Live s) (p : Fin 4) : exec (.klinkTrained p) s = .next (
    if (kGet s p).state == 1 then kSet s p { kGet s p with state := 2, since := s.pwr.ticks } else s) :=
  live_of_hub hs fun s => if (kGet s p).state == 1 then kSet s p { kGet s p with state := 2, since := s.pwr.ticks } else s

theorem exec_klinkTrainTimeout {s : State} (hs : Live s) (p : Fin 4) : exec (.klinkTrainTimeout p) s = .next (
    if (kGet s p).state != 1 || s.pwr.ticks < (kGet s p).since + 320000 then s
    else if (kGet s p).attempts + 1 < 3 then
      kSet s p { kGet s p with attempts := (kGet s p).attempts + 1, since := s.pwr.ticks }
    else kFail s p) :=
  live_of_hub hs fun s => if (kGet s p).state != 1 || s.pwr.ticks < (kGet s p).since + 320000 then s
    else if (kGet s p).attempts + 1 < 3 then
      kSet s p { kGet s p with attempts := (kGet s p).attempts + 1, since := s.pwr.ticks }
    else kFail s p

/-- A port that comes up. -/
def portUp (s : State) (p : Fin 4) (partner : Digest) : KPort :=
  { kGet s p with
    state := 3, partner := some partner, crcRun := 0, rxSeq := 0, txAck := 0xFFF, since := s.pwr.ticks
    txSeq := BitVec.ofNat 12 (kGet s p).replay.length
    replay := (kGet s p).replay.mapIdx fun i e => (BitVec.ofNat 12 i, e.2) }

theorem exec_klinkCertReceived {s : State} (hs : Live s) (p : Fin 4) (ok : Bool) (key : BitVec 512) (d : Digest) :
    exec (.klinkCertReceived p ok key d) s = .next (
      if (kGet s p).state != 2 then s
      else if ok && ownerKey s == some key then mapDue (findAgain (kSet s p (portUp s p d)))
      else raise (kFail s p) .klinkCertFail []) :=
  live_of_hub hs fun s => if (kGet s p).state != 2 then s
      else if ok && ownerKey s == some key then mapDue (findAgain (kSet s p (portUp s p d)))
      else raise (kFail s p) .klinkCertFail []

theorem exec_klinkCertTimeout {s : State} (hs : Live s) (p : Fin 4) : exec (.klinkCertTimeout p) s = .next (
    if (kGet s p).state == 2 && (kGet s p).since + 160000 ≤ s.pwr.ticks then raise (kFail s p) .klinkCertFail [] else s) :=
  live_of_hub hs fun s =>
    if (kGet s p).state == 2 && (kGet s p).since + 160000 ≤ s.pwr.ticks then raise (kFail s p) .klinkCertFail [] else s

theorem exec_klinkLockLoss {s : State} (hs : Live s) (p : Fin 4) :
    exec (.klinkLockLoss p) s = .next (if (kGet s p).state == 3 then kRetrain s p else s) :=
  live_of_hub hs fun s => if (kGet s p).state == 3 then kRetrain s p else s

/-! ## Packets (R373, R374, R387) -/

/-- A good packet's acknowledgement on a port. -/
def ackedPort (k : KPort) (x : KPacket) : KPort :=
  { k with crcRun := 0, txAck := x.ack, replay := k.replay.filter fun e => !seqAcked x.ack e.1 }

/-- A packet in sequence is taken. -/
def takenPort (k : KPort) (x : KPacket) : KPort :=
  { ackedPort k x with rxSeq := k.rxSeq + 1, rxBytes := k.rxBytes + x.len }

/-- The replay buffer keeps what stands after the acknowledgement, in arithmetic modulo 4,096. -/
theorem ackedPort_eq (k : KPort) (x : KPacket) : ackedPort k x = { k with
    crcRun := 0, txAck := x.ack, replay := k.replay.filter fun e => decide (2048 ≤ (x.ack - e.1).toNat) } := by
  have hfilter (e : BitVec 12 × KMsg) : (!seqAcked x.ack e.1) = decide (2048 ≤ (x.ack - e.1).toNat) := by
    simp [seqAcked, ← decide_not]
  simp only [ackedPort, hfilter]

/-- The raw depth that a packet carries reaches a receiver's bitmap. -/
def tapped (s t : State) (x : KPacket) : State :=
  match x.raw with
  | some (c, f, ns) => if isReceiver s then applyTap t c ns f.pixels else t
  | none => t

theorem exec_klinkPacketReceived {s : State} (hs : Live s) {p : Fin 4} (hup : (kGet s p).state = 3) (x : KPacket) :
    exec (.klinkPacketReceived p x) s = .next (
      let failed := kSet s p { kGet s p with crcErr := satInc (kGet s p).crcErr, crcRun := (kGet s p).crcRun + 1 }
      if x.sync != 0b10 then s
      else if !x.crcOk then (if 8 ≤ (kGet s p).crcRun + 1 then kRetrain failed p else failed)
      else if x.seq != (kGet s p).rxSeq then kSet s p (ackedPort (kGet s p) x)
      else tapped s (kSet s p (takenPort (kGet s p) x)) x) := by
  have hexec : exec (.klinkPacketReceived p x) s = execKlinkPacketReceived p x s := rfl
  have hopen : ((kGet s p).state != 3 || x.sync != 0b10) = (x.sync != 0b10) := by
    rw [hup]
    rfl
  have htaken : kSet (kSet s p (ackedPort (kGet s p) x)) p { kGet (kSet s p (ackedPort (kGet s p) x)) p with
      rxSeq := (kGet s p).rxSeq + 1, rxBytes := (kGet s p).rxBytes + x.len } = kSet s p (takenPort (kGet s p) x) := by
    rw [kGet_kSet_same, kSet_kSet]
    rfl
  rw [hexec, execKlinkPacketReceived, live_of_hub hs]
  dsimp only
  rw [hopen, tapped, ← htaken]
  rfl

/-- Settles O41: each command by its equation, for the states of R375. -/
theorem klinkPorts : Obligations.KlinkPorts := by
  constructor
  · intro s p v key d hs k
    refine ⟨fun hlink => ⟨klCtrlWrite s v, busLive_of_onLink ⟨hs, hlink⟩ fun s => klCtrlWrite s v, klCtrlWrite_enable s v,
        klCtrlWrite_state s v⟩, fun hone => ?trained, fun hone hlate hfew => ?retry, fun hone hlate hall => ?failed,
      fun htwo hkey => ⟨mapDue (findAgain (kSet s p (portUp s p d))), ?certified, ?certPort⟩, fun htwo hkey => ?refused,
      fun htwo hlate => ?uncertified, fun hearly => ⟨?early, ?earlyCert⟩, fun hup => ⟨kRetrain s p, ?lost, ?lostState⟩⟩
    case trained => rw [exec_klinkTrained hs, if_pos (beq_iff_eq.mpr hone)]
    case retry =>
      rw [exec_klinkTrainTimeout hs, if_neg (by simp [show (kGet s p).state = 1 from hone, show (kGet s p).since + 320000 ≤ _ from hlate]),
        if_pos (show (kGet s p).attempts + 1 < 3 from Nat.succ_lt_succ hfew)]
    case failed =>
      rw [exec_klinkTrainTimeout hs, if_neg (by simp [show (kGet s p).state = 1 from hone, show (kGet s p).since + 320000 ≤ _ from hlate]),
        if_neg (show ¬ (kGet s p).attempts + 1 < 3 from Nat.not_lt.mpr (Nat.succ_le_succ hall)), kFail_eq]
    case certified =>
      rw [exec_klinkCertReceived hs, if_neg (by simp [show (kGet s p).state = 2 from htwo]), if_pos (by simp [hkey])]
    case certPort =>
      have hport : kGet (mapDue (findAgain (kSet s p (portUp s p d)))) p = portUp s p d := kGet_kSet_same s p _
      rw [hport]
      exact ⟨rfl, rfl, rfl⟩
    case refused =>
      rw [exec_klinkCertReceived hs, if_neg (by simp [show (kGet s p).state = 2 from htwo]), if_neg (by simp [hkey]), kFail_eq]
    case uncertified =>
      rw [exec_klinkCertTimeout hs,
        if_pos (by simp [show (kGet s p).state = 2 from htwo, show (kGet s p).since + 160000 ≤ _ from hlate]), kFail_eq]
    case early =>
      have hbefore : s.pwr.ticks < (kGet s p).since + 320000 := hearly.trans (Nat.add_lt_add_left (by decide) _)
      rw [exec_klinkTrainTimeout hs, if_pos (by simp [hbefore])]
    case earlyCert =>
      have hbefore : ¬ (kGet s p).since + 160000 ≤ s.pwr.ticks := Nat.not_le.mpr hearly
      rw [exec_klinkCertTimeout hs, if_neg (by simp [hbefore])]
    case lost => rw [exec_klinkLockLoss hs, if_pos (beq_iff_eq.mpr hup)]
    case lostState =>
      obtain ⟨hstate, hretrains, -, hchange⟩ := kRetrain_spec s p
      exact ⟨hstate, hretrains, hchange⟩
  · intro s p x hs hup k acked taken
    have hpacket := exec_klinkPacketReceived hs hup x
    have hacked : ackedPort k x = acked := ackedPort_eq k x
    have htaken : kSet s p (takenPort k x) = taken := by
      rw [takenPort, hacked]
    refine ⟨fun hsync => ?other, fun hsync => ⟨fun hgood => ⟨fun hseq => ?outOfSeq, fun hseq => ?inSeq⟩, fun hbad => ?failed⟩⟩
    case other => rw [hpacket, if_pos (bne_iff_ne.mpr hsync)]
    all_goals rw [if_neg (by simp [hsync])] at hpacket
    case outOfSeq =>
      rw [hpacket, if_neg (by simp [hgood]), if_pos (bne_iff_ne.mpr hseq)]
      rw [show ackedPort (kGet s p) x = acked from hacked]
    case inSeq =>
      rw [if_neg (by simp [hgood]), if_neg (by simp [show x.seq = (kGet s p).rxSeq from hseq]),
        show kSet s p (takenPort (kGet s p) x) = taken from htaken, tapped] at hpacket
      refine ⟨fun hraw => ?_, fun cfg set ns hraw => ?_⟩ <;> rw [hpacket, hraw]
    case failed =>
      rw [if_pos (by simp [hbad])] at hpacket
      refine ⟨fun hfew => ?_, fun hmany => ?_⟩
      · rw [hpacket, if_neg (show ¬ 8 ≤ (kGet s p).crcRun + 1 from Nat.not_le.mpr (Nat.succ_lt_succ hfew))]
      · rw [hpacket, if_pos (show 8 ≤ (kGet s p).crcRun + 1 from Nat.succ_le_succ hmany)]
        obtain ⟨hstate, hretrains, hcrc, -⟩ := kRetrain_spec
          (kSet s p { kGet s p with crcErr := satInc (kGet s p).crcErr, crcRun := (kGet s p).crcRun + 1 }) p
        rw [kGet_kSet_same] at hretrains hcrc
        exact ⟨_, rfl, hstate, hcrc, hretrains⟩

/-! ## Group exchanges (R383, R384, R385) -/

theorem exec_klinkExchangeReceived {s : State} (hs : Live s) (tag : ExchTag) (b : BList) :
    exec (.klinkExchangeReceived tag b) s = .next (
      if storeFits s b then { s with klink := { s.klink with store := s.klink.store ++ [(tag, b, s.grid.count)] } } else s) :=
  live_of_hub hs fun s =>
    if storeFits s b then { s with klink := { s.klink with store := s.klink.store ++ [(tag, b, s.grid.count)] } } else s

/-- Data of an exchange that has waited 64 slot periods. -/
def expired (s : State) (tag : ExchTag) (e : ExchTag × BList × Nat) : Bool := e.1 == tag && e.2.2 + 64 ≤ s.grid.count

theorem expired_eq (s : State) (tag : ExchTag) (e : ExchTag × BList × Nat) :
    expired s tag e = decide (e.1 = tag ∧ e.2.2 + 64 ≤ s.grid.count) := by
  rw [expired, Bool.decide_and, beq_eq_decide]

theorem exec_klinkExchExpired {s : State} (hs : Live s) (tag : ExchTag) :
    exec (.klinkExchExpired tag) s = .next (
      if s.klink.store.any (expired s tag) then
        raise { s with klink := { s.klink with store := s.klink.store.filter fun e => !expired s tag e } } .klinkExchExpired []
      else s) :=
  live_of_hub hs fun s =>
    if s.klink.store.any (expired s tag) then
      raise { s with klink := { s.klink with store := s.klink.store.filter fun e => !expired s tag e } } .klinkExchExpired []
    else s

theorem exec_klinkExchangeRead_of_due {s : State} (hs : Live s) {j : Job} {k : Nat} (hj : findJob s j.ref = some j)
    (hk : dueExchange j = some k) : exec (.klinkExchangeRead j.ref) s = .next (readExchange s j k) := by
  have hexec : exec (.klinkExchangeRead j.ref) s = execKlinkExchangeRead j.ref s := rfl
  rw [hexec, execKlinkExchangeRead, live_of_hub hs, hj, Option.bind_some, hk, Option.map_some]

theorem exec_klinkExchangeRead_of_none {s : State} (hs : Live s) {j : Job} (hj : findJob s j.ref = some j)
    (hk : dueExchange j = none) : exec (.klinkExchangeRead j.ref) s = .next s := by
  have hexec : exec (.klinkExchangeRead j.ref) s = execKlinkExchangeRead j.ref s := rfl
  rw [hexec, execKlinkExchangeRead, live_of_hub hs, hj, Option.bind_some, hk, Option.map_none]

/-- The job with the inputs of an exchange taken. -/
def exchTaken (s : State) (j : Job) (k : Nat) : Job :=
  { j with lists := (takenInputs s j k).foldl (fun m e => m.put e.1 e.2) j.lists, exchRead := k :: j.exchRead }

/-- The state with the inputs of an exchange taken from the store. -/
def inputsTaken (s : State) (j : Job) (k : Nat) : State :=
  modJob { s with klink := { s.klink with store := s.klink.store.filter fun e => !isInput j k e } } j.ref fun x =>
    { x with lists := (takenInputs s j k).foldl (fun m e => m.put e.1 e.2) x.lists, exchRead := k :: x.exchRead }

/-- A job that is to end at the next boundary for an event of this class. -/
def failNow (s : State) (r : JobRef) (cls : EventClass) : State :=
  modJob (raise s cls []) r fun j => { j with endAs := j.endAs.orNow cls }

theorem readExchange_eq (s : State) (j : Job) (k : Nat) : readExchange s j k =
    if ((otherMembers s).map fun g => inputState s j k g).any (·.isNone) then failNow (inputsTaken s j k) j.ref .klinkLate
    else if ((otherMembers s).map fun g => inputState s j k g).any (· == some false) then
      failNow (inputsTaken s j k) j.ref .groupEpochSkew
    else inputsTaken s j k := rfl

theorem findJob_inputsTaken {s : State} {j : Job} (hj : findJob s j.ref = some j) (k : Nat) :
    findJob (inputsTaken s j k) j.ref = some (exchTaken s j k) :=
  findJob_modJob { s with klink := { s.klink with store := s.klink.store.filter fun e => !isInput j k e } } j.ref _ j hj rfl

theorem orNow_of_open {e : JobEnd} (h : e = .none ∨ ∃ c, e = .fault c) (cls : EventClass) : e.orNow cls = .faultNow cls := by
  rcases h with rfl | ⟨c, rfl⟩ <;> rfl

/-- With room in the queue an event of severity 2 or less ends a running job that it names, and leaves it otherwise as it is. -/
theorem findJob_failNow {s : State} {r : JobRef} {j : Job} (hj : findJob s r = some j) {cls : EventClass}
    (hlow : cls.severity ≠ 1) (hroom : s.safety.queue.length < 8) :
    findJob (failNow s r cls) r = some { j with endAs := j.endAs.orNow cls } := by
  obtain ⟨e, f, hraise, -⟩ := raise_low s cls [] hlow hroom
  have hkept : findJob (raise s cls []) r = some j := by
    rw [hraise]
    exact hj
  exact findJob_modJob _ r _ j hkept rfl

theorem endAs_failNow_inputsTaken {s : State} {j : Job} (hj : findJob s j.ref = some j) (k : Nat)
    (hroom : s.safety.queue.length < 8) (hopen : j.endAs = .none ∨ ∃ c, j.endAs = .fault c) {cls : EventClass}
    (hlow : cls.severity ≠ 1) :
    (findJob (failNow (inputsTaken s j k) j.ref cls) j.ref).map (·.endAs) = some (.faultNow cls) := by
  have hq : (inputsTaken s j k).safety.queue.length < 8 := hroom
  rw [findJob_failNow (findJob_inputsTaken hj k) hlow hq]
  exact congrArg some (orNow_of_open hopen cls)

/-- The jobs that run this plan with this tag for the group. -/
def runsCopy (plan tag : W32) (j : Job) : Bool := j.img.planId == plan && j.desc.tag == tag && (groupOf j).isSome

/-- What a peer's abort leaves before its event: the running copies are to end, and the waiting ones are noted. -/
def peerAborted (s : State) (plan tag : W32) : State :=
  let s1 := failNowWhere s .groupPeerAbort (runsCopy plan tag)
  if s.descs.any (isCopy s plan tag) then
    { s1 with klink := { s1.klink with peerAborts := s1.klink.peerAborts ++ [(plan, tag)] } }
  else s1

theorem exec_groupAbortReceived {s : State} (hs : Live s) (plan tag : W32) : exec (.groupAbortReceived plan tag) s = .next (
    if s.descs.any (isCopy s plan tag) || s.jobs.any (runsCopy plan tag) then raise (peerAborted s plan tag) .groupPeerAbort []
    else s) :=
  live_of_hub hs fun s =>
    if s.descs.any (isCopy s plan tag) || s.jobs.any (runsCopy plan tag) then raise (peerAborted s plan tag) .groupPeerAbort []
    else s

theorem peerAborted_of_all {s : State} {plan tag : W32} (h : ∀ j ∈ s.jobs, runsCopy plan tag j = true) :
    (peerAborted s plan tag).jobs = s.jobs.map (fun j => { j with endAs := j.endAs.orNow .groupPeerAbort })
      ∧ (peerAborted s plan tag).safety = s.safety := by
  have hjobs : (failNowWhere s .groupPeerAbort (runsCopy plan tag)).jobs
      = s.jobs.map fun j => { j with endAs := j.endAs.orNow .groupPeerAbort } :=
    List.map_congr_left fun j hj => if_pos (h j hj)
  unfold peerAborted
  split <;> exact ⟨hjobs, rfl⟩

theorem failNowWhere_of_idle {s : State} (h : s.jobs = []) (cls : EventClass) (p : Job → Bool) : failNowWhere s cls p = s := by
  have hjobs : s.jobs.map (fun j => if p j then { j with endAs := j.endAs.orNow cls } else j) = s.jobs := by rw [h, List.map_nil]
  rw [failNowWhere, hjobs]

/-! ## The shared world and shared arms (R386, R388) -/

theorem exec_worldMasterReceived {s : State} (hs : Live s) (w : WorldSet) : exec (.worldMasterReceived w) s = .next (
    if !sourceOk s then s
    else if w.complete then setEpoch (takeWorldSet s w) w.epoch w.teNs else takeWorldSet s w) :=
  live_of_hub hs fun s =>
    if !sourceOk s then s
    else if w.complete then setEpoch (takeWorldSet s w) w.epoch w.teNs else takeWorldSet s w

@[simp] theorem storeAt_pwr (s : State) (base : Nat) (bs : List (Nat × Byte)) : (storeAt s base bs).pwr = s.pwr :=
  List.foldlRecOn (motive := fun t : State => t.pwr = s.pwr) bs _ rfl fun _ ht _ _ => ht

theorem takeWorldSet_pwr (s : State) (w : WorldSet) : (takeWorldSet s w).pwr = s.pwr := by
  unfold takeWorldSet
  dsimp only
  rw [storeAt_pwr]
  refine List.foldlRecOn (motive := fun t : State => t.pwr = s.pwr) _ _ ?_ fun t ht m _ => ?_
  · exact List.foldlRecOn (motive := fun t : State => t.pwr = s.pwr) _ _ rfl fun t ht m _ => (storeAt_pwr ..).trans ht
  · rw [noteSpec_pwr, storeAt_pwr, ht]

/-- The world that an epoch begins. -/
def worldAt (s : State) (e : W32) (teNs : Nat) : State :=
  { s with
    world := { s.world with epoch := e, lastAdvance := s.pwr.ticks, built := true, era := true
                            tePrev := if s.world.era then some s.world.teNs else none, teNs := teNs, staleLogged := false }
    safety := { s.safety with stale := false } }

theorem setEpoch_world (s : State) (e : W32) (teNs : Nat) : (setEpoch s e teNs).world = (worldAt s e teNs).world := by
  have heq : setEpoch s e teNs = refreshHeader (matchWorld (worldAt s e teNs)) := rfl
  rw [heq, refreshHeader_world]
  exact (weirFrame_matchWhere _ _ _).world

theorem setEpoch_mem (s : State) (e : W32) (teNs : Nat) : (setEpoch s e teNs).mem = s.mem := by
  have heq : setEpoch s e teNs = refreshHeader (matchWorld (worldAt s e teNs)) := rfl
  rw [heq, refreshHeader_mem]
  exact (weirFrame_matchWhere _ _ _).mem

/-- Settles O43: each command by its equation, on the store's and the jobs' contents. -/
theorem groupExchanges : Obligations.GroupExchanges := by
  constructor
  · intro s tag b j plan t0 hs
    refine ⟨fun hfits => ?fits, fun hold => ?expired, fun hyoung => ?young, fun k hj hroom hopen hk => ?read, fun hk hj => exec_klinkExchangeRead_of_none hs hj hk,
      fun hroom hall hsome => ?aborted, fun hidle hwaits => ?waiting⟩
    case fits => rw [exec_klinkExchangeReceived hs, if_pos hfits]
    case expired =>
      obtain ⟨e, he, hdue⟩ := hold
      rw [exec_klinkExchExpired hs, if_pos (List.any_eq_true.mpr ⟨e, he, (expired_eq s tag e).trans (decide_eq_true hdue)⟩)]
      simp only [expired_eq]
    case young =>
      have hnone : ¬ s.klink.store.any (expired s tag) = true := by
        rw [List.any_eq_true]
        rintro ⟨e, he, hdue⟩
        rw [expired_eq, decide_eq_true_eq] at hdue
        exact absurd (hyoung e he hdue.1) (Nat.not_lt.mpr hdue.2)
      rw [exec_klinkExchExpired hs, if_neg hnone]
    case read =>
      intro inputs
      refine ⟨fun hall => ?taken, fun habsent => ?late, fun hpresent hskew => ?skew⟩
      case taken =>
        have hgood : inputs.any (·.isNone) = false ∧ inputs.any (· == some false) = false := by
          refine ⟨List.any_eq_false.mpr fun x hx => ?_, List.any_eq_false.mpr fun x hx => ?_⟩ <;> rw [hall x hx] <;> decide
        refine ⟨inputsTaken s j k, ?_, rfl, findJob_inputsTaken hj k⟩
        rw [exec_klinkExchangeRead_of_due hs hj hk, readExchange_eq, if_neg (by rw [hgood.1]; decide), if_neg (by rw [hgood.2]; decide)]
      case late =>
        refine ⟨_, ?_, endAs_failNow_inputsTaken hj k hroom hopen (cls := .klinkLate) (by decide)⟩
        rw [exec_klinkExchangeRead_of_due hs hj hk, readExchange_eq, if_pos (List.any_eq_true.mpr ⟨none, habsent, rfl⟩)]
      case skew =>
        have hnone : ¬ inputs.any (·.isNone) = true := by
          rw [List.any_eq_true]
          rintro ⟨x, hx, hnone⟩
          exact hpresent (Option.isNone_iff_eq_none.mp hnone ▸ hx)
        refine ⟨_, ?_, endAs_failNow_inputsTaken hj k hroom hopen (cls := .groupEpochSkew) (by decide)⟩
        rw [exec_klinkExchangeRead_of_due hs hj hk, readExchange_eq, if_neg hnone,
          if_pos (List.any_eq_true.mpr ⟨some false, hskew, by decide⟩)]
    case aborted =>
      have hmine (k : Job) (hk : k ∈ s.jobs) : runsCopy plan t0 k = true := by
        obtain ⟨hplan, htag, hgroup⟩ := hall k hk
        simp [runsCopy, groupOf, hplan, htag, hgroup]
      obtain ⟨j, hj⟩ := List.exists_mem_of_ne_nil _ hsome
      have hruns : s.jobs.any (runsCopy plan t0) = true := List.any_eq_true.mpr ⟨j, hj, hmine j hj⟩
      obtain ⟨hjobs, hsafety⟩ := peerAborted_of_all hmine
      have hq : (peerAborted s plan t0).safety.queue.length < 8 := hsafety ▸ hroom
      obtain ⟨e, f, hraise, -⟩ := raise_low (peerAborted s plan t0) .groupPeerAbort [] (by decide) hq
      refine ⟨_, (exec_groupAbortReceived hs plan t0).trans (congrArg _ (if_pos (by simp [hruns]))), ?_⟩
      rw [hraise]
      exact hjobs
    case waiting =>
      have hwaiting : s.descs.any (isCopy s plan t0) = true := List.any_eq_true.mpr hwaits
      have hwait : peerAborted s plan t0
          = { s with klink := { s.klink with peerAborts := s.klink.peerAborts ++ [(plan, t0)] } } := by
        rw [peerAborted, failNowWhere_of_idle hidle]
        exact if_pos hwaiting
      rw [exec_groupAbortReceived hs, if_pos (by simp [hwaiting]), hwait]
  · intro s w x hs
    refine ⟨fun hok hpart => ?part, fun hok hall => ⟨setEpoch (takeWorldSet s w) w.epoch w.teNs, ?all, ?world⟩, fun a b => rfl,
      fun m a b => rfl, fun hbad => ?bad, ?partner⟩
    case part => rw [exec_worldMasterReceived hs, if_neg (by simp [hok]), if_neg (by simp [hpart])]
    case all => rw [exec_worldMasterReceived hs, if_neg (by simp [hok]), if_pos hall]
    case world =>
      rw [setEpoch_world, setEpoch_mem]
      exact ⟨rfl, rfl, rfl, rfl, congrArg (·.ticks) (takeWorldSet_pwr s w)⟩
    case bad => rw [exec_worldMasterReceived hs, if_pos (by simp [hbad])]
    case partner =>
      exact live_of_hub hs fun s => { s with klink := { s.klink with
        partners := x :: liveTrajs (s.klink.partners.filter fun t => t.robot == x.robot) (asNs s)
          ++ s.klink.partners.filter fun t => t.robot != x.robot } }

end Sys2Proof.Machine

/-! # Motion ports (O39, O40) -/

namespace Sys2Proof.Machine

open Sys2Proof

/-! ## Time (R397) -/

/-- The best clock's choice, as the spec puts it. -/
theorem bestClock_iff (s : State) (a : Option (Byte × Bool)) : bestClock s a = true ↔ ∀ q better, a = some (q, better) →
    s.motion.priority1.toNat < q.toNat ∨ (s.motion.priority1 = q ∧ better = true) := by
  rcases a with - | ⟨p, better⟩
  · simp [bestClock]
  · simp [bestClock]

theorem exec_ptpFrameReceived {s : State} (hs : Live s) (y valid : Bool) (ns : Nat) (a : Option (Byte × Bool)) :
    exec (.ptpFrameReceived y valid ns a) s = .next (
      if !valid then s
      else if s.motion.gmRole && bestClock s a then
        syncBack { s with motion := { s.motion with gm := s.motion.gmRole && bestClock s a } }
      else if !y then { s with motion := { s.motion with gm := s.motion.gmRole && bestClock s a } }
      else syncBack { s with
        grid := { s.grid with asTime := 4 * ns }
        motion := { s.motion with gm := s.motion.gmRole && bestClock s a, sync := true, syncAt := s.pwr.ticks } }) :=
  live_of_hub hs fun s =>
      if !valid then s
      else if s.motion.gmRole && bestClock s a then
        syncBack { s with motion := { s.motion with gm := s.motion.gmRole && bestClock s a } }
      else if !y then { s with motion := { s.motion with gm := s.motion.gmRole && bestClock s a } }
      else syncBack { s with
        grid := { s.grid with asTime := 4 * ns }
        motion := { s.motion with gm := s.motion.gmRole && bestClock s a, sync := true, syncAt := s.pwr.ticks } }

/-- The state in which a loss of synchronisation leaves the publishing jobs, before its event. -/
def unsynced (s : State) : State :=
  { s with
    motion := { s.motion with sync := false, syncLost := true }
    jobs := s.jobs.map fun j => if j.img.publishes then { j with endAs := j.endAs.orNow .timeSyncLost } else j }

theorem exec_timeSyncLost {s : State} (hs : Live s) : exec .timeSyncLost s = .next (
    if s.motion.gm || s.motion.syncLost then s else raise (unsynced s) .timeSyncLost []) :=
  live_of_hub hs fun s => if s.motion.gm || s.motion.syncLost then s else raise (unsynced s) .timeSyncLost []

/-! ## Setpoint frames (R398, R400, R401) -/

/-- The controlled drives that a port serves. -/
def portDrives (s : State) (port : Fin 2) : List (Fin 32 × NodeCfg) :=
  (List.finRange 32).filterMap fun i =>
    match (nodeTable s)[i.val]? with
    | some c => if c.kind == .drive && c.controlled && c.port == port then some (i, c) else none
    | none => none

/-- The order of a cycle: ascending node ID. -/
def inNodeOrder (l : List (Fin 32 × NodeCfg)) : List (Fin 32 × NodeCfg) :=
  l.insertionSort fun a b => a.2.nodeId.toNat ≤ b.2.nodeId.toNat

/-- The frame for a drive, where its robot has a hand-off. -/
def frameFor (s : State) (x : Fin 32 × NodeCfg) : Option Setpoint :=
  match carried s x.2.robot with
  | e :: es => some (setpoint s x.2 (nodeGet s x.1).tx e (e :: es))
  | [] => none

/-- The same frame's bytes, with its tag. -/
def wireFor (s : State) (x : Fin 32 × NodeCfg) : Option (List Byte) :=
  match carried s x.2.robot with
  | e :: es => some (withTag s x.2 (setpointBytes (setpoint s x.2 (nodeGet s x.1).tx e (e :: es))))
  | [] => none

/-- What a port does for one drive of its cycle. -/
def sendOne (s : State) (x : Fin 32 × NodeCfg) : State :=
  match carried s x.2.robot with
  | [] => s
  | newest :: older =>
    let f := setpoint s x.2 (nodeGet s x.1).tx newest (newest :: older)
    let s1 := nodeSet s x.1 { nodeGet s x.1 with tx := (nodeGet s x.1).tx + 1 }
    { s1 with motion := { s1.motion with
      sent := s1.motion.sent ++ [f], wire := s1.motion.wire ++ [withTag s x.2 (setpointBytes f)] } }

theorem sendSetpoints_eq (s : State) (port : Fin 2) : sendSetpoints s port
    = (inNodeOrder (portDrives s port)).foldl sendOne { s with motion := { s.motion with sent := [], wire := [] } } := rfl

/-- No more than the nodes' counters and what is sent differ. -/
def Sends (s t : State) : Prop :=
  ∃ nodes sent wire, t = { s with motion := { s.motion with nodes := nodes, sent := sent, wire := wire } }

/-- One drive's frame, where the drive's own counter is still that of the cycle's begin. -/
theorem sendOne_spec {s t : State} (h : Sends s t) {x : Fin 32 × NodeCfg} (hx : nodeGet t x.1 = nodeGet s x.1) :
    Sends s (sendOne t x)
      ∧ (sendOne t x).motion.sent = t.motion.sent ++ (frameFor s x).toList
      ∧ (sendOne t x).motion.wire = t.motion.wire ++ (wireFor s x).toList
      ∧ ∀ j, j ≠ x.1 → nodeGet (sendOne t x) j = nodeGet t j := by
  obtain ⟨nodes, sent, wire, rfl⟩ := h
  have hcarried : carried { s with motion := { s.motion with nodes := nodes, sent := sent, wire := wire } } x.2.robot
      = carried s x.2.robot := rfl
  rw [sendOne, frameFor, wireFor, hcarried]
  cases carried s x.2.robot with
  | nil => exact ⟨⟨_, _, _, rfl⟩, (List.append_nil _).symm, (List.append_nil _).symm, fun _ _ => rfl⟩
  | cons e es =>
    refine ⟨⟨_, _, _, rfl⟩, ?_, ?_, fun j hj => ?_⟩
    · rw [← hx]
      rfl
    · rw [← hx]
      rfl
    · exact (nodeGet_nodeSet _ _ _ _).trans (if_neg hj.symm)

/-- One frame for each drive of a list that names each node once. -/
theorem sendAll_spec {s : State} (l : List (Fin 32 × NodeCfg)) (hl : l.Pairwise fun a b => a.1 ≠ b.1) {t : State} (h : Sends s t)
    (ht : ∀ x ∈ l, nodeGet t x.1 = nodeGet s x.1) :
    Sends s (l.foldl sendOne t)
      ∧ (l.foldl sendOne t).motion.sent = t.motion.sent ++ l.filterMap (frameFor s)
      ∧ (l.foldl sendOne t).motion.wire = t.motion.wire ++ l.filterMap (wireFor s) := by
  induction l generalizing t with
  | nil => exact ⟨h, (List.append_nil _).symm, (List.append_nil _).symm⟩
  | cons x l ih =>
    obtain ⟨hx, hl⟩ := List.pairwise_cons.mp hl
    obtain ⟨hone, hsent, hwire, hrest⟩ := sendOne_spec h (ht x (List.mem_cons_self ..))
    obtain ⟨hall, hsents, hwires⟩ := ih hl hone fun y hy =>
      (hrest y.1 (hx y hy).symm).trans (ht y (List.mem_cons_of_mem _ hy))
    refine ⟨hall, ?_, ?_⟩
    · rw [List.foldl_cons, hsents, hsent, List.append_assoc]
      cases hf : frameFor s x <;> simp [hf]
    · rw [List.foldl_cons, hwires, hwire, List.append_assoc]
      cases hf : wireFor s x <;> simp [hf]

theorem portDrives_distinct (s : State) (port : Fin 2) : (portDrives s port).Pairwise fun a b => a.1 ≠ b.1 := by
  refine List.Pairwise.filterMap _ (fun i k hik x hx y hy => ?_) (List.nodup_finRange 32)
  have hfst {i : Fin 32} {x : Fin 32 × NodeCfg} (h : (match (nodeTable s)[i.val]? with
      | some c => if c.kind == .drive && c.controlled && c.port == port then some (i, c) else none
      | none => none) = some x) : x.1 = i := by
    split at h
    · split at h
      · exact (Option.some.inj h) ▸ rfl
      · nomatch h
    · nomatch h
  rw [hfst hx, hfst hy]
  exact hik

theorem sendSetpoints_spec (s : State) (port : Fin 2) :
    Sends s (sendSetpoints s port)
      ∧ (sendSetpoints s port).motion.sent = (inNodeOrder (portDrives s port)).filterMap (frameFor s)
      ∧ (sendSetpoints s port).motion.wire = (inNodeOrder (portDrives s port)).filterMap (wireFor s) := by
  have hdistinct : (inNodeOrder (portDrives s port)).Pairwise fun a b => a.1 ≠ b.1 :=
    ((List.perm_insertionSort _ _).pairwise_iff fun h => Ne.symm h).mpr (portDrives_distinct s port)
  exact sendAll_spec _ hdistinct ⟨_, _, _, rfl⟩ fun _ _ => rfl

/-- Settles O39: the clock's choice decides the frame's effect; the cycle's frames by induction over the port's drives. -/
theorem timeBaseAndSetpoints : Obligations.TimeBaseAndSetpoints := by
  constructor
  · intro s ns y a port hs best back
    have hbest : best ↔ (s.motion.gmRole && bestClock s a) = true := by
      rw [Bool.and_eq_true, bestClock_iff]
    refine ⟨?invalid, fun h => ?chosen, fun h => ⟨?noSync, ?synced⟩, fun hgm hlost => ?lost,
      live_of_hub hs fun s => { s with motion := { s.motion with link := s.motion.link ||| BitVec.ofNat 2 (2 ^ port.val) } },
      live_of_hub hs fun s => { s with motion := { s.motion with link := s.motion.link &&& ~~~ BitVec.ofNat 2 (2 ^ port.val) } }⟩
    case invalid => exact exec_ptpFrameReceived hs y false ns a
    case chosen =>
      rw [exec_ptpFrameReceived hs, hbest.mp h]
      rfl
    case noSync =>
      rw [exec_ptpFrameReceived hs, Bool.eq_false_iff.mpr fun hb => h (hbest.mpr hb)]
      rfl
    case synced =>
      rw [exec_ptpFrameReceived hs, Bool.eq_false_iff.mpr fun hb => h (hbest.mpr hb)]
      rfl
    case lost =>
      rw [exec_timeSyncLost hs, if_neg (by simp [hgm, hlost])]
      rfl
  · intro s port hs mine inOrder
    obtain ⟨⟨nodes, sent, wire, hframe⟩, hsent, hwire⟩ := sendSetpoints_spec s port
    refine ⟨sendSetpoints s port, live_of_hub hs fun s => sendSetpoints s port, hsent, hwire, fun robot h hfind hlate => ?_, ?_⟩
    · rw [carried, hfind]
      exact if_pos (decide_eq_true hlate)
    · rw [hframe]
      exact ⟨rfl, rfl, rfl⟩

/-! ## Nodes come and go (R403 to R405) -/

theorem exec_jointStateReceived {s : State} (hs : Live s) {bs : List Byte} {f : JointFrame} (hf : decodeJoint bs = some f)
    (tag : Bool) : exec (.jointStateReceived bs tag) s = .next (takeFrame s f.nodeId f.counter tag fun i _ =>
      nodeSet s i { nodeGet s i with rx := some f.counter, hist := f :: (nodeGet s i).hist }) := by
  have hexec : exec (.jointStateReceived bs tag) s = execJointStateReceived bs tag s := rfl
  rw [hexec, execJointStateReceived, live_of_hub hs, hf]

theorem exec_jointStateReceived_of_other {s : State} (hs : Live s) {bs : List Byte} (hf : decodeJoint bs = none) (tag : Bool) :
    exec (.jointStateReceived bs tag) s = .next s := by
  have hexec : exec (.jointStateReceived bs tag) s = execJointStateReceived bs tag s := rfl
  rw [hexec, execJointStateReceived, live_of_hub hs, hf]

theorem exec_helloReceived {s : State} (hs : Live s) {bs : List Byte} {f : HelloFrame} (hf : decodeHello bs = some f)
    (tag : Bool) : exec (.helloReceived bs tag) s = .next (takeFrame s f.nodeId f.counter tag (takeHello s f)) := by
  have hexec : exec (.helloReceived bs tag) s = execHelloReceived bs tag s := rfl
  rw [hexec, execHelloReceived, live_of_hub hs, hf]

theorem exec_helloReceived_of_other {s : State} (hs : Live s) {bs : List Byte} (hf : decodeHello bs = none) (tag : Bool) :
    exec (.helloReceived bs tag) s = .next s := by
  have hexec : exec (.helloReceived bs tag) s = execHelloReceived bs tag s := rfl
  rw [hexec, execHelloReceived, live_of_hub hs, hf]

section
variable {s : State} {node : W16} {counter : W32} {i : Fin 32} {c : NodeCfg}

theorem takeFrame_of_good (hnode : nodeIdx s node = some (i, c)) (hcounter : counterOk (nodeGet s i) counter = true)
    (f : Fin 32 → NodeCfg → State) : takeFrame s node counter true f = f i c := by
  simp [takeFrame, hnode, hcounter]

/-- A frame that is not taken is counted. -/
theorem takeFrame_of_bad {tag : Bool} (h : nodeIdx s node = none
      ∨ (nodeIdx s node = some (i, c) ∧ (tag && counterOk (nodeGet s i) counter) = false)) (f : Fin 32 → NodeCfg → State) :
    takeFrame s node counter tag f = tagFail s := by
  rcases h with hnone | ⟨hnode, hbad⟩
  · simp [takeFrame, hnone]
  · rw [takeFrame, hnode]
    exact if_pos (by rw [← Bool.not_and, hbad, Bool.not_false])

end

/-- The kind that a hello gives for a node of the table. -/
def helloKind (c : NodeCfg) : Byte :=
  match c.kind with
  | .drive => 1
  | .encoder => 2

theorem helloAgrees_eq (s : State) (c : NodeCfg) (f : HelloFrame) : helloAgrees s c f
    = (f.kind == helloKind c && f.axes.toNat == c.axes && f.keyId == s.motion.keyId
      && (c.kind == .encoder || (f.robot.toNat == c.robot && f.firstAxis.toNat == c.firstAxis))) := rfl

/-- What a hello that agrees with a node's table entry says. -/
theorem helloAgrees_iff (s : State) (c : NodeCfg) (f : HelloFrame) : helloAgrees s c f = true ↔
    f.kind = helloKind c ∧ f.axes.toNat = c.axes ∧ f.keyId = s.motion.keyId
      ∧ (c.kind = .encoder ∨ (f.robot.toNat = c.robot ∧ f.firstAxis.toNat = c.firstAxis)) := by
  simp only [helloAgrees_eq, Bool.and_eq_true, Bool.or_eq_true, beq_iff_eq, and_assoc]

/-- The jobs that need a drive (R405). -/
def wantsDrive (c : NodeCfg) (j : Job) : Bool :=
  needsDrives j && (c.kind == .drive && c.controlled && c.robot == j.img.robot.toNat)

theorem wantsDrive_iff (c : NodeCfg) (j : Job) : wantsDrive c j = true ↔
    (needsDrives j ∧ c.kind = .drive ∧ c.controlled ∧ c.robot = j.img.robot.toNat) := by
  simp only [wantsDrive, Bool.and_eq_true, beq_iff_eq, and_assoc]

theorem exec_driveLost_of_present {s : State} (hs : Live s) {i : Fin 32} {c : NodeCfg} (hthere : (nodeGet s i).present = true)
    (hlate : (nodeGet s i).hello + 960000 ≤ s.pwr.ticks) (hentry : (nodeTable s)[i.val]? = some c) :
    exec (.driveLost i) s = .next (raise { nodeSet s i { nodeGet s i with present := false } with
      jobs := s.jobs.map fun j => if wantsDrive c j then { j with endAs := j.endAs.orNow .driveLost } else j } .driveLost []) := by
  have hexec : exec (.driveLost i) s = execDriveLost i s := rfl
  have hdue : ¬ (!(nodeGet s i).present || decide (s.pwr.ticks < (nodeGet s i).hello + 30 * ticksPerMs)) = true := by
    rw [hthere, Bool.not_true, Bool.false_or, decide_eq_true_iff]
    exact Nat.not_lt.mpr hlate
  rw [hexec, execDriveLost, live_of_hub hs]
  dsimp only
  rw [if_neg hdue, hentry]
  rfl

theorem exec_driveLost_of_early {s : State} (hs : Live s) {i : Fin 32}
    (h : (nodeGet s i).present = false ∨ s.pwr.ticks < (nodeGet s i).hello + 960000) : exec (.driveLost i) s = .next s := by
  have hexec : exec (.driveLost i) s = execDriveLost i s := rfl
  have hearly : (!(nodeGet s i).present || decide (s.pwr.ticks < (nodeGet s i).hello + 30 * ticksPerMs)) = true := by
    rw [Bool.or_eq_true, Bool.not_eq_true', decide_eq_true_iff]
    exact h
  rw [hexec, execDriveLost, live_of_hub hs]
  dsimp only
  rw [if_pos hearly]

/-! ## The device's hellos (R404) -/

/-- A node's next frame counter. -/
def bumpTx (n : NodeState) : NodeState := { n with tx := n.tx + 1 }

/-- The device's counters for a list that names each node once. -/
theorem bumpAll_eq (l : List (Fin 32)) (hl : l.Nodup) (s : State) :
    l.foldl (fun s i => nodeSet s i (bumpTx (nodeGet s i))) s = { s with
      motion := { s.motion with nodes := Vector.ofFn fun k => if k ∈ l then bumpTx (nodeGet s k) else nodeGet s k } } := by
  induction l generalizing s with
  | nil =>
    have hsame : (Vector.ofFn fun k => nodeGet s k) = s.motion.nodes := by
      ext1 i hi
      simp [nodeGet, Vector.get_eq_getElem]
    simp [hsame]
  | cons i l ih =>
    obtain ⟨hi, hl⟩ := List.nodup_cons.mp hl
    have hnode (k : Fin 32) : (if k ∈ l then bumpTx (nodeGet (nodeSet s i (bumpTx (nodeGet s i))) k)
        else nodeGet (nodeSet s i (bumpTx (nodeGet s i))) k)
        = if k ∈ i :: l then bumpTx (nodeGet s k) else nodeGet s k := by
      rw [nodeGet_nodeSet]
      by_cases hk : i = k
      · subst hk
        simp [hi]
      · simp [hk, Ne.symm hk]
    rw [List.foldl_cons, ih hl]
    simp only [hnode]
    rfl

/-- The nodes of the table. -/
def tableNodes (s : State) : List (Fin 32) := (List.finRange 32).filter fun k => k.val < (nodeTable s).length

theorem mem_tableNodes (s : State) (k : Fin 32) : k ∈ tableNodes s ↔ k.val < (nodeTable s).length := by
  simp [tableNodes]

theorem exec_helloTransmit {s : State} (hs : Live s) : exec .helloTransmit s = .next { s with motion := { s.motion with
    hellos := (tableNodes s).map fun k => ((nth (nodeTable s) k.val default).nodeId, (nodeGet s k).tx)
    wire := (tableNodes s).map fun k => withTag s (nth (nodeTable s) k.val default)
      (helloBytes ((s.sluice.recipe.map (·.deviceNode)).getD 0) (nodeGet s k).tx (asNs s) s.motion.keyId)
    nodes := Vector.ofFn fun k => if k ∈ tableNodes s then bumpTx (nodeGet s k) else nodeGet s k } } := by
  have hall := bumpAll_eq (tableNodes s) ((List.nodup_finRange 32).filter _) s
  refine (live_of_hub hs fun s =>
    { (tableNodes s).foldl (fun s i => nodeSet s i (bumpTx (nodeGet s i))) s with
      motion := { ((tableNodes s).foldl (fun s i => nodeSet s i (bumpTx (nodeGet s i))) s).motion with
        hellos := (tableNodes s).map fun k => ((nth (nodeTable s) k.val default).nodeId, (nodeGet s k).tx)
        wire := (tableNodes s).map fun k => withTag s (nth (nodeTable s) k.val default)
          (helloBytes ((s.sluice.recipe.map (·.deviceNode)).getD 0) (nodeGet s k).tx (asNs s) s.motion.keyId) } }).trans ?_
  rw [hall]

/-! ## Frames as bytes (R399) -/

/-- A number that stands after `k` bytes. -/
theorem field_after {a b : List Byte} {k : Nat} (ha : a.length = k) (n v : Nat) : field (a ++ (leBytes n v ++ b)) k n = v % 256 ^ n := by
  have hb : slice (leBytes n v ++ b) 0 n = leBytes n v := slice_append_left (leBytes_length n v)
  rw [field, slice_append_right ha, hb, leNat_leBytes]

/-- The common header's fields. -/
theorem field_frameHead (sub : Nat) (node : W16) (counter : W32) (timeNs : Nat) (b : List Byte) :
    field (frameHead sub node counter timeNs ++ b) 0 1 = sub % 256 ∧ field (frameHead sub node counter timeNs ++ b) 1 1 = 1
      ∧ field (frameHead sub node counter timeNs ++ b) 2 2 = node.toNat
      ∧ field (frameHead sub node counter timeNs ++ b) 4 4 = counter.toNat := by
  simp only [frameHead, List.append_assoc]
  refine ⟨?_, ?_, ?_, ?_⟩
  · exact field_after (a := []) rfl 1 sub
  · exact field_after (a := leBytes 1 sub) (leBytes_length ..) 1 1
  · rw [← List.append_assoc (leBytes 1 sub)]
    exact (field_after (by simp) 2 node.toNat).trans (Nat.mod_eq_of_lt node.isLt)
  · rw [← List.append_assoc (leBytes 1 sub), ← List.append_assoc (leBytes 1 sub ++ _)]
    exact (field_after (by simp) 4 counter.toNat).trans (Nat.mod_eq_of_lt counter.isLt)

theorem frameIs_of_other {sub : Nat} {bs : List Byte} (h : field bs 0 1 ≠ sub) (size : Nat) : frameIs sub size bs = false := by
  simp [frameIs, h]

/-- Settles O40: each frame by what its node's entry and counter say; the hellos' counters by induction over the table. -/
theorem nodesComeAndGo : Obligations.NodesComeAndGo := by
  constructor
  · intro s hb fb h f tag i c hs hhello hjoint n count counted
    refine ⟨fun hnode hcounter => ?joint, fun hbad => ?jointBad, fun hbad => ?helloBad, fun hnode hcounter => ?hello,
      fun hthere hlate hentry => ?lost, fun hearly => exec_driveLost_of_early hs hearly, ?hellos⟩
    case joint => rw [exec_jointStateReceived hs hjoint, takeFrame_of_good hnode hcounter]
    case jointBad =>
      rw [exec_jointStateReceived hs hjoint, takeFrame_of_bad hbad]
      rfl
    case helloBad =>
      rw [exec_helloReceived hs hhello, takeFrame_of_bad hbad]
      rfl
    case hello =>
      intro agrees there
      refine ⟨fun hagrees => ?_, fun hdiffers => ?_⟩
      · have hok : helloAgrees s c h = true := (helloAgrees_iff s c h).mpr hagrees
        rw [exec_helloReceived hs hhello, takeFrame_of_good hnode hcounter, takeHello, hok]
        rfl
      · have hok : helloAgrees s c h = false := Bool.eq_false_iff.mpr fun hok => hdiffers ((helloAgrees_iff s c h).mp hok)
        rw [exec_helloReceived hs hhello, takeFrame_of_good hnode hcounter, takeHello, hok]
        rfl
    case lost =>
      rw [exec_driveLost_of_present hs hthere hlate hentry]
      simp only [wantsDrive_iff]
      rfl
    case hellos =>
      rw [exec_helloTransmit hs]
      simp only [mem_tableNodes]
      rfl
  · refine ⟨fun f => ?_, fun bs hsub => ?_, fun bs hsub => ?_, fun s bs tag hs =>
      ⟨fun hf => exec_jointStateReceived_of_other hs hf tag, fun hf => exec_helloReceived_of_other hs hf tag⟩⟩
    · simp only [setpointBytes, List.append_assoc]
      exact field_frameHead ..
    · simp [decodeJoint, frameIs_of_other (sub := subJoint) hsub]
    · simp [decodeHello, frameIs_of_other (sub := subHello) hsub]

end Sys2Proof.Machine

/-! # Supervision of glow (O50)

R431's read that the bus firewall refuses returns 0, but its event can come while 8 others are queued: `FAULT_QUEUE_OVERFLOW` then begins
a relight, the jobs end, and the host accesses to DRAM that waited for them (R67) are performed; the last read among them is what
the bus returns then. -/

namespace Sys2Proof.Machine

open Sys2Proof

/-- A job's descriptor. -/
def runEntry : DescEntry :=
  { ref := ⟨0, 0⟩, desc := ⟨false, false, false, false, 0, .planRun 0 0 0 0 0 0 0 0 0 0⟩, stage := .running, matched := 0, begun := true
    ever := true, replayed := false, cancelled := false, verified := false, ctx := none, resume := none, notBefore := none }

/-- A job runs while no host window is configured, and two host accesses to DRAM wait for its end: a write of 0xAB and a read of the same
place. Eight events are queued behind the one that is handled. -/
def crowded : State := { State.reset with
  pwr := { State.reset.pwr with hub := true, ready := true }
  safety := { State.reset.safety with
    state := .service, current := some (.driveMismatch, 3), queue := List.replicate 8 (.driveMismatch, 3) }
  jobs := [blankJob State.reset runEntry default]
  mem := { State.reset.mem with capacity := 1, waits := [⟨0, 8, true, 0xAB⟩, ⟨0, 8, false, 0⟩] } }

/-- What a refused access of glow leaves, its event aside. -/
def violated (s : State) (write : Bool) : State :=
  modMgmt (if write then s else setBus s 0) fun m => { m with viol := satInc m.viol }

theorem exec_glowBusViolation {s : State} (hs : Live s) (a : W32) (write : Bool) : exec (.glowBusViolation a write) s = .next (
    if s.mgmt.violLog.any fun t => s.pwr.ticks < t + 10 * ticksPerMs then violated s write
    else raise (modMgmt (violated s write) fun m => { m with violLog := some s.pwr.ticks }) .glowBusViolation []) :=
  live_of_hub hs fun s =>
    if s.mgmt.violLog.any fun t => s.pwr.ticks < t + 10 * ticksPerMs then violated s write
    else raise (modMgmt (violated s write) fun m => { m with violLog := some s.pwr.ticks }) .glowBusViolation []

/-- The refused read's event makes the waiting accesses run, and the bus returns what the host's read found. -/
theorem crowded_busRead : (raise (modMgmt (violated crowded false) fun m => { m with violLog := some crowded.pwr.ticks })
    .glowBusViolation []).host.busRead = 0xAB := by
  decide

/-- Refutes O50: in `crowded` a refused read of glow does not leave 0 on the bus. -/
theorem not_glowSupervision : ¬ Obligations.GlowSupervision := by
  rintro ⟨hglow, -⟩
  have hlive : Live crowded := rfl
  obtain ⟨-, -, -, -, ⟨t, hviolation, -, -, -, -, -, hbus⟩, -⟩ := hglow crowded 0 0 false 0 0 [] hlive
  have hstep : exec (.glowBusViolation 0 false) crowded
      = .next (raise (modMgmt (violated crowded false) fun m => { m with violLog := some crowded.pwr.ticks }) .glowBusViolation []) :=
    exec_glowBusViolation hlive 0 false
  rw [hstep, Host.Outcome.next.injEq] at hviolation
  have hread : t.host.busRead = 0xAB := hviolation ▸ crowded_busRead
  exact absurd (hread.symm.trans (hbus rfl)) (by decide)

end Sys2Proof.Machine

/-! # Supplies and temperature (O52)

An event writes four of the power registers: `STOP_REQ_N`, the S1 events before READY, and what an entry into HALT ends. -/

namespace Sys2Proof.Machine

open Sys2Proof

/-! ## What an event writes of the power registers -/

/-- Of the power registers, STOP_REQ_N, the events before READY and what HALT ends may differ. -/
def PinsKept (s t : State) : Prop :=
  ∃ stop pre wait held, t.pwr = { s.pwr with stop := stop, preS1 := pre, waitGlow := wait, heldStart := held }
    ∧ (s.pwr.heldStart = none → held = none)

theorem PinsKept.of_pwr {s t : State} (h : t.pwr = s.pwr) : PinsKept s t :=
  ⟨s.pwr.stop, s.pwr.preS1, s.pwr.waitGlow, s.pwr.heldStart, h, id⟩

theorem PinsKept.trans {a b c : State} (h : PinsKept a b) (k : PinsKept b c) : PinsKept a c := by
  obtain ⟨_, _, _, _, hb, hheld⟩ := h
  obtain ⟨_, _, _, _, hc, kheld⟩ := k
  refine ⟨_, _, _, _, hc.trans (by rw [hb]), fun hnone => kheld ?_⟩
  rw [hb]
  exact hheld hnone

theorem PinsKept.supplies {s t : State} (h : PinsKept s t) :
    t.pwr.powerFail = s.pwr.powerFail ∧ t.pwr.pwrFailN = s.pwr.pwrFailN ∧ t.pwr.railLow = s.pwr.railLow
      ∧ t.pwr.tripped = s.pwr.tripped := by
  obtain ⟨_, _, _, _, hpwr, -⟩ := h
  rw [hpwr]
  exact ⟨rfl, rfl, rfl, rfl⟩

theorem PinsKept.heldStart {s t : State} (h : PinsKept s t) (hnone : s.pwr.heldStart = none) : t.pwr.heldStart = none := by
  obtain ⟨_, _, _, _, hpwr, hheld⟩ := h
  rw [hpwr]
  exact hheld hnone

theorem emberEvent_pwr (s : State) (cls : EventClass) (words : List W32) (spec : Bool) :
    (emberEvent s cls words spec).pwr = s.pwr := by
  obtain ⟨e, h⟩ := emberEvent_eq s cls words spec
  rw [h]

theorem emberFlushStart_pwr (s : State) : (emberFlushStart s).pwr = s.pwr := by
  obtain ⟨e, h⟩ := emberFlushStart_eq s
  rw [h]

theorem stopAndFlush_pwr (s : State) : (emberFlushStart (assertStop s)).pwr = { s.pwr with stop := true } :=
  emberFlushStart_pwr _

theorem jobsEnd_pwr (s : State) : (endJobs (keepGates (assertStop s))).pwr = { s.pwr with stop := true } := endJobs_pwr _

theorem enterHalt_pwr (s : State) :
    (enterHalt s).pwr = { s.pwr with stop := true, waitGlow := false, heldStart := none } := by
  unfold enterHalt
  rw [refreshHeader_pwr]
  dsimp only
  rw [jobsEnd_pwr]

theorem beginRelight_pwr_of_room {s : State} (hstate : s.safety.state ≠ .halt) (hroom : relights10s s < 2) :
    (beginRelight s).pwr = { s.pwr with stop := true } := by
  unfold beginRelight
  rw [if_neg (by simp [hstate]), if_neg (Nat.not_le.mpr hroom), refreshHeader_pwr]
  exact jobsEnd_pwr s

theorem keepGates_pwr (s : State) : (keepGates s).pwr = s.pwr := by unfold keepGates; rfl

theorem pinsKept_events : EventRule PinsKept where
  refl _ := .of_pwr rfl
  trans h k := h.trans k
  ember _ _ := .of_pwr rfl
  safety _ _ := .of_pwr rfl
  stop _ := ⟨_, _, _, _, rfl, id⟩
  preS1 _ _ := ⟨_, _, _, _, rfl, id⟩
  halted _ := ⟨_, _, _, _, rfl, fun _ => rfl⟩
  gates s := .of_pwr (keepGates_pwr s)
  jobs s := .of_pwr (endJobs_pwr s)
  header s := .of_pwr (refreshHeader_pwr s)

theorem pinsKept_raise (s : State) (cls : EventClass) (words : List W32) : PinsKept s (raise s cls words) :=
  pinsKept_events.raise s cls words

/-! ## A power failure (R476, R487) -/

theorem endJobs_motion (s : State) : (endJobs s).motion = s.motion := (endJobs_kept s).motion
theorem endJobs_world (s : State) : (endJobs s).world = s.world := (endJobs_kept s).world

/-- An assertion's event, stop and flush. -/
def failLogged (s : State) : State := emberFlushStart (assertStop (raise s .powerFail []))

/-- An assertion once the jobs have ended. -/
def failStopped (s : State) : State := endJobs { failLogged s with pwr := { (failLogged s).pwr with powerFail := true } }

theorem failLogged_eq (s : State) : ∃ e, failLogged s = { assertStop (raise s .powerFail []) with ember := e } :=
  emberFlushStart_eq _

theorem failStopped_spec (s : State) :
    (failStopped s).pwr = { (raise s .powerFail []).pwr with stop := true, powerFail := true } ∧ (failStopped s).jobs = []
      ∧ (failStopped s).safety.handed = false ∧ (failStopped s).motion = s.motion ∧ (failStopped s).world = s.world := by
  obtain ⟨e, he⟩ := failLogged_eq s
  unfold failStopped
  rw [endJobs_pwr, endJobs_jobs, endJobs_safety, endJobs_motion, endJobs_world, he]
  exact ⟨rfl, rfl, rfl, raise_motion .., raise_world ..⟩

/-- Lanterns that no job holds are all that is written. -/
theorem freeAll_frame (s : State) : ∃ l, freeAll s = { s with lanterns := l } := by
  unfold freeAll
  split <;> exact ⟨_, rfl⟩

/-- What every assertion comes to; start-up before READY, besides, is broken off. -/
theorem failAssert_spec (s : State) :
    (failAssert s).pwr.powerFail = true ∧ (failAssert s).pwr.stop = true ∧ (failAssert s).jobs = []
      ∧ (failAssert s).safety.handed = false ∧ (failAssert s).motion = s.motion ∧ (failAssert s).world = s.world
      ∧ (failAssert s).pwr.pwrFailN = s.pwr.pwrFailN ∧ (failAssert s).pwr.railLow = s.pwr.railLow := by
  have hdef : failAssert s = if !(freeAll (failStopped s)).pwr.ready && (freeAll (failStopped s)).safety.state == .startup then
      { freeAll (failStopped s) with
        pwr := { (freeAll (failStopped s)).pwr with hub := false, waitGlow := false, heldStart := none } }
      else freeAll (failStopped s) := rfl
  obtain ⟨l, hfree⟩ := freeAll_frame (failStopped s)
  obtain ⟨hpwr, hjobs, hhanded, hmotion, hworld⟩ := failStopped_spec s
  obtain ⟨-, hpin, hrail, -⟩ := (pinsKept_raise s .powerFail []).supplies
  rw [hdef, hfree]
  dsimp only
  rw [hpwr]
  split <;> exact ⟨rfl, rfl, hjobs, hhanded, hmotion, hworld, hpin, hrail⟩

theorem exec_pwrFailAssert {s : State} (hgood : s.pwr.pwrGood = true) (hpin : s.pwr.pwrFailN = true) :
    exec .pwrFailAssert s = .next (failAssert { s with pwr := { s.pwr with pwrFailN := false } }) := by
  have hdef : exec .pwrFailAssert s = .next (if s.pwr.pwrGood && s.pwr.pwrFailN then
      failAssert { s with pwr := { s.pwr with pwrFailN := false } } else { s with pwr := { s.pwr with pwrFailN := false } }) := rfl
  rw [hdef, if_pos (by simp [hgood, hpin])]

/-- The rails with one more low. -/
def railDown (s : State) (r : Rail) : State := { s with pwr := { s.pwr with railLow := s.pwr.railLow ||| railBit r } }

theorem exec_railUndervolt {s : State} (hgood : s.pwr.pwrGood = true) {r : Rail} (hhigh : s.pwr.railLow &&& railBit r = 0) :
    exec (.railUndervolt r) s = .next (failAssert (raise (railDown s r) .railUndervolt [])) := by
  have hdef : exec (.railUndervolt r) s = .next (if !s.pwr.pwrGood || s.pwr.railLow &&& railBit r != 0 then railDown s r
      else failAssert (raise (railDown s r) .railUndervolt [])) := rfl
  rw [hdef, if_neg (by simp [hgood, hhigh])]

theorem failGone_of_gone (o : StartupObs) {s : State} (hfail : s.pwr.powerFail = true) (hpin : s.pwr.pwrFailN = true)
    (hrail : s.pwr.railLow = 0) (hup : s.pwr.ready = true ∨ s.pwr.pstate = .pilot) :
    failGone o s = beginRelight { s with pwr := { s.pwr with powerFail := false } } := by
  have hcond : (s.pwr.ready || s.pwr.pstate == .pilot) = true := by simpa using hup
  unfold failGone failDeassert
  rw [if_pos (by simp [hfail, hpin, hrail])]
  exact if_pos hcond

/-- A relight in the budget of two in 10 s, after the last cause has gone. -/
theorem relit_of_gone (o : StartupObs) {s : State} (hfail : s.pwr.powerFail = true) (hpin : s.pwr.pwrFailN = true)
    (hrail : s.pwr.railLow = 0) (hup : s.pwr.ready = true ∨ s.pwr.pstate = .pilot) (hstate : s.safety.state = .service)
    (hroom : relights10s s < 2) :
    (failGone o s).pwr = { s.pwr with powerFail := false, stop := true } ∧ (failGone o s).safety = relightStarted s := by
  rw [failGone_of_gone o hfail hpin hrail hup]
  refine ⟨beginRelight_pwr_of_room ?_ hroom, beginRelight_safety (s := { s with pwr := { s.pwr with powerFail := false } }) hstate hroom⟩
  rw [hstate]
  decide

/-! ## Temperature (R497) -/

/-- What a reading of the hottest sensor writes of the power registers. -/
def tempShown (s : State) (d : Fin 7) (v : Int) : State :=
  { s with pwr := { s.pwr with
    tjMax := BitVec.ofInt 8 v, hottest := d.val, warn := tempWarnAt s ≤ v || (s.pwr.warn && tempWarnAt s - 3 < v)
    low := decide (v < tempLowAt s), tripped := s.pwr.tripped || decide (tempTripAt s ≤ v) } }

/-- The events of a reading. -/
def tempRaised (s : State) (v : Int) (t : State) : State :=
  let s2 := if decide (v < tempLowAt s) && !s.pwr.low then raise t .tempLow [] else t
  let s3 := if (tempWarnAt s ≤ v || (s.pwr.warn && tempWarnAt s - 3 < v)) && !s.pwr.warn then raise s2 .tempWarn [] else s2
  if decide (tempTripAt s ≤ v) && !s.pwr.tripped then raise s3 .tempTrip [] else s3

theorem pinsKept_raise_if (c : Bool) (s : State) (cls : EventClass) : PinsKept s (if c then raise s cls [] else s) := by
  split
  · exact pinsKept_raise s cls []
  · exact .of_pwr rfl

theorem pinsKept_tempRaised (s : State) (v : Int) (t : State) : PinsKept t (tempRaised s v t) :=
  ((pinsKept_raise_if _ t _).trans (pinsKept_raise_if _ _ _)).trans (pinsKept_raise_if _ _ _)

/-- A powered device whose start-up no temperature holds goes on after its events. -/
theorem exec_tempRead {s : State} (hgood : s.pwr.pwrGood = true) (hawake : s.pwr.pstate ≠ .pilot) (hheld : s.pwr.heldStart = none)
    (d : Fin 7) (v : Int) : exec (.tempRead [(d, v)]) s = .next (tempRaised s v (tempShown s d v)) := by
  have hread : (if s.pwr.pstate == .pilot then [(d, v)].filter fun r => r.1 == 6 else [(d, v)]) = [(d, v)] :=
    if_neg (by simpa using hawake)
  have hgoes : (tempRaised s v (tempShown s d v)).pwr.heldStart = none :=
    (pinsKept_tempRaised s v (tempShown s d v)).heldStart hheld
  have hexec : exec (.tempRead [(d, v)]) s = execTempRead [(d, v)] s := rfl
  rw [hexec, execTempRead, pilotLive_of_good hgood]
  dsimp only
  rw [hread]
  exact congrArg _ (show (match (tempRaised s v (tempShown s d v)).pwr.heldStart with
    | some o => if v < tempWarnAt s && (tempRaised s v (tempShown s d v)).safety.state == .startup then
        startRun o (tempRaised s v (tempShown s d v)) else tempRaised s v (tempShown s d v)
    | none => tempRaised s v (tempShown s d v)) = tempRaised s v (tempShown s d v) by rw [hgoes])

end Sys2Proof.Machine

/-! # Start-up (O51), and resets, supplies and temperature (O52)

A start-up without a failure is written out once, register by register: power-on, a device reset and glow's first heartbeat read
their results off it. -/

namespace Sys2Proof.Machine

open Sys2Proof

/-! ## Step 5: the configuration (R414, R415) -/

/-- The measurements with one extended. -/
def measured (v : Vector Digest 8) (i : Fin 8) (d : Digest) : Vector Digest 8 :=
  v.set i (Config.sm3 (digestBytes (v.get i) ++ digestBytes d))

theorem measured_get_same (v : Vector Digest 8) (i : Fin 8) (d : Digest) :
    (measured v i d).get i = Config.sm3 (digestBytes (v.get i) ++ digestBytes d) := by
  rw [measured, Vector.get_eq_getElem]
  exact Vector.getElem_set_self _

theorem measured_get_of_ne (v : Vector Digest 8) {i j : Fin 8} (h : i ≠ j) (d : Digest) : (measured v i d).get j = v.get j := by
  rw [measured, Vector.get_eq_getElem, Vector.get_eq_getElem]
  exact Vector.getElem_set_ne _ _ fun hval => h (Fin.ext hval)

/-- The measurements after the configuration block and a good glow image. -/
def configMeas (o : StartupObs) (v : Vector Digest 8) : Vector Digest 8 :=
  if o.glowOk then measured (measured v 2 o.cfgDigest) 3 o.glowDigest else measured v 2 o.cfgDigest

/-- The management complex with glow's image, or without one. -/
def configMgmt (o : StartupObs) (m : Mgmt) : Mgmt :=
  if o.glowOk then { m with glow := 1, digest := o.glowDigest, image := m.image.lose } else { m with glow := 0 }

theorem configMgmt_glow (o : StartupObs) (m : Mgmt) : (configMgmt o m).glow = if o.glowOk then 1 else 0 := by
  unfold configMgmt
  split <;> rfl

/-- M2 takes the configuration. -/
theorem configMeas_two (o : StartupObs) (v : Vector Digest 8) :
    (configMeas o v).get 2 = Config.sm3 (digestBytes (v.get 2) ++ digestBytes o.cfgDigest) := by
  unfold configMeas
  split
  · rw [measured_get_of_ne _ (by decide), measured_get_same]
  · rw [measured_get_same]

/-- M3 takes the image of glow that there is. -/
theorem configMeas_three {o : StartupObs} (hglow : o.glowOk = true) (v : Vector Digest 8) :
    (configMeas o v).get 3 = Config.sm3 (digestBytes (v.get 3) ++ digestBytes o.glowDigest) := by
  rw [configMeas, if_pos hglow, measured_get_same, measured_get_of_ne _ (by decide)]

/-- Steps 3 and 4 extend M0 and M1. -/
theorem hubUp_meas (o : StartupObs) (s : State) {i : Fin 8} (h0 : 0 ≠ i) (h1 : 1 ≠ i) :
    (hubUp o s).sec.meas.get i = s.sec.meas.get i :=
  (measured_get_of_ne _ h1 _).trans ((measured_get_of_ne _ h0 _).trans (measured_get_of_ne _ h0 _))

/-- The state after step 5 with a good configuration block. -/
def configured (o : StartupObs) (s : State) (k : Klink) (e : Ember) : State :=
  { s with
    pwr := { s.pwr with step := 5 }
    grid := { s.grid with period := o.cfgPeriod, regPeriod := o.cfgPeriod }
    mem := { s.mem with hostWin := o.hostWin, dataRate := o.dataRate }
    motion := { s.motion with offset := o.motOffset, spWin := o.spWin, gmRole := o.grandmaster, priority1 := o.priority1 }
    klink := k, sec := { s.sec with cfgRec := false, meas := configMeas o s.sec.meas }, mgmt := configMgmt o s.mgmt, ember := e }

/-- The log goes on at its reserve, where no event waits to be numbered. -/
def ResumesAt (s : State) (e : Ember) : Prop := s.ember.held = [] → s.ember.heldDrop = 0 → e.next = s.ember.reserve

theorem emberBoot_frame (s : State) (triggers : List (EventClass × List Nat)) :
    ∃ e, emberBoot s triggers = { s with ember := e } ∧ ResumesAt s e := by
  refine ⟨_, rfl, fun hheld hdrop => ?_⟩
  rw [hheld, hdrop]
  rfl

theorem loadConfig_clean {o : StartupObs} {s : State} (hcfg : o.cfgOk = true) (hpre : s.pwr.preS1 = []) :
    ∃ k e, loadConfig o s = configured o s k e ∧ ResumesAt s e := by
  obtain ⟨e, hboot, hnext⟩ := emberBoot_frame { s with
    grid := { s.grid with period := o.cfgPeriod, regPeriod := o.cfgPeriod }
    mem := { s.mem with hostWin := o.hostWin, dataRate := o.dataRate }
    motion := { s.motion with
      offset := o.motOffset, spWin := o.spWin, gmRole := true && o.grandmaster, priority1 := o.priority1 }
    sec := { s.sec with cfgRec := !true } } o.triggers
  choose links hlinks using klCtrlWrite_frame
  have hflush : (s.pwr.preS1 != []) = false := by rw [hpre]; rfl
  simp only [loadConfig, hcfg, if_true, hboot, hlinks, extend]
  cases hglow : o.glowOk
  · simp only [Bool.false_eq_true, if_false, hflush]
    exact ⟨_, e, by simp only [configured, configMeas, configMgmt, hglow, Bool.false_eq_true, if_false]; rfl, hnext⟩
  · simp only [if_true, hflush, Bool.false_eq_true, if_false]
    exact ⟨_, e, by simp only [configured, configMeas, configMgmt, hglow, if_true]; rfl, hnext⟩

/-! ## Steps 7 to 10 -/

/-- The memory unit after step 7. -/
def trainedMem (o : StartupObs) (m : MemUnit) : MemUnit :=
  { m with
    present := ~~~ (o.ddrFail ||| o.d2dFail), ddrFail := o.ddrFail, d2dFail := o.d2dFail
    capacity := mappedGib (presentCount (~~~ (o.ddrFail ||| o.d2dFail))) o.density, density := o.density
    dma := Vector.ofFn fun c => { m.dma.get c with excluded := (o.ddrFail ||| o.d2dFail).getLsbD (c.val / 4) } }

/-- The events of the dies that fail to train. -/
def raiseDies (m : BitVec 4) (cls : EventClass) (s : State) : State :=
  (List.range 4).foldl (fun s d => if m.getLsbD d then raise s cls [] else s) s

theorem trainDies_eq (o : StartupObs) (s : State) : trainDies o s = raiseDies o.d2dFail .d2dTrainFail (raiseDies o.ddrFail .ddrTrainFail
    { s with pwr := { s.pwr with pll := pllAll }, mem := trainedMem o s.mem }) := rfl

theorem raiseDies_zero (cls : EventClass) (s : State) : raiseDies 0 cls s = s := by simp [raiseDies]

theorem raiseDies_present (m : BitVec 4) (cls : EventClass) (s : State) : (raiseDies m cls s).mem.present = s.mem.present :=
  List.foldlRecOn (motive := fun t : State => t.mem.present = s.mem.present) _ _ rfl fun t ht d _ => by
    split
    · exact (raise_mem_present ..).trans ht
    · exact ht

/-- The device before step 10: the dies trained, the lanterns fresh. -/
def readyDies (o : StartupObs) (s : State) : State := diesUp (trainedMem o s.mem) s

/-- The device that waits for glow's first heartbeat. -/
def awaitsGlow (o : StartupObs) (s : State) : State :=
  { s with pwr := { s.pwr with waitGlow := true, reflectorOk := o.reflectorOk }, mgmt := { s.mgmt with beatAt := s.pwr.ticks } }

theorem trainedMem_of_clean {o : StartupObs} (hddr : o.ddrFail = 0) (hd2d : o.d2dFail = 0) (m : MemUnit) :
    (trainedMem o m).present = 0xF ∧ (trainedMem o m).capacity = mappedGib 4 o.density := by
  rw [trainedMem, hddr, hd2d]
  exact ⟨rfl, rfl⟩

theorem startDies_up {o : StartupObs} {s : State} (hddr : o.ddrFail = 0) (hd2d : o.d2dFail = 0) (hself : o.selftestFail = [])
    (hmap : logicalMap s.fuses ≠ []) : startDies o s =
      if o.glowOk then awaitsGlow o (readyDies o s) else startFinish (readyDies o s) o.reflectorOk := by
  have htrain : trainDies o s = { s with pwr := { s.pwr with pll := pllAll }, mem := trainedMem o s.mem } := by
    rw [trainDies_eq, hddr, hd2d, raiseDies_zero, raiseDies_zero]
  have hall : (trainedMem o s.mem).present = 0xF := (trainedMem_of_clean hddr hd2d s.mem).1
  have hdies : ¬ presentDies { s with pwr := { s.pwr with pll := pllAll }, mem := trainedMem o s.mem } < 3 := by
    rw [presentDies_of_all hall]
    decide
  have hmapped : ¬ (freshLanterns (assignMap
      (stepDone { s with pwr := { s.pwr with pll := pllAll }, mem := trainedMem o s.mem } 7))).map.isEmpty :=
    fun h => hmap (List.isEmpty_iff.mp h)
  simp only [startDies, htrain, if_neg hdies, hself, retire, List.foldl_nil, if_neg hmapped]
  rfl

theorem startFrom3_eq {o : StartupObs} {s : State} (htrim : s.pwr.trimTest = false) (hcool : o.hottest < tempWarnAt s)
    (hfuses : o.fusesOk = true) : startFrom3 o s = startDies o (loadConfig o (hubUp o s)) := by
  simp only [startFrom3, htrim, Bool.false_eq_true, if_false, if_neg (Int.not_le.mpr hcool), startRun, hfuses, Bool.not_true, hubUp]

/-- A start-up without a failure, up to glow's first heartbeat or through step 10. -/
theorem startFrom3_up {o : StartupObs} {s : State} (h : StartClean s o) (htrim : s.pwr.trimTest = false) (hpre : s.pwr.preS1 = []) :
    ∃ k e, startFrom3 o s = (if o.glowOk then awaitsGlow o (readyDies o (configured o (hubUp o s) k e))
      else startFinish (readyDies o (configured o (hubUp o s) k e)) true) ∧ ResumesAt s e := by
  obtain ⟨-, hcool, hfuses, hcfg, hddr, hd2d, hself, hmap, hrefl⟩ := h
  obtain ⟨k, e, hconf, hnext⟩ := loadConfig_clean (s := hubUp o s) hcfg hpre
  refine ⟨k, e, ?_, hnext⟩
  rw [startFrom3_eq htrim hcool hfuses, hconf, startDies_up (s := configured o (hubUp o s) k e) hddr hd2d hself hmap, hrefl]

theorem refreshHeader_ring (s : State) : (refreshHeader s).rings.ring = s.rings.ring := by
  unfold refreshHeader
  dsimp only
  split
  · split <;> rfl
  · rfl

/-- Step 10's end with a passing check, rings included. -/
theorem startFinish_ready {s : State} (hpre : s.pwr.preS1 = []) :
    ∃ r h, startFinish s true = { startGrid s with
      pwr := { s.pwr with
        waitGlow := false, step := 10, ready := true, pstate := .run, preS1 := [], idleSince := s.pwr.ticks }
      safety := { s.safety with state := .service }, rings := r, host := h } ∧ r.ring = s.rings.ring := by
  obtain ⟨r, h, heq⟩ := startFinish_frame hpre
  refine ⟨r, h, heq, ?_⟩
  have hring : (startFinish s true).rings.ring = s.rings.ring := by
    simp only [startFinish, hpre, Bool.not_true, Bool.false_eq_true, if_false]
    exact refreshHeader_ring _
  rw [heq] at hring
  exact hring

/-! ## Power-on (R471) -/

/-- The power registers at power-on, both supplies good. -/
def coldPwr (s : State) (o : StartupObs) : Pwr :=
  { Pwr.reset with
    pwrGood := true, perstN := s.pwr.perstN, perstSeen := s.pwr.perstN, pwrFailN := true, railLow := 0, trimTest := o.trimTest }

/-- The state before step 3 of a power-on. -/
def cold (s : State) (o : StartupObs) : State := freshHub { s with pwr := coldPwr s o } true

theorem exec_powerOn {s : State} (hoff : s.pwr.pwrGood = false) (hpin : s.pwr.pwrFailN = true) (hrail : s.pwr.railLow = 0)
    (o : StartupObs) : exec (.powerOn o) s = .next (startFrom3 o (cold s o)) := by
  have hexec : exec (.powerOn o) s = execPowerOn o s := rfl
  rw [hexec, execPowerOn, hoff, hpin, hrail]
  rfl

theorem startHalt_spec (s : State) (fail : Byte) : (startHalt s fail).safety.state = .halt ∧ (startHalt s fail).pwr.fail = fail
    ∧ (startHalt s fail).pwr.stop = true := by
  unfold startHalt
  rw [enterHalt_safety, enterHalt_pwr]
  exact ⟨rfl, rfl, rfl⟩

theorem startFrom3_of_badFuses {o : StartupObs} {s : State} (htrim : s.pwr.trimTest = false) (hcool : o.hottest < tempWarnAt s)
    (hbad : o.fusesOk = false) : ∃ t, startFrom3 o s = startHalt t 1 := by
  refine ⟨stepDone { s with
    pwr := { s.pwr with ticks := s.pwr.ticks + o.ticks, step := 3, heldStart := none }
    sec := { s.sec with debugOff := s.fuses.lock } } 2, ?_⟩
  simp only [startFrom3, htrim, Bool.false_eq_true, if_false, if_neg (Int.not_le.mpr hcool), startRun, hbad, Bool.not_false, if_true]

/-- Fewer than three dies that train end the start-up. -/
theorem startDies_of_few {o : StartupObs} {s : State} (hd2d : o.d2dFail = 0)
    (hfew : ((List.range 4).filter fun d => !o.ddrFail.getLsbD d).length < 3) : ∃ t, startDies o s = startHalt t 2 := by
  have hpresent : (trainDies o s).mem.present = ~~~ o.ddrFail := by
    rw [trainDies_eq, raiseDies_present, raiseDies_present]
    dsimp only [trainedMem]
    rw [hd2d, show o.ddrFail ||| 0 = o.ddrFail from BitVec.or_zero]
  have hdies : presentDies (trainDies o s) < 3 := by
    have hcount : (List.range 4).filter (diePresent (trainDies o s)) = (List.range 4).filter fun d => !o.ddrFail.getLsbD d :=
      List.filter_congr fun d hd => by
        rw [diePresent, hpresent, BitVec.getLsbD_not, decide_eq_true (List.mem_range.mp hd), Bool.true_and]
    rw [presentDies, hcount]
    exact hfew
  exact ⟨trainDies o s, by simp only [startDies, if_pos hdies]⟩

/-- Start-up does not begin. -/
theorem startFrom3_of_held {o : StartupObs} {s : State} (h : s.pwr.trimTest = true ∨ tempWarnAt s ≤ o.hottest) :
    ∃ held, startFrom3 o s = { s with pwr := { s.pwr with ticks := s.pwr.ticks + o.ticks, heldStart := held } } := by
  unfold startFrom3
  dsimp only
  split
  · exact ⟨s.pwr.heldStart, rfl⟩
  next htrim =>
    rw [if_pos (h.resolve_left htrim)]
    exact ⟨some o, rfl⟩

/-! ## Glow's first heartbeat (R473) -/

theorem handlerArrive_low_queue (s : State) (cls : EventClass) (hlow : cls.severity ≠ 1) (hroom : s.safety.queue.length < 8) :
    (handlerArrive s cls).safety.queue.length ≤ s.safety.queue.length + 1 := by
  unfold handlerArrive
  extract_lets x now
  split
  · unfold handleNow
    dsimp only
    rw [if_neg hlow]
    exact Nat.le_succ _
  · exact List.length_append.le

/-- An event of severity 2 or 3 adds one to the queue at most. -/
theorem raise_low_queue (s : State) (cls : EventClass) (words : List W32) (hlow : cls.severity ≠ 1)
    (hroom : s.safety.queue.length < 8) : (raise s cls words).safety.queue.length ≤ s.safety.queue.length + 1 := by
  obtain ⟨e, he⟩ := emberEvent_eq s cls words false
  unfold raise raiseEv
  rw [he]
  dsimp only
  split
  · exact Nat.le_succ _
  · exact handlerArrive_low_queue { s with ember := e } cls hlow hroom

/-- What glow's party reset writes: the spouts, the host's vectors, the log and the event handler. -/
theorem glowPartyReset_frame {s : State} (hroom : s.safety.queue.length < 7) :
    ∃ sp h e f, glowPartyReset s = { s with spout := sp, host := h, ember := e, safety := f }
      ∧ f.state = s.safety.state ∧ f.queue.length < 8 := by
  have hchans : ∃ sp h, chanSendReset (chanSendReset (chanRecvReset (chanRecvReset s (.n 0)) (.n 3)) (.n 1)) (.n 2)
      = { s with spout := sp, host := h } := by
    have hrecv (s : State) (i : Fin 4) : ∃ sp h, chanRecvReset s (.n i) = { s with spout := sp, host := h } := by
      unfold chanRecvReset
      dsimp only
      split
      · obtain ⟨h, n, g, heq, -⟩ := signalFrame_signalClear (chanSet s (.n i) (recvReset (chanGet s (.n i)))) (.n i)
        exact ⟨_, _, heq⟩
      · exact ⟨_, _, rfl⟩
    obtain ⟨_, _, h0⟩ := hrecv s 0
    rw [h0]
    obtain ⟨_, _, h3⟩ := hrecv { s with spout := _, host := _ } 3
    rw [h3]
    exact ⟨_, _, rfl⟩
  obtain ⟨sp, h, heq⟩ := hchans
  unfold glowPartyReset
  rw [heq]
  unfold releaseLocks
  dsimp only
  split
  · exact ⟨sp, h, s.ember, s.safety, rfl, rfl, Nat.lt_succ_of_lt hroom⟩
  · have hq : (dropLocks { s with spout := sp, host := h } (· == 3)).safety.queue.length < 8 := Nat.lt_succ_of_lt hroom
    obtain ⟨e, f, hraise, hstate, -⟩ := raise_low _ .lockForcedRelease
      [BitVec.ofNat 32 (lockMask { s with spout := sp, host := h } (· == 3)),
        BitVec.ofNat 32 (lockMask { s with spout := sp, host := h } (· == 3) / 2 ^ 32)] (by decide) hq
    have hqueue := raise_low_queue _ .lockForcedRelease
      [BitVec.ofNat 32 (lockMask { s with spout := sp, host := h } (· == 3)),
        BitVec.ofNat 32 (lockMask { s with spout := sp, host := h } (· == 3) / 2 ^ 32)] (by decide) hq
    rw [hraise] at hqueue ⊢
    exact ⟨_, h, e, f, rfl, hstate, lt_of_le_of_lt hqueue (Nat.succ_lt_succ hroom)⟩

/-- A restart's registers (R434). -/
def restartCounted (s : State) : State :=
  modMgmt s fun m => { m with
    restarts := satInc m.restarts, restartAt := s.pwr.ticks :: m.restartAt.take 7, beatAt := s.pwr.ticks, high := 0, lowRun := 0 }

theorem restartImage_kept (s : State) (ok fl : Bool) (d : Digest) :
    (restartImage s ok fl d).pwr = s.pwr ∧ (restartImage s ok fl d).safety = s.safety
      ∧ (restartImage s ok fl d).mgmt.glow = (if ok || fl then 1 else 0)
      ∧ (restartImage s ok fl d).mgmt.digest = (if !ok && fl then d else s.mgmt.digest)
      ∧ (restartImage s ok fl d).mgmt.restarts = s.mgmt.restarts := by
  cases ok <;> cases fl <;> exact ⟨rfl, rfl, rfl, rfl, rfl⟩

/-- What a restart of glow leaves while the queue has room for its events. -/
theorem glowRestart_spec {s : State} (hroom : s.safety.queue.length < 7) (ok fl : Bool) (d : Digest) :
    (glowRestart s ok fl d).pwr = s.pwr ∧ (glowRestart s ok fl d).safety.state = s.safety.state
      ∧ (glowRestart s ok fl d).mgmt.glow = (if ok || fl then 1 else 0)
      ∧ (glowRestart s ok fl d).mgmt.digest = (if !ok && fl then d else s.mgmt.digest)
      ∧ (glowRestart s ok fl d).mgmt.restarts = satInc s.mgmt.restarts := by
  obtain ⟨sp, h, e, f, hparty, hstate, hq⟩ := glowPartyReset_frame (s := restartCounted s) hroom
  have hdef : glowRestart s ok fl d
      = raise (restartImage (reconfigure (glowPartyReset (restartCounted s))) ok fl d) .glowRestart [] := rfl
  obtain ⟨hpwr, hsafety, hglow, hdigest, hrestarts⟩ := restartImage_kept
    (reconfigure { restartCounted s with spout := sp, host := h, ember := e, safety := f }) ok fl d
  rw [hdef, hparty]
  have hroom8 : (restartImage (reconfigure { restartCounted s with spout := sp, host := h, ember := e, safety := f })
      ok fl d).safety.queue.length < 8 := by
    rw [hsafety]
    exact hq
  obtain ⟨e', f', hraise, hstate', -⟩ := raise_low _ .glowRestart [] (by decide) hroom8
  rw [hraise]
  exact ⟨hpwr, hstate'.trans ((congrArg (·.state) hsafety).trans hstate), hglow, hdigest, hrestarts⟩

/-- Glow's heartbeat word is taken. -/
def beaten (s : State) (beat : W32) : State :=
  modMgmt s fun m => { m with beat, beatAt := s.pwr.ticks, glow := if m.glow = 1 then 2 else m.glow }

theorem exec_glowHeartbeat_of_waiting {s : State} (hs : Live s) (hup : glowUp s = true) (hwait : s.pwr.waitGlow = true)
    (hstate : s.safety.state = .startup) (beat : W32) :
    exec (.glowHeartbeat beat) s = .next (startFinish (beaten s beat) s.pwr.reflectorOk) := by
  have hexec : exec (.glowHeartbeat beat) s = execGlowHeartbeat beat s := rfl
  have hends : ((beaten s beat).pwr.waitGlow && (beaten s beat).safety.state == .startup) = true := by
    rw [Bool.and_eq_true, beq_iff_eq]
    exact ⟨hwait, hstate⟩
  rw [hexec, execGlowHeartbeat, live_of_hub hs, hup]
  exact congrArg _ (if_pos hends)

theorem exec_startupHeartbeatTimeout {s : State} (hs : Live s) (hwait : s.pwr.waitGlow = true) (hstate : s.safety.state = .startup)
    (refl ok fl : Bool) (d : Digest) : exec (.startupHeartbeatTimeout refl ok fl d) s = .next (
      if s.pwr.ticks < s.mgmt.beatAt + 140 * ticksPerMs then s
      else startFinish (glowRestart s ok fl d) (refl && s.pwr.reflectorOk)) := by
  have hexec : exec (.startupHeartbeatTimeout refl ok fl d) s = execStartupHeartbeatTimeout refl ok fl d s := rfl
  rw [hexec, execStartupHeartbeatTimeout, live_of_hub hs, hwait, hstate]
  simp

theorem startFinish_of_bad (s : State) : (startFinish s false).safety.state = .halt
    ∧ (startFinish s false).pwr.ready = s.pwr.ready ∧ (startFinish s false).pwr.stop = true := by
  have hdef : startFinish s false = enterHalt (emberFlushStart (assertStop (emberEvent
      { s with pwr := { s.pwr with waitGlow := false, step := 9 } } .reflectorFault [] false))) := rfl
  rw [hdef, enterHalt_safety, enterHalt_pwr, stopAndFlush_pwr, emberEvent_pwr]
  exact ⟨rfl, rfl, rfl⟩

/-- Settles O51: power-on off the written-out start-up, and its failures by the step that meets them. -/
theorem startUp : Obligations.StartUp := by
  constructor
  · intro s o hoff hpin hrail
    have hon := exec_powerOn hoff hpin hrail o
    have hwarn : tempWarnAt (cold s o) = tempWarnAt s := rfl
    refine ⟨fun hclean hglow => ?noGlow, fun hclean hglow => ?glow, fun hheld => ?held, fun htrim hcool hbad => ?badFuses,
      fun htrim hcool hfuses hcfg hd2d hfew => ?fewDies⟩
    case noGlow =>
      obtain ⟨k, e, hup, hnext⟩ := startFrom3_up (s := cold s o) hclean hclean.1 rfl
      obtain ⟨-, -, -, -, hddr, hd2d, -⟩ := hclean
      rw [hglow] at hup
      obtain ⟨r, h, hready, hring⟩ := startFinish_ready (s := readyDies o (configured o (hubUp o (cold s o)) k e)) rfl
      refine ⟨_, hon.trans (congrArg _ (hup.trans hready)), ⟨rfl, rfl, rfl, rfl, rfl⟩, rfl, rfl, rfl, rfl, ?_, rfl, ?_, ?_, rfl, rfl, rfl,
        hnext rfl rfl, hring, ?_⟩
      · exact (trainedMem_of_clean hddr hd2d _).1
      · exact (trainedMem_of_clean hddr hd2d _).2
      · exact (configMgmt_glow o _).trans (by rw [hglow]; rfl)
      · exact (configMeas_two o _).trans (by rw [hubUp_meas o _ (by decide) (by decide)]; rfl)
    case glow =>
      obtain ⟨k, e, hup, -⟩ := startFrom3_up (s := cold s o) hclean hclean.1 rfl
      rw [hglow] at hup
      refine ⟨_, hon.trans (congrArg _ hup), rfl, rfl, rfl, rfl, rfl, ?_, ?_⟩
      · exact (configMgmt_glow o _).trans (by rw [hglow]; rfl)
      · exact (configMeas_three hglow _).trans (by rw [hubUp_meas o _ (by decide) (by decide)]; rfl)
    case held =>
      obtain ⟨held, hheld⟩ := startFrom3_of_held (o := o) (s := cold s o) hheld
      exact ⟨_, hon.trans (congrArg _ hheld), rfl, rfl, rfl, rfl, rfl⟩
    case badFuses =>
      obtain ⟨t, ht⟩ := startFrom3_of_badFuses (o := o) (s := cold s o) htrim hcool hbad
      exact ⟨_, hon.trans (congrArg _ ht), startHalt_spec t 1⟩
    case fewDies =>
      obtain ⟨k, e, hconf, -⟩ := loadConfig_clean (o := o) (s := hubUp o (cold s o)) hcfg rfl
      obtain ⟨t, ht⟩ := startDies_of_few (o := o) (s := configured o (hubUp o (cold s o)) k e) hd2d hfew
      have hrun : startFrom3 o (cold s o) = startHalt t 2 := by
        rw [startFrom3_eq (s := cold s o) htrim hcool hfuses, hconf, ht]
      exact ⟨_, hon.trans (congrArg _ hrun), startHalt_spec t 2⟩
  · intro s beat ok fl d hs hwait hstate hpre hroom hup
    refine ⟨fun hrefl => ⟨?beat, fun hlate => ?late, fun hearly => ?early⟩, fun hrefl => ?bad⟩
    case beat =>
      obtain ⟨r, h, hready, -⟩ := startFinish_ready (s := beaten s beat) hpre
      have hbeat := exec_glowHeartbeat_of_waiting hs hup hwait hstate beat
      rw [hrefl, hready] at hbeat
      exact ⟨_, hbeat, ⟨rfl, rfl, hs, rfl, rfl⟩, rfl, rfl, rfl⟩
    case late =>
      obtain ⟨hpwr, hstate', hglow, hdigest, hrestarts⟩ := glowRestart_spec hroom ok fl d
      have hpre' : (glowRestart s ok fl d).pwr.preS1 = [] := by rw [hpwr]; exact hpre
      obtain ⟨r, h, hready, -⟩ := startFinish_ready hpre'
      have hends := exec_startupHeartbeatTimeout hs hwait hstate true ok fl d
      rw [if_neg (show ¬ s.pwr.ticks < s.mgmt.beatAt + 140 * ticksPerMs from Nat.not_lt.mpr hlate), hrefl, Bool.and_true, hready,
        hpwr] at hends
      exact ⟨_, hends, ⟨rfl, rfl, hs, rfl, rfl⟩, hglow, hdigest, hrestarts, rfl⟩
    case early =>
      rw [exec_startupHeartbeatTimeout hs hwait hstate]
      exact congrArg _ (if_pos (show s.pwr.ticks < s.mgmt.beatAt + 140 * ticksPerMs from hearly))
    case bad =>
      obtain ⟨hhalt, hready, hstop⟩ := startFinish_of_bad (beaten s beat)
      exact ⟨_, (exec_glowHeartbeat_of_waiting hs hup hwait hstate beat).trans (by rw [hrefl]), hhalt, hready, hstop⟩

/-! ## Resets (R474, R475) -/

/-- PERST_N goes low. -/
def perstLow (s : State) : State :=
  { s with pwr := { s.pwr with perstN := false, wakeN := s.pwr.wakeN && s.pwr.pstate != .pilot } }

theorem exec_deviceReset {s : State} (hgood : s.pwr.pwrGood = true) (hseen : s.pwr.perstSeen = true) (hhigh : s.pwr.perstN = true)
    (hawake : s.pwr.pstate ≠ .pilot) : exec .deviceReset s = .next (resetBegin (perstLow s)) := by
  have hexec : exec .deviceReset s = .next (
      if s.pwr.pwrGood && s.pwr.perstSeen && s.pwr.perstN && s.pwr.pstate != .pilot then resetBegin (perstLow s) else perstLow s) := rfl
  rw [hexec, if_pos (by simp [hgood, hseen, hhigh, hawake])]

theorem resetBegin_spec (s : State) : (resetBegin s).safety.state = .startup ∧ (resetBegin s).jobs = []
    ∧ (resetBegin s).motion = s.motion := by
  have hmotion : (endJobs (emberFlushStart (emberEvent (assertStop s) .deviceReset [] false))).motion = s.motion := by
    rw [endJobs_motion]
    exact (((assertStop_kept s).trans (emberEvent_kept _ .deviceReset [] false)).trans (emberFlushStart_kept _)).motion
  exact ⟨rfl, endJobs_jobs _, hmotion⟩

/-- PERST_N goes high. -/
def perstHigh (s : State) : State :=
  { s with pwr := { s.pwr with perstN := true, perstSeen := s.pwr.perstSeen || s.pwr.pwrGood } }

theorem exec_perstDeassert (s : State) (o : StartupObs) : exec (.perstDeassert o) s = .next (
    if s.pwr.pwrGood && s.pwr.resetPend then restart o (perstHigh s) else perstHigh s) := rfl

/-- The end of a flush before a start-up writes the log, the spouts, the host's vectors and the idle time. -/
def flushed (s : State) (e : Ember) (sp : Spout) (h : HostIf) (idle : Nat) : State :=
  { s with ember := e, spout := sp, host := h, pwr := { s.pwr with idleSince := idle } }

/-- With both supplies good and PERST_N high the start-up runs. -/
theorem restart_eq {o : StartupObs} {s : State} (hfail : s.pwr.powerFail = false) (hperst : s.pwr.perstN = true) :
    ∃ e sp h idle, restart o s = startFrom3 o (freshHub (flushed s e sp h idle) false) := by
  have hflushed : ∃ e sp h idle, (if s.ember.flushing then flushEnd s else s) = flushed s e sp h idle := by
    split
    · obtain ⟨e, sp, h, ht⟩ := flushEnd_frame s
      exact ⟨e, sp, h, _, ht⟩
    · exact ⟨_, _, _, _, rfl⟩
  obtain ⟨e, sp, h, idle, hs⟩ := hflushed
  exact ⟨e, sp, h, idle, by simp [restart, hfail, hperst, hs]⟩

/-- What a start-up without a failure and without glow leaves of the pins, the fuses and the reports. -/
theorem startFrom3_kept {o : StartupObs} {s : State} (h : StartClean s o) (htrim : s.pwr.trimTest = false)
    (hpre : s.pwr.preS1 = []) (hglow : o.glowOk = false) :
    Started (startFrom3 o s) ∧ (startFrom3 o s).pwr.perstN = s.pwr.perstN ∧ (startFrom3 o s).pwr.stop = s.pwr.stop
      ∧ (startFrom3 o s).fuses = s.fuses ∧ (startFrom3 o s).sec.reports = s.sec.reports ∧ (startFrom3 o s).descs = s.descs
      ∧ (startFrom3 o s).pwr.resetPend = s.pwr.resetPend := by
  obtain ⟨k, e, hup, -⟩ := startFrom3_up h htrim hpre
  obtain ⟨r, h', hready, -⟩ := startFinish_ready (s := readyDies o (configured o (hubUp o s) k e)) hpre
  rw [hglow, if_neg Bool.false_ne_true, hready] at hup
  rw [hup]
  exact ⟨⟨rfl, rfl, rfl, rfl, rfl⟩, rfl, rfl, rfl, rfl, rfl, rfl⟩

/-- The start-up of a device reset without a failure. -/
theorem restart_spec {o : StartupObs} {s : State} (hfail : s.pwr.powerFail = false) (hperst : s.pwr.perstN = true)
    (htrim : s.pwr.trimTest = false) (hclean : StartClean s o) (hglow : o.glowOk = false) :
    Started (restart o s) ∧ (restart o s).pwr.perstN = true ∧ (restart o s).pwr.stop = s.pwr.stop
      ∧ (restart o s).fuses = s.fuses ∧ (restart o s).sec.reports = s.sec.reports ∧ (restart o s).descs = []
      ∧ (restart o s).pwr.resetPend = false := by
  obtain ⟨e, sp, h, idle, hrun⟩ := restart_eq (o := o) hfail hperst
  obtain ⟨hstart, hpin, hstop, hfuses, hreports, hdescs, hpend⟩ :=
    startFrom3_kept (s := freshHub (flushed s e sp h idle) false) hclean htrim rfl hglow
  rw [hrun]
  exact ⟨hstart, hpin.trans hperst, hstop, hfuses, hreports, hdescs, hpend⟩

theorem exec_pwrFailDeassert {s : State} (hgood : s.pwr.pwrGood = true) (o : StartupObs) :
    exec (.pwrFailDeassert o) s = .next (failGone o { s with pwr := { s.pwr with pwrFailN := true } }) := by
  have hexec : exec (.pwrFailDeassert o) s = .next (if s.pwr.pwrGood then failGone o { s with pwr := { s.pwr with pwrFailN := true } }
      else { s with pwr := { s.pwr with pwrFailN := true } }) := rfl
  rw [hexec, if_pos hgood]

/-- The rails with one back at its level. -/
def railUp (s : State) (r : Rail) : State := { s with pwr := { s.pwr with railLow := s.pwr.railLow &&& ~~~ railBit r } }

theorem exec_railRecovery {s : State} (hgood : s.pwr.pwrGood = true) (r : Rail) (o : StartupObs) :
    exec (.railRecovery r o) s = .next (failGone o (railUp s r)) := by
  have hexec : exec (.railRecovery r o) s = .next (if s.pwr.pwrGood then failGone o (railUp s r) else railUp s r) := rfl
  rw [hexec, if_pos hgood]

theorem railUp_of_last {s : State} {r : Rail} (h : s.pwr.railLow = railBit r) : (railUp s r).pwr.railLow = 0 := by
  have hbits : railBit r &&& ~~~ railBit r = 0 := by cases r <;> rfl
  exact (congrArg (· &&& ~~~ railBit r) h).trans hbits

/-! ## Trips (R497) -/

theorem raise_tempTrip_spec (s : State) : (raise s .tempTrip []).safety.state = .halt ∧ (raise s .tempTrip []).pwr.stop = true
    ∧ (raise s .tempTrip []).jobs = [] := by
  have hdef : raise s .tempTrip [] = enterHalt (emberFlushStart (assertStop (emberEvent s .tempTrip [] false))) := rfl
  rw [hdef, enterHalt_safety, enterHalt_pwr, enterHalt_jobs]
  exact ⟨rfl, rfl, rfl⟩

/-- The three levels of a device lie in order. -/
theorem temp_levels (s : State) : tempLowAt s < tempWarnAt s - 3 ∧ tempWarnAt s < tempTripAt s := by
  unfold tempLowAt tempWarnAt tempTripAt
  split <;> decide

theorem tempShown_eq {s : State} {d : Fin 7} {v : Int} {warn low : Bool} (htrip : v < tempTripAt s)
    (hwarn : (decide (tempWarnAt s ≤ v) || (s.pwr.warn && decide (tempWarnAt s - 3 < v))) = warn)
    (hlow : decide (v < tempLowAt s) = low) :
    tempShown s d v = { s with pwr := { s.pwr with tjMax := BitVec.ofInt 8 v, hottest := d.val, warn, low } } := by
  rw [tempShown, hwarn, hlow, decide_eq_false (Int.not_le.mpr htrip), Bool.or_false]

theorem tempRaised_eq {s : State} {v : Int} {warn low : Bool} (htrip : v < tempTripAt s)
    (hwarn : (decide (tempWarnAt s ≤ v) || (s.pwr.warn && decide (tempWarnAt s - 3 < v))) = warn)
    (hlow : decide (v < tempLowAt s) = low) (t : State) : tempRaised s v t =
      let s2 := if low && !s.pwr.low then raise t .tempLow [] else t
      if warn && !s.pwr.warn then raise s2 .tempWarn [] else s2 := by
  rw [tempRaised, hwarn, hlow, decide_eq_false (Int.not_le.mpr htrip)]
  rfl

/-- Settles O52: each supply by what an event leaves of the power registers, each reading by the level that it lies at. -/
theorem suppliesAndTemperature : Obligations.SuppliesAndTemperature := by
  refine ⟨?resets, ?supplies, ?temperature⟩
  case resets =>
    intro s o hgood
    refine ⟨fun hseen hhigh hawake => ?reset, fun hpend hfail htrim hclean hglow => ?restarted, fun hpend => ?pin⟩
    case reset =>
      obtain ⟨hstate, hjobs, hmotion⟩ := resetBegin_spec (perstLow s)
      have hpwr := resetBegin_pwr (perstLow s)
      exact ⟨_, exec_deviceReset hgood hseen hhigh hawake, by rw [hpwr]; rfl, by rw [hpwr], by rw [hpwr], by rw [hpwr], by rw [hpwr],
        hstate, hjobs, resetBegin_fuses _, hmotion⟩
    case restarted =>
      obtain ⟨hstart, hperst, hstop, hfuses, hreports, hdescs, hdone⟩ :=
        restart_spec (s := perstHigh s) hfail rfl htrim hclean hglow
      exact ⟨_, (exec_perstDeassert s o).trans (congrArg _ (if_pos (by simp [hgood, hpend]))), hstart, hperst, hstop, hfuses, hreports,
        hdescs, hdone⟩
    case pin =>
      rw [exec_perstDeassert, if_neg (by simp [hpend]), perstHigh, hgood, Bool.or_true]
  case supplies =>
    intro s o r hgood failed
    refine ⟨⟨fun hpin => ?asserted, fun hhigh => ?undervolt⟩, fun hfail hup hstate hroom => ⟨fun hrail => ?deasserted,
      fun hrail hpin => ?recovered⟩, ?off⟩
    case asserted =>
      obtain ⟨hfail, hstop, hjobs, hhanded, hmotion, hworld, hpinN, -⟩ := failAssert_spec { s with pwr := { s.pwr with pwrFailN := false } }
      exact ⟨_, exec_pwrFailAssert hgood hpin, ⟨hfail, hstop, hjobs, hhanded, hmotion, hworld⟩, hpinN⟩
    case undervolt =>
      obtain ⟨hfail, hstop, hjobs, hhanded, hmotion, hworld, -, hrail⟩ := failAssert_spec (raise (railDown s r) .railUndervolt [])
      exact ⟨_, exec_railUndervolt hgood hhigh,
        ⟨hfail, hstop, hjobs, hhanded, hmotion.trans (raise_motion ..), hworld.trans (raise_world ..)⟩,
        hrail.trans (pinsKept_raise (railDown s r) .railUndervolt []).supplies.2.2.1⟩
    case deasserted =>
      obtain ⟨hpwr, hsafety⟩ := relit_of_gone o (s := { s with pwr := { s.pwr with pwrFailN := true } }) hfail rfl hrail hup hstate hroom
      exact ⟨_, exec_pwrFailDeassert hgood o, ⟨by rw [hpwr], by rw [hsafety]; rfl, by rw [hsafety]; rfl⟩, by rw [hpwr]⟩
    case recovered =>
      have hlast := railUp_of_last hrail
      obtain ⟨hpwr, hsafety⟩ := relit_of_gone o (s := railUp s r) hfail hpin hlast hup hstate hroom
      exact ⟨_, exec_railRecovery hgood r o, ⟨by rw [hpwr], by rw [hsafety]; rfl, by rw [hsafety]; rfl⟩, by rw [hpwr]; exact hlast⟩
    case off => exact ⟨_, rfl, rfl, rfl, rfl, rfl, rfl⟩
  case temperature =>
    intro s d v hgood hawake hheld shown
    obtain ⟨hlevels, hwarnTrip⟩ := temp_levels s
    have hread := exec_tempRead hgood hawake hheld d v
    refine ⟨fun hlow hcool => ?cool, fun hhot hcool => ?near, fun hhot hcool => ?warns, fun hcold => ?cold, fun hhot hfirst => ?trips⟩
    case cool =>
      have hwarn : (decide (tempWarnAt s ≤ v) || (s.pwr.warn && decide (tempWarnAt s - 3 < v))) = false := by
        rw [decide_eq_false (by omega), decide_eq_false (by omega), Bool.and_false, Bool.or_false]
      have hlow' : decide (v < tempLowAt s) = false := decide_eq_false (Int.not_lt.mpr hlow)
      have htrip : v < tempTripAt s := by omega
      rw [hread, tempRaised_eq htrip hwarn hlow', tempShown_eq htrip hwarn hlow']
      rfl
    case near =>
      have hwarn : (decide (tempWarnAt s ≤ v) || (s.pwr.warn && decide (tempWarnAt s - 3 < v))) = s.pwr.warn := by
        rw [decide_eq_false (by omega), decide_eq_true hhot, Bool.and_true, Bool.false_or]
      have hlow' : decide (v < tempLowAt s) = false := decide_eq_false (by omega)
      have htrip : v < tempTripAt s := by omega
      rw [hread, tempRaised_eq htrip hwarn hlow', tempShown_eq htrip hwarn hlow', Bool.and_not_self]
      rfl
    case warns =>
      have hwarn : (decide (tempWarnAt s ≤ v) || (s.pwr.warn && decide (tempWarnAt s - 3 < v))) = true := by
        rw [decide_eq_true hhot, Bool.true_or]
      have hlow' : decide (v < tempLowAt s) = false := decide_eq_false (by omega)
      rw [hread, tempRaised_eq hcool hwarn hlow', tempShown_eq hcool hwarn hlow']
      cases s.pwr.warn <;> rfl
    case cold =>
      have hwarn : (decide (tempWarnAt s ≤ v) || (s.pwr.warn && decide (tempWarnAt s - 3 < v))) = false := by
        rw [decide_eq_false (by omega), decide_eq_false (by omega), Bool.and_false, Bool.or_false]
      have hlow' : decide (v < tempLowAt s) = true := decide_eq_true hcold
      have htrip : v < tempTripAt s := by omega
      rw [hread, tempRaised_eq htrip hwarn hlow', tempShown_eq htrip hwarn hlow']
      cases s.pwr.low <;> rfl
    case trips =>
      have htrips : (decide (tempTripAt s ≤ v) && !s.pwr.tripped) = true := by rw [hfirst, decide_eq_true hhot]; rfl
      have hkept := (pinsKept_tempRaised s v (tempShown s d v)).supplies.2.2.2
      refine ⟨_, hread, hkept.trans ?_, ?_⟩
      · exact (congrArg (s.pwr.tripped || ·) (decide_eq_true hhot)).trans (Bool.or_true _)
      · unfold tempRaised
        dsimp only
        rw [if_pos htrips]
        exact raise_tempTrip_spec _

end Sys2Proof.Machine

/-! # The device memory window and debug accesses (O5) -/

namespace Sys2Proof.Machine

open Sys2Proof

/-! ## Places: what a store leaves to be read -/

theorem placeHas_placeWrite (s : State) (pl : Place) (bs : List Byte) (a : Nat) :
    placeHas (placeWrite s pl bs) pl a = placeHas s pl a := by
  cases pl <;> rfl

theorem placeRam_placeWrite (s : State) (pl : Place) (bs : List Byte) :
    placeRam (placeWrite s pl bs) pl = (placeRam s pl).writeWhere (placeHas s pl) (placeAddr pl) bs := by
  cases pl with
  | basin l a => simp [placeWrite, setPlaceRam, placeRam]
  | cistern a => rfl
  | dram a => rfl

/-- A store whose addresses all exist is what is then read. -/
theorem placeRead_placeWrite (s : State) (pl : Place) (bs : List Byte)
    (hall : ∀ i < bs.length, placeHas s pl (placeAddr pl + i) = true) : placeRead (placeWrite s pl bs) pl bs.length = bs := by
  refine List.ext_getElem (by simp [placeRead]) fun i hi hbs => ?_
  have hhas := hall i hbs
  simp only [placeRead, List.getElem_map, List.getElem_range, placeHas_placeWrite, hhas, if_true, placeRam_placeWrite,
    Ram.read_writeWhere]
  rw [if_pos ⟨Nat.le_add_right .., Nat.add_lt_add_left hbs _, trivial⟩, Nat.add_sub_cancel_left]
  simp [nth, List.getElem?_eq_getElem hbs]

/-- An address and those that share its aligned block exist together. -/
theorem lt_of_block {a b m n : Nat} (hn : 0 < n) (hdvd : n ∣ m) (hsame : a / n = b / n) (h : a < m) : b < m := by
  obtain ⟨c, rfl⟩ := hdvd
  rw [Nat.mul_comm, ← Nat.div_lt_iff_lt_mul hn] at h ⊢
  exact hsame ▸ h

/-- The 8 B block of an existing place exists as a whole. -/
theorem placeHas_of_block (s : State) (pl : Place) {a b : Nat} (hsame : a / 8 = b / 8) (h : placeHas s pl a = true) :
    placeHas s pl b = true := by
  cases pl with
  | basin l x =>
    simp only [placeHas, Bool.and_eq_true, decide_eq_true_eq] at h ⊢
    exact ⟨lt_of_block (n := 8) (by decide) (by decide) hsame h.1, h.2⟩
  | cistern x =>
    simp only [placeHas, cisternHas, cisternDie, Bool.and_eq_true, decide_eq_true_eq] at h ⊢
    refine ⟨lt_of_block (n := 8) (by decide) (by decide) hsame h.1, ?_⟩
    rw [show b / 0x0300_0000 = a / 0x0300_0000 by omega]
    exact h.2
  | dram x =>
    simp only [placeHas, dramHas, decide_eq_true_eq] at h ⊢
    exact lt_of_block (n := 8) (by decide) ⟨s.mem.capacity * 2 ^ 27, by rw [gib]; omega⟩ hsame h

/-! ## What a wake leaves to be read -/

/-- The contents of the memories, and which of their addresses exist, are the same. -/
structure SameData (s t : State) : Prop where
  fuses : t.fuses = s.fuses
  cistern : t.mem.cistern = s.mem.cistern
  dram : t.mem.dram = s.mem.dram
  present : t.mem.present = s.mem.present
  capacity : t.mem.capacity = s.mem.capacity
  basin : ∀ p, (lant t p).basin = (lant s p).basin

theorem SameData.refl (s : State) : SameData s s := ⟨rfl, rfl, rfl, rfl, rfl, fun _ => rfl⟩

theorem SameData.placeHas {s t : State} (h : SameData s t) (pl : Place) (a : Nat) : placeHas t pl a = placeHas s pl a := by
  cases pl with
  | basin l x => rw [Machine.placeHas, Machine.placeHas, h.fuses]
  | cistern x => simp only [Machine.placeHas, cisternHas, diePresent, h.present]
  | dram x => simp only [Machine.placeHas, dramHas, h.capacity]

theorem SameData.placeRead {s t : State} (h : SameData s t) (pl : Place) (n : Nat) : placeRead t pl n = placeRead s pl n := by
  have hram : placeRam t pl = placeRam s pl := by
    cases pl with
    | basin l x => exact h.basin l
    | cistern x => exact h.cistern
    | dram x => exact h.dram
  simp only [Machine.placeRead, h.placeHas, hram]

theorem basin_wakeReady {s : State} (h : CanWake s) (p : Phys) : (lant (wakeReady s) p).basin = (lant s p).basin := by
  rw [wakeReady, lant_wakeJobs _ h]
  split <;> rfl

theorem sameData_dozeLeave (s : State) : SameData s (dozeLeave s) := by
  by_cases h : s.pwr.pstate = .doze
  · have hbasin (p : Phys) : (lant (dozeLeave s) p).basin = (lant s p).basin := by
      rw [dozeLeave_of_doze h, basin_wakeReady (canWake_dozeEnd s), lant_dozeEnd]
    obtain ⟨v, st, heq, -⟩ := dozeLeave_frame h
    rw [heq] at hbasin ⊢
    exact ⟨rfl, rfl, rfl, rfl, rfl, hbasin⟩
  · rw [dozeLeave_of_awake h]
    exact .refl s

/-- A memory that a host or debug access reaches is awake when the access is performed (R58). -/
theorem wakeFor_spec (s : State) (pl : Place) : SameData s (wakeFor s pl) ∧ placeAsleep (wakeFor s pl) pl = false := by
  have hdoze := sameData_dozeLeave s
  unfold wakeFor
  cases pl with
  | basin l a =>
    dsimp only
    split
    · refine ⟨⟨hdoze.fuses, hdoze.cistern, hdoze.dram, hdoze.present, hdoze.capacity, fun p => ?_⟩, ?_⟩
      · rw [lant_modLant]
        split
        next h => subst h; exact hdoze.basin l
        next => exact hdoze.basin p
      · simp [placeAsleep, Retain.asleep]
    next h => exact ⟨hdoze, Bool.eq_false_iff.mpr h⟩
  | cistern a =>
    dsimp only
    split
    next h =>
      unfold setGroup
      split
      next hgroup =>
        refine ⟨⟨hdoze.fuses, hdoze.cistern, hdoze.dram, hdoze.present, hdoze.capacity, hdoze.basin⟩, ?_⟩
        simp [placeAsleep, groupRetain, hgroup, Vector.get_eq_getElem, Retain.asleep]
      next hgroup => simp [groupRetain, hgroup, Retain.asleep] at h
    next h => exact ⟨hdoze, Bool.eq_false_iff.mpr h⟩
  | dram a => exact ⟨hdoze, rfl⟩

theorem wakeFor_of_awake {s : State} (hdoze : s.pwr.pstate ≠ .doze) {pl : Place} (h : placeAsleep s pl = false) :
    wakeFor s pl = s := by
  unfold wakeFor
  rw [dozeLeave_of_awake hdoze]
  cases pl with
  | basin l a => exact if_neg (Bool.eq_false_iff.mp h)
  | cistern a => exact if_neg (Bool.eq_false_iff.mp h)
  | dram a => rfl

/-- Where no rill-side access waits, none is performed before the access. -/
theorem settlePlace_of_none {s : State} {pl : Place} (h : ∀ p a, pl = .basin p a → (lant s p).rill = []) : settlePlace s pl = s := by
  cases pl with
  | basin p a =>
    have hrill := h p a rfl
    have hsame : { lant s p with rill := [] } = lant s p := by rw [← hrill]
    have hset : setLant s p (lant s p) = s := by simp [setLant, lant, Vector.get_eq_getElem]
    rw [settlePlace, settleRill, hrill, List.foldl_nil, modLant, hsame, hset]
  | cistern a => rfl
  | dram a => rfl

/-! ## Window accesses -/

section Window
variable {s : State}

theorem memWindow_of_place {off : Nat} {size : AccSize} (hok : accOk size off = true) (hrun : diesReset s = false) {pl : Place}
    (hpl : winPlace s off = some pl) (write : Bool) (v : W64) :
    memWindow s off size write v = winAccess s pl (accBytes size) write v := by
  simp [memWindow, hok, hrun, hpl]

/-- An access that waits for nothing is performed. -/
theorem winAccess_of_awake {pl : Place} (hdoze : s.pwr.pstate ≠ .doze) (hrill : ∀ p a, pl = .basin p a → (lant s p).rill = [])
    (hawake : placeAsleep s pl = false) (hfree : (∃ a, pl = .dram a) → hostWaits s = false) (n : Nat) (write : Bool) (v : W64) :
    winAccess s pl n write v
      = if write then placeWrite s pl (leBytes n v.toNat) else reqReturn s .host (word8 (placeRead s pl n)) := by
  unfold winAccess
  rw [settlePlace_of_none hrill, wakeFor_of_awake hdoze hawake]
  cases pl with
  | basin p a => rfl
  | cistern a => rfl
  | dram a => exact if_neg (Bool.eq_false_iff.mp (hfree ⟨a, rfl⟩))

/-- An access to DRAM that waits joins the others, in order (R67). -/
theorem winAccess_of_waiting (hdoze : s.pwr.pstate ≠ .doze) (hwait : hostWaits s = true) (a n : Nat) (write : Bool) (v : W64) :
    winAccess s (.dram a) n write v = { s with mem := { s.mem with waits := s.mem.waits ++ [⟨a, n, write, v⟩] } } := by
  unfold winAccess
  rw [settlePlace_of_none (fun p a h => Place.noConfusion h), wakeFor_of_awake hdoze rfl]
  exact if_pos hwait

/-- At an address without memory, and while the dies are in reset, a read returns 0 and a write is ignored. -/
theorem memWindow_of_nothing {off : Nat} {size : AccSize} (hok : accOk size off = true) (hdoze : s.pwr.pstate ≠ .doze)
    (h : winPlace s off = none ∨ diesReset s = true) (write : Bool) (v : W64) :
    memWindow s off size write v = if write then s else reqReturn s .host 0 := by
  unfold memWindow
  rw [hok, dozeLeave_of_awake hdoze, ite_self]
  cases hreset : diesReset s
  · rw [h.resolve_right (by simp [hreset])]
    rfl
  · rfl

/-- The window shows the same place after a store through it. -/
theorem winPlace_placeWrite (pl : Place) (bs : List Byte) (off : Nat) : winPlace (placeWrite s pl bs) off = winPlace s off := by
  cases pl <;> rfl

theorem diesReset_placeWrite (pl : Place) (bs : List Byte) : diesReset (placeWrite s pl bs) = diesReset s := by
  cases pl <;> rfl

theorem hostWaits_placeWrite (pl : Place) (bs : List Byte) : hostWaits (placeWrite s pl bs) = hostWaits s := by
  cases pl <;> rfl

theorem pwr_placeWrite (pl : Place) (bs : List Byte) : (placeWrite s pl bs).pwr = s.pwr := by
  cases pl <;> rfl

theorem lant_placeWrite (pl : Place) (bs : List Byte) (p : Phys) :
    ∃ b, lant (placeWrite s pl bs) p = { lant s p with basin := b } := by
  cases pl with
  | basin l a =>
    by_cases h : l = p
    · subst h
      exact ⟨_, lant_placeWrite_basin s l a bs⟩
    · refine ⟨(lant s p).basin, ?_⟩
      rw [placeWrite, setPlaceRam, lant_modLant, if_neg h]
  | cistern a => exact ⟨(lant s p).basin, rfl⟩
  | dram a => exact ⟨(lant s p).basin, rfl⟩

theorem placeAsleep_placeWrite (x pl : Place) (bs : List Byte) : placeAsleep (placeWrite s x bs) pl = placeAsleep s pl := by
  cases pl with
  | basin p a =>
    obtain ⟨b, h⟩ := lant_placeWrite (s := s) x bs p
    rw [placeAsleep, h]
    rfl
  | cistern a => cases x <;> rfl
  | dram a => rfl

theorem rill_placeWrite (x : Place) (bs : List Byte) (p : Phys) : (lant (placeWrite s x bs) p).rill = (lant s p).rill := by
  obtain ⟨b, h⟩ := lant_placeWrite (s := s) x bs p
  rw [h]

/-- An aligned access lies in one 8 B block, at an offset that is aligned too. -/
theorem winPlace_aligned {off : Nat} {size : AccSize} (hok : accOk size off = true) {pl : Place} (hpl : winPlace s off = some pl) :
    ∀ i < accBytes size, (placeAddr pl + i) / 8 = placeAddr pl / 8 := by
  have haddr : placeAddr pl = bits s.mem.memWin.toNat 21 8 * 0x40_0000 + off := by
    unfold winPlace at hpl
    dsimp only at hpl
    split at hpl
    · split at hpl
      · obtain ⟨p, -, rfl⟩ := Option.map_eq_some_iff.mp hpl
        rfl
      · nomatch hpl
    · split at hpl
      · exact Option.some.inj hpl ▸ rfl
      · nomatch hpl
    · split at hpl
      · exact Option.some.inj hpl ▸ rfl
      · nomatch hpl
    · nomatch hpl
  intro i hi
  rw [haddr]
  cases size with
  | b4 => simp only [accOk, beq_iff_eq, accBytes] at hok hi; omega
  | b8 => simp only [accOk, beq_iff_eq, accBytes] at hok hi; omega
  | other => nomatch hok

end Window

theorem leNat_replicate_zero (n : Nat) : leNat (List.replicate n 0#8) = 0 := by
  induction n with
  | zero => rfl
  | succ n ih => simp [List.replicate_succ, leNat, ih]

theorem leNat_append_zeros (bs : List Byte) (n : Nat) : leNat (bs ++ List.replicate n 0) = leNat bs := by
  induction bs with
  | nil => exact leNat_replicate_zero n
  | cons b t ih => rw [List.cons_append, leNat, ih, leNat]

/-- What the bus returns of the bytes of an access that has been stored. -/
theorem word8_leBytes {n : Nat} (hn : n ≤ 8) (v : Nat) : word8 (leBytes n v) = BitVec.ofNat 64 (v % 2 ^ (8 * n)) := by
  have hpad : slice (leBytes n v) 0 8 = leBytes n v ++ List.replicate (8 - n) 0 := by
    rw [slice, List.drop_zero, List.take_of_length_le ((leBytes_length n v).le.trans hn), leBytes_length]
  rw [word8, field, hpad, leNat_append_zeros, leNat_leBytes, Nat.pow_mul]

theorem accBytes_le (size : AccSize) : accBytes size ≤ 8 := by cases size <;> decide

/-! ## Debug accesses (R44, R58, R413) -/

theorem placeAddr_placeWord (pl : Place) : placeAddr (placeWord pl) = placeAddr pl / 8 * 8 := by
  cases pl <;> rfl

theorem placeHas_placeWord (s : State) (pl : Place) (a : Nat) : placeHas s (placeWord pl) a = placeHas s pl a := by
  cases pl <;> rfl

theorem exec_debugAccess_of_open {s : State} (hs : Live s) (hopen : s.sec.debugOff = false) (hrun : diesReset s = false) {pl : Place}
    (hrill : ∀ p a, pl = .basin p a → (lant s p).rill = []) (write : Bool) (v : W64) :
    exec (.debugAccess pl write v) s = .next (
      if write then placeWrite (wakeFor s (placeWord pl)) (placeWord pl) (leBytes 8 v.toNat)
      else reqReturn (wakeFor s (placeWord pl)) .debug (word8 (placeRead (wakeFor s (placeWord pl)) (placeWord pl) 8))) := by
  have hexec : exec (.debugAccess pl write v) s = execDebugAccess pl write v s := rfl
  rw [hexec, execDebugAccess, live_of_hub hs]
  dsimp only
  rw [hopen, hrun, settlePlace_of_none hrill]
  rfl

theorem exec_debugAccess_of_reset {s : State} (hs : Live s) (hopen : s.sec.debugOff = false) (hrun : diesReset s = true) (pl : Place)
    (write : Bool) (v : W64) : exec (.debugAccess pl write v) s = .next (if write then s else reqReturn s .debug 0) := by
  have hexec : exec (.debugAccess pl write v) s = execDebugAccess pl write v s := rfl
  rw [hexec, execDebugAccess, live_of_hub hs]
  dsimp only
  rw [hopen, hrun]
  rfl

theorem exec_debugAccess_of_off {s : State} (hs : Live s) (hoff : s.sec.debugOff = true) (pl : Place) (write : Bool) (v : W64) :
    exec (.debugAccess pl write v) s = .next s := by
  have hexec : exec (.debugAccess pl write v) s = execDebugAccess pl write v s := rfl
  rw [hexec, execDebugAccess, live_of_hub hs, hoff]
  rfl

theorem exec_debugAttach {s : State} (hs : Live s) : exec .debugAttach s = .next (
    if s.sec.debugOff then s else extendEvent { s with sec := { s.sec with debugSeen := true } } 3) :=
  live_of_hub hs fun s => if s.sec.debugOff then s else extendEvent { s with sec := { s.sec with debugSeen := true } } 3

/-- The word at an existing place, once stored, is what is read of it. -/
theorem placeRead_word {s : State} {pl : Place} (h : placeHas s pl (placeAddr pl) = true) (v : Nat) :
    placeRead (placeWrite s (placeWord pl) (leBytes 8 v)) (placeWord pl) 8 = leBytes 8 v := by
  have hlength : (leBytes 8 v).length = 8 := leBytes_length 8 v
  have hread := placeRead_placeWrite s (placeWord pl) (leBytes 8 v) fun i hi => by
    rw [hlength] at hi
    rw [placeAddr_placeWord, placeHas_placeWord]
    exact placeHas_of_block s pl (by omega) h
  rwa [hlength] at hread

theorem placeAsleep_reqDebug (s : State) (x : W64) (pl : Place) : placeAsleep (reqReturn s .debug x) pl = placeAsleep s pl := by
  cases pl <;> rfl

theorem placeRead_reqDebug (s : State) (x : W64) (pl : Place) (n : Nat) :
    placeRead (reqReturn s .debug x) pl n = placeRead s pl n := by
  cases pl <;> rfl

/-- Settles O5: an access that waits for nothing stores or reads the place's bytes, which share an aligned block. -/
theorem hostMemoryAccess : Obligations.HostMemoryAccess := by
  refine ⟨?window, ?waits, ?debug⟩
  case window =>
    intro s off size v pl hs hdoze hrun hrill hok hpl hexists hawake hfree t
    have haligned := winPlace_aligned hok hpl
    have hlength : (leBytes (accBytes size) v.toNat).length = accBytes size := leBytes_length ..
    constructor
    · refine (busLive_of_onLink hs fun s => memWindow s off.toNat size true v).trans (congrArg _ ?_)
      rw [memWindow_of_place hok hrun hpl, winAccess_of_awake hdoze hrill hawake hfree, if_pos rfl]
    · have hst : OnLink t := by
        obtain ⟨hhub, hperst⟩ := hs
        exact ⟨(congrArg (·.hub) (pwr_placeWrite pl _)).trans hhub, (congrArg (·.perstN) (pwr_placeWrite pl _)).trans hperst⟩
      have hstored := placeRead_placeWrite s pl (leBytes (accBytes size) v.toNat) fun i hi =>
        placeHas_of_block s pl (haligned i (hlength ▸ hi)).symm hexists
      rw [hlength] at hstored
      refine (busLive_of_onLink hst fun s => memWindow s off.toNat size false 0).trans (congrArg _ ?_)
      rw [memWindow_of_place hok ((diesReset_placeWrite ..).trans hrun) ((winPlace_placeWrite ..).trans hpl),
        winAccess_of_awake (by rw [pwr_placeWrite]; exact hdoze) (fun p a h => (rill_placeWrite ..).trans (hrill p a h))
          ((placeAsleep_placeWrite ..).trans hawake) (fun h => (hostWaits_placeWrite ..).trans (hfree h)), if_neg Bool.false_ne_true]
      rw [hstored, word8_leBytes (accBytes_le size)]
      rfl
  case waits =>
    intro s off w v a hs hdoze haligned
    have hok : accOk .b8 off.toNat = true := beq_iff_eq.mpr haligned
    refine ⟨fun hrun hpl hwait => ?_, fun hnothing => ⟨?_, ?_⟩⟩
    · refine (busLive_of_onLink hs fun s => memWindow s off.toNat .b8 w v).trans (congrArg _ ?_)
      rw [memWindow_of_place hok hrun hpl, winAccess_of_waiting hdoze hwait]
      rfl
    · exact (busLive_of_onLink hs fun s => memWindow s off.toNat .b8 true v).trans
        (congrArg _ (memWindow_of_nothing hok hdoze hnothing true v))
    · exact (busLive_of_onLink hs fun s => memWindow s off.toNat .b8 false v).trans
        (congrArg _ (memWindow_of_nothing hok hdoze hnothing false v))
  case debug =>
    intro s pl w v hs at_
    refine ⟨fun hoff => ⟨exec_debugAccess_of_off hs hoff pl w v, ?_⟩, fun hopen => ⟨?_, fun hrun =>
      ⟨exec_debugAccess_of_reset hs hopen hrun pl true v, exec_debugAccess_of_reset hs hopen hrun pl false v⟩,
      fun hrun hrill => ⟨?read, ?store⟩⟩⟩
    · rw [exec_debugAttach hs, if_pos hoff]
    · rw [exec_debugAttach hs, hopen]
      rfl
    all_goals obtain ⟨hdata, hawake⟩ := wakeFor_spec s (placeWord pl)
    case read =>
      have hstep := exec_debugAccess_of_open hs hopen hrun hrill false v
      rw [if_neg Bool.false_ne_true, hdata.placeRead] at hstep
      exact ⟨_, hstep, (placeAsleep_reqDebug ..).trans hawake, rfl, (placeRead_reqDebug ..).trans (hdata.placeRead ..)⟩
    case store =>
      have hstep := exec_debugAccess_of_open hs hopen hrun hrill true v
      rw [if_pos rfl] at hstep
      exact ⟨_, hstep, (placeAsleep_placeWrite ..).trans hawake,
        fun hexists => placeRead_word ((hdata.placeHas ..).trans hexists) v.toNat⟩

end Sys2Proof.Machine

/-! # The ring engine (O31, O32, O33) -/

namespace Sys2Proof.Machine

open Sys2Proof

/-! ## Events leave the rings -/

/-- The rings' registers are the same. -/
def SameRings (s t : State) : Prop := t.rings.ring = s.rings.ring

theorem keepGates_rings (s : State) : (keepGates s).rings = s.rings := by unfold keepGates; rfl

theorem sameRings_events : EventRule SameRings where
  refl _ := rfl
  trans h k := Eq.trans k h
  ember _ _ := rfl
  safety _ _ := rfl
  stop _ := rfl
  preS1 _ _ := rfl
  halted _ := rfl
  gates s := congrArg Rings.ring (keepGates_rings s)
  jobs s := congrArg Rings.ring (endJobs_rings s)
  header := refreshHeader_ring

theorem ringGet_congr {s t : State} (h : t.rings.ring = s.rings.ring) (r : RingId) : ringGet t r = ringGet s r := by
  rw [ringGet, h, ringGet]

theorem ringGet_raise (s : State) (cls : EventClass) (words : List W32) (r : RingId) : ringGet (raise s cls words) r = ringGet s r :=
  ringGet_congr (sameRings_events.raise s cls words) r

/-- An entry of the shadow area is a write of host memory, or nothing. -/
theorem writeEntry_frame (s : State) (r : RingId) : ∃ m, writeEntry s r = { s with host := { s.host with mem := m } } := by
  unfold writeEntry
  split <;> exact ⟨_, rfl⟩

theorem ringGet_writeEntry (s : State) (r q : RingId) : ringGet (writeEntry s r) q = ringGet s q := by
  obtain ⟨m, h⟩ := writeEntry_frame s r
  rw [h]
  rfl

theorem descs_writeEntry (s : State) (r : RingId) : (writeEntry s r).descs = s.descs := by
  obtain ⟨m, h⟩ := writeEntry_frame s r
  rw [h]

theorem jobs_writeEntry (s : State) (r : RingId) : (writeEntry s r).jobs = s.jobs := by
  obtain ⟨m, h⟩ := writeEntry_frame s r
  rw [h]

/-! ## Reading descriptors (R324, R330) -/

/-- A ring that has read its next descriptor: one that lies before ACCEPTED was accepted before. -/
def ringRead (g : Ring) : Ring :=
  { g with readTo := g.readTo + 1, accepted := if g.readTo = g.accepted then g.accepted + 1 else g.accepted }

/-- Reading writes READ and ACCEPTED alone. -/
theorem ringRead_iterate (n : Nat) (g : Ring) :
    ∃ a, ringRead^[n] g = { g with readTo := g.readTo + BitVec.ofNat 32 n, accepted := a } := by
  induction n with
  | zero => exact ⟨g.accepted, by simp⟩
  | succ n ih =>
    obtain ⟨a, h⟩ := ih
    rw [Function.iterate_succ_apply', h, ringRead, BitVec.ofNat_add, ← BitVec.add_assoc]
    exact ⟨_, rfl⟩

/-- With nothing left to execute again, each descriptor that is read is accepted. -/
theorem ringRead_iterate_accepted (n : Nat) {g : Ring} (h : g.readTo = g.accepted) :
    (ringRead^[n] g).accepted = g.accepted + BitVec.ofNat 32 n ∧ (ringRead^[n] g).readTo = (ringRead^[n] g).accepted := by
  induction n with
  | zero => exact ⟨by simp, h⟩
  | succ n ih =>
    obtain ⟨hacc, heq⟩ := ih
    rw [Function.iterate_succ_apply']
    simp only [ringRead, if_pos heq]
    exact ⟨by rw [hacc, BitVec.ofNat_add, BitVec.add_assoc]; rfl, by rw [heq]⟩

/-- Up to ACCEPTED, nothing more is accepted. -/
theorem ringRead_iterate_replay (n : Nat) {g : Ring} (h : n ≤ (g.accepted - g.readTo).toNat) :
    (ringRead^[n] g).accepted = g.accepted := by
  induction n with
  | zero => rfl
  | succ n ih =>
    obtain ⟨a, heq⟩ := ringRead_iterate n g
    have hacc : a = g.accepted := by
      have hn := ih (Nat.le_of_succ_le h)
      rw [heq] at hn
      exact hn
    rw [Function.iterate_succ_apply', heq, hacc, ringRead]
    refine if_neg fun hend => ?_
    have hread : g.accepted - g.readTo = BitVec.ofNat 32 n := by rw [← hend]; bv_omega
    rw [hread] at h
    have : n % 2 ^ 32 ≤ n := Nat.mod_le ..
    simp only [BitVec.toNat_ofNat] at h
    omega

/-- What no ring operation here writes: jobs, hand-offs, and whether the device is attached. -/
def WorkKept (s t : State) : Prop := t.jobs = s.jobs ∧ t.motion = s.motion ∧ t.rings.detached = s.rings.detached

theorem WorkKept.refl (s : State) : WorkKept s s := ⟨rfl, rfl, rfl⟩

theorem WorkKept.trans {a b c : State} (h : WorkKept a b) (k : WorkKept b c) : WorkKept a c := by
  obtain ⟨hj, hm, hd⟩ := h
  obtain ⟨kj, km, kd⟩ := k
  exact ⟨kj.trans hj, km.trans hm, kd.trans hd⟩

theorem workKept_dozeLeave (s : State) : WorkKept s (dozeLeave s) := by
  obtain ⟨v, p, g, m, h⟩ := fillFrame_dozeLeave s
  rw [h]
  exact .refl s

theorem workKept_traceDesc (s : State) (kind : Nat) (d : DescEntry) (arg : Nat) (detail : Byte) :
    WorkKept s (traceDesc s kind d arg detail) := by
  obtain ⟨v, h⟩ := traceDesc_frame s kind d arg detail
  rw [h]
  exact .refl s

theorem WeirFrame.workKept {s t : State} (h : WeirFrame s t) : WorkKept s t := by
  obtain ⟨_, _, _, _, _, _, rfl⟩ := h
  exact ⟨rfl, rfl, rfl⟩

/-- A ring's registers, and which descriptors are accepted, change as the reading of `n` descriptors of `r` changes them. -/
structure ReadsOn (r : RingId) (n : Nat) (s t : State) : Prop where
  ring : ∀ q, ringGet t q = if r = q then ringRead^[n] (ringGet s q) else ringGet s q
  refs : t.descs.map (·.ref)
    = s.descs.map (·.ref) ++ (List.range n).map fun k => ⟨r, (ringGet s r).readTo + BitVec.ofNat 32 k⟩
  kept : WorkKept s t

theorem readsOn_zero (r : RingId) (s : State) : ReadsOn r 0 s s where
  ring q := by split <;> rfl
  refs := (List.append_nil _).symm
  kept := .refl s

theorem ReadsOn.step {r : RingId} {n : Nat} {a b c : State} (h : ReadsOn r 1 a b) (k : ReadsOn r n b c) : ReadsOn r (n + 1) a c where
  ring q := by
    rw [k.ring, h.ring]
    split
    · exact (Function.iterate_add_apply ringRead n 1 (ringGet a q)).symm
    · rfl
  refs := by
    have hread : (ringGet b r).readTo = (ringGet a r).readTo + 1 := by
      rw [h.ring, if_pos rfl]
      rfl
    have hnext (k : Nat) : (ringGet a r).readTo + 1 + BitVec.ofNat 32 k = (ringGet a r).readTo + BitVec.ofNat 32 (k + 1) := by
      rw [BitVec.add_assoc, BitVec.add_comm 1, BitVec.ofNat_add]
      rfl
    rw [k.refs, h.refs, hread, List.append_assoc, List.range_succ_eq_map (n := n), List.map_cons, List.map_map]
    simp only [hnext]
    rfl
  kept := h.kept.trans k.kept

/-- The ring's registers after a reading. -/
theorem ringGet_takeEntry (s : State) (x : RawDesc) (q : RingId) :
    ringGet (takeEntry s x) q = if x.ring = q then ringRead (ringGet s q) else ringGet s q := by
  obtain ⟨v, p, g, m, hdoze⟩ := fillFrame_dozeLeave s
  have hdef : takeEntry s x = traceDesc { modRing (dozeLeave s) x.ring ringRead with
      descs := (dozeLeave s).descs ++ [readEntry (dozeLeave s) x] } 0 (readEntry (dozeLeave s) x) 0 0 := rfl
  obtain ⟨w, htrace⟩ := traceDesc_frame { modRing (dozeLeave s) x.ring ringRead with
      descs := (dozeLeave s).descs ++ [readEntry (dozeLeave s) x] } 0 (readEntry (dozeLeave s) x) 0 0
  rw [hdef, htrace]
  refine (ringGet_modRing (dozeLeave s) x.ring q ringRead).trans ?_
  rw [hdoze]
  split
  next h => subst h; rfl
  next => rfl

theorem readEntry_dozeLeave (s : State) (x : RawDesc) : readEntry (dozeLeave s) x = readEntry s x := by
  obtain ⟨v, p, g, m, hdoze⟩ := fillFrame_dozeLeave s
  rw [hdoze]
  rfl

theorem takeEntry_descs (s : State) (x : RawDesc) : (takeEntry s x).descs = s.descs ++ [readEntry s x] := by
  have hdef : (takeEntry s x).descs = (dozeLeave s).descs ++ [readEntry (dozeLeave s) x] := rfl
  obtain ⟨v, p, g, m, hdoze⟩ := fillFrame_dozeLeave s
  rw [hdef, readEntry_dozeLeave, hdoze]

theorem workKept_takeEntry (s : State) (x : RawDesc) : WorkKept s (takeEntry s x) :=
  (workKept_dozeLeave s).trans ⟨rfl, rfl, rfl⟩

theorem readsOn_takeEntry (s : State) (x : RawDesc) : ReadsOn x.ring 1 s (takeEntry s x) where
  ring := ringGet_takeEntry s x
  refs := by
    rw [takeEntry_descs, List.map_append]
    congr 1
    exact congrArg (fun w => [(⟨x.ring, w⟩ : JobRef)]) (BitVec.add_zero _).symm
  kept := workKept_takeEntry s x

theorem readsOn_finish {r : RingId} {n : Nat} {s t : State} (h : ReadsOn r n s t) (x : JobRef) (st : Status) (detail : Nat) :
    ReadsOn r n s (finish t x st detail) where
  ring q := (ringGet_congr (congrArg Rings.ring (weirFrame_finish t x st detail).rings) q).trans (h.ring q)
  refs := by
    have hrefs := congrArg (List.map Prod.fst) (sameReplays_finish t x st detail)
    rw [List.map_map, List.map_map] at hrefs
    exact hrefs.trans h.refs
  kept := h.kept.trans (weirFrame_finish t x st detail).workKept

/-- Accepting a descriptor reads it. -/
theorem readsOn_acceptOne (s : State) (x : RawDesc) : ReadsOn x.ring 1 s (acceptOne s x) := by
  have htake := readsOn_takeEntry s x
  unfold acceptOne
  dsimp only
  split
  · exact htake
  · split
    · exact readsOn_finish htake _ _ _
    · split
      · exact readsOn_finish htake _ _ _
      · exact htake

/-- One reading after another, all of one ring. -/
theorem readsOn_foldl {r : RingId} {f : State → RawDesc → State} (hf : ∀ s x, ReadsOn x.ring 1 s (f s x)) (l : List RawDesc)
    (hl : ∀ x ∈ l, x.ring = r) (s : State) : ReadsOn r l.length s (l.foldl f s) := by
  induction l generalizing s with
  | nil => exact readsOn_zero r s
  | cons x l ih =>
    have hx : ReadsOn r 1 s (f s x) := hl x (List.mem_cons_self ..) ▸ hf s x
    exact hx.step (ih (fun y hy => hl y (List.mem_cons_of_mem _ hy)) _)

/-- The descriptors of a ring that are read, at most `n`. -/
theorem readsOn_acceptSome (s : State) (r : RingId) (descs : List RawDesc) (n : Nat) :
    ReadsOn r ((descs.filter fun x => x.ring == r).take n).length s
      (((descs.filter fun x => x.ring == r).take n).foldl acceptOne s) :=
  readsOn_foldl readsOn_acceptOne _ (fun _ hx => beq_iff_eq.mp (List.mem_filter.mp (List.mem_of_mem_take hx)).2) s

/-! ## A poll (R324, R326, R331) -/

section Poll
variable {s : State} {r : RingId} {bell : List W64} {descs : List RawDesc}

theorem pollRing_of_off (h : (ringGet s r).state = .off) : pollRing bell descs s r = s := by
  rw [pollRing, h]

theorem pollRing_of_ours (h : (ringGet s r).state = .running ∨ (ringGet s r).state = .notOwner)
    (hours : doorbellGen (nth bell r.val 0) = (ringGet s r).owner) :
    pollRing bell descs s r = serveRing s r (doorbellProd (nth bell r.val 0)) descs := by
  have hown : (doorbellGen (nth bell r.val 0) == (ringGet s r).owner) = true := beq_iff_eq.mpr hours
  rcases h with h | h <;> rw [pollRing, h, hown] <;> rfl

theorem pollRing_of_other (h : (ringGet s r).state = .running)
    (hother : doorbellGen (nth bell r.val 0) ≠ (ringGet s r).owner) : pollRing bell descs s r = ownerDiffers s r := by
  have hown : (doorbellGen (nth bell r.val 0) == (ringGet s r).owner) = false := beq_eq_false_iff_ne.mpr hother
  rw [pollRing, h, hown]
  rfl

/-- A ring that the device serves. -/
def servedRing (s : State) (r : RingId) : State := modRing s r fun g => { g with state := .running, served := true, lost := false }

theorem ringGet_servedRing (s : State) (r q : RingId) : ringGet (servedRing s r) q
    = if r = q then { ringGet s r with state := .running, served := true, lost := false } else ringGet s q :=
  ringGet_modRing ..

/-- What a poll takes of the descriptors. -/
def pollTake (s : State) (r : RingId) (prod : W32) (descs : List RawDesc) : List RawDesc :=
  (descs.filter fun x => x.ring == r).take (min (min (prod - (ringGet s r).readTo).toNat 64) (weirFree s r))

theorem serveRing_eq (s : State) (r : RingId) (prod : W32) (descs : List RawDesc) : serveRing s r prod descs =
    if 2 ^ (ringGet s r).size < (prod - (ringGet s r).complete).toNat || serialLt prod (ringGet s r).accepted then
      ringOverrun (servedRing s r) r
    else if (pollTake s r prod descs).isEmpty then
      (if (ringGet s r).state == .running then servedRing s r else writeEntry (servedRing s r) r)
    else writeEntry (busyNow ((pollTake s r prod descs).foldl acceptOne (servedRing s r))) r := by
  have hdef : serveRing s r prod descs =
    if 2 ^ (ringGet (servedRing s r) r).size < (prod - (ringGet (servedRing s r) r).complete).toNat
        || serialLt prod (ringGet (servedRing s r) r).accepted then
      ringOverrun (servedRing s r) r
    else if ((descs.filter fun x => x.ring == r).take
        (min (min (prod - (ringGet (servedRing s r) r).readTo).toNat 64) (weirFree (servedRing s r) r))).isEmpty then
      (if (ringGet s r).state == .running then servedRing s r else writeEntry (servedRing s r) r)
    else writeEntry (busyNow (((descs.filter fun x => x.ring == r).take
        (min (min (prod - (ringGet (servedRing s r) r).readTo).toNat 64) (weirFree (servedRing s r) r))).foldl
          acceptOne (servedRing s r))) r := rfl
  rw [hdef, ringGet_servedRing, if_pos rfl]
  rfl

theorem ReadsOn.writeEntry {n : Nat} {t : State} (h : ReadsOn r n s t) (q : RingId) : ReadsOn r n s (writeEntry t q) := by
  obtain ⟨m, heq⟩ := writeEntry_frame t q
  rw [heq]
  exact ⟨h.ring, h.refs, h.kept⟩

/-- On a ring whose indices are consistent nothing stops. -/
theorem serveRing_of_inOrder {prod : W32} (hroom : (prod - (ringGet s r).complete).toNat ≤ 2 ^ (ringGet s r).size)
    (hnext : serialLt prod (ringGet s r).accepted = false) (descs : List RawDesc) : serveRing s r prod descs =
    if (pollTake s r prod descs).isEmpty then
      (if (ringGet s r).state == .running then servedRing s r else writeEntry (servedRing s r) r)
    else writeEntry (busyNow ((pollTake s r prod descs).foldl acceptOne (servedRing s r))) r := by
  rw [serveRing_eq, hnext, Bool.or_false, decide_eq_false (Nat.not_lt.mpr hroom)]
  rfl

/-- A ring in order takes the next descriptors. -/
theorem serveRing_reads {prod : W32} (hroom : (prod - (ringGet s r).complete).toNat ≤ 2 ^ (ringGet s r).size)
    (hnext : serialLt prod (ringGet s r).accepted = false) (descs : List RawDesc) :
    ReadsOn r (pollTake s r prod descs).length (servedRing s r) (serveRing s r prod descs) := by
  rw [serveRing_of_inOrder hroom hnext]
  split
  next hempty =>
    rw [List.isEmpty_iff.mp hempty]
    split
    · exact readsOn_zero r _
    · exact (readsOn_zero r _).writeEntry r
  next =>
    have hreads := readsOn_acceptSome (servedRing s r) r descs
      (min (min (prod - (ringGet s r).readTo).toNat 64) (weirFree s r))
    have hbusy : ReadsOn r (pollTake s r prod descs).length (servedRing s r)
        (busyNow ((pollTake s r prod descs).foldl acceptOne (servedRing s r))) := ⟨hreads.ring, hreads.refs, hreads.kept⟩
    exact hbusy.writeEntry r

theorem ringOverrun_spec (s : State) (r q : RingId) :
    ringGet (ringOverrun s r) q = (if r = q then { ringGet s r with state := .stopped } else ringGet s q)
      ∧ (ringOverrun s r).descs = s.descs := by
  unfold ringOverrun
  rw [ringGet_raise, ringGet_writeEntry, raise_descs, descs_writeEntry]
  exact ⟨ringGet_modRing .., rfl⟩

/-- A ring whose indices are inconsistent stops. -/
theorem serveRing_of_overrun {prod : W32} (h : 2 ^ (ringGet s r).size < (prod - (ringGet s r).complete).toNat
      ∨ serialLt prod (ringGet s r).accepted = true) (descs : List RawDesc) :
    serveRing s r prod descs = ringOverrun (servedRing s r) r := by
  rw [serveRing_eq]
  exact if_pos (by simpa using h)

theorem pollAll_of_off {l : List RingId} (h : ∀ q ∈ l, (ringGet s q).state = .off) : l.foldl (pollRing bell descs) s = s := by
  induction l with
  | nil => rfl
  | cons q l ih =>
    rw [List.foldl_cons, pollRing_of_off (h q (List.mem_cons_self ..))]
    exact ih fun x hx => h x (List.mem_cons_of_mem _ hx)

/-- A poll of one ring that is not off. -/
theorem pollAll_of_one (hoff : ∀ q, q ≠ r → (ringGet s q).state = .off)
    (hkept : ∀ q, q ≠ r → ringGet (pollRing bell descs s r) q = ringGet s q) :
    (List.finRange 64).foldl (pollRing bell descs) s = pollRing bell descs s r := by
  obtain ⟨a, b, hsplit⟩ := List.append_of_mem (List.mem_finRange r)
  have hnodup := List.nodup_finRange 64
  rw [hsplit] at hnodup ⊢
  have hmid := List.nodup_middle.mp hnodup
  obtain ⟨hr, -⟩ := List.nodup_cons.mp hmid
  have hne {q : RingId} (hq : q ∈ a ++ b) : q ≠ r := fun h => hr (h ▸ hq)
  rw [List.foldl_append, pollAll_of_off fun q hq => hoff q (hne (List.mem_append_left _ hq)), List.foldl_cons]
  refine pollAll_of_off fun q hq => ?_
  have hq := hne (List.mem_append_right a hq)
  rw [hkept q hq]
  exact hoff q hq

end Poll

theorem exec_poll {s : State} (hs : Live s) (bell : List W64) (descs : List RawDesc) : exec (.poll bell descs) s = .next (
    if canPoll s then (List.finRange 64).foldl (pollRing bell descs) s else s) :=
  live_of_hub hs fun s => if canPoll s then (List.finRange 64).foldl (pollRing bell descs) s else s

theorem serialLt_self (a : W32) : serialLt a a = false := by simp [serialLt]

/-- What is read of a descriptor on a ring that is not sealed. -/
theorem readEntry_of_open {s : State} {x : RawDesc} (hopen : (ringGet s x.ring).sealed = false) : readEntry s x
    = newEntry ⟨x.ring, (ringGet s x.ring).readTo⟩ (decodeDesc x.bytes)
      (serialLt (ringGet s x.ring).readTo (ringGet s x.ring).accepted)
      (if (decodeDesc x.bytes).encrypted then writtenEpoch (ringGet s x.ring) (ringGet s x.ring).readTo else none) := by
  have hseal (i : W32) : sealFails s x.ring i x.bytes = false := by rw [sealFails, hopen, Bool.false_and]
  unfold readEntry
  dsimp only
  rw [hseal]
  rfl

/-- A descriptor that no check refuses is read, and nothing more. -/
theorem acceptOne_of_good {s : State} {x : RawDesc} (hopen : (ringGet s x.ring).sealed = false)
    (hgood : (decodeDesc x.bytes).body ≠ .bad) : acceptOne s x = takeEntry s x := by
  have hseal (i : W32) : sealFails s x.ring i x.bytes = false := by rw [sealFails, hopen, Bool.false_and]
  have hbody : (readEntry s x).desc.body ≠ .bad := by
    rw [readEntry_of_open hopen]
    exact hgood
  unfold acceptOne
  dsimp only
  rw [hseal]
  split
  · rfl
  · rw [if_neg Bool.false_ne_true, if_neg (by simpa using hbody)]

/-- Settles O31: what a poll reads on a ring by `ReadsOn`, and a poll that finds one ring to serve by that ring alone. -/
theorem pollServesRings : Obligations.PollServesRings := by
  refine ⟨fun s bell descs hs => ⟨fun hcan => ?_, fun hcannot => ?_⟩, ?ring, ?single⟩
  · rw [exec_poll hs, if_pos hcan]
  · rw [exec_poll hs, hcannot]
    rfl
  case ring =>
    intro s r bell descs g w t
    refine ⟨pollRing_of_off, fun hstate hours => ⟨fun hroom hnext => ?reads, fun hbad => ?overrun⟩⟩
    case reads =>
      intro n
      have ht : t = serveRing s r (doorbellProd w) descs := pollRing_of_ours hstate hours
      obtain ⟨hring, hrefs, hjobs, -⟩ := serveRing_reads hroom hnext descs
      have hr : ringGet t r = ringRead^[n] { g with state := .running, served := true, lost := false } := by
        rw [ht, hring, if_pos rfl, ringGet_servedRing, if_pos rfl]
        rfl
      obtain ⟨a, hread⟩ := ringRead_iterate n { g with state := .running, served := true, lost := false }
      refine ⟨by rw [hr, hread], by rw [hr, hread], fun heq => ?_, by rw [hr, hread], ?_, fun q hq => ?_, ht ▸ hjobs⟩
      · rw [hr]
        exact (ringRead_iterate_accepted n (g := { g with state := .running, served := true, lost := false }) heq).1
      · rw [ht, hrefs, ringGet_servedRing, if_pos rfl]
        rfl
      · rw [ht, hring, if_neg hq.symm, ringGet_servedRing, if_neg hq.symm]
    case overrun =>
      have ht : t = ringOverrun (servedRing s r) r := (pollRing_of_ours hstate hours).trans (serveRing_of_overrun hbad descs)
      obtain ⟨hring, hdescs⟩ := ringOverrun_spec (servedRing s r) r r
      rw [if_pos rfl, ringGet_servedRing, if_pos rfl] at hring
      rw [ht, hring, hdescs]
      exact ⟨rfl, rfl, rfl⟩
  case single =>
    intro s r bell descs x hs hcan hoff hrun hdone g w
    have hpoll := exec_poll hs bell descs
    rw [if_pos hcan] at hpoll
    refine ⟨fun hours hroom hprod hfree hmine hopen hgood => ?takes, fun hother hserved => ?lost, fun hother hnever => ?other⟩
    case takes =>
      have hmem : x ∈ descs.filter fun y => y.ring == r := hmine ▸ List.mem_singleton_self x
      have hx : x.ring = r := beq_iff_eq.mp (List.mem_filter.mp hmem).2
      have hnext : serialLt (doorbellProd w) g.accepted = false := by
        rw [hprod, serialLt]
        have hback : g.accepted - (g.accepted + 1) = 0xFFFFFFFF := by bv_omega
        rw [hback]
        simp
      have htake : pollTake s r (doorbellProd w) descs = [x] := by
        have hone : doorbellProd w - g.readTo = 1 := by
          rw [hprod, show g.readTo = g.accepted from hdone]
          bv_omega
        rw [pollTake, show doorbellProd w - (ringGet s r).readTo = 1 from hone, hmine]
        exact List.take_of_length_le (by simp; omega)
      have ht := pollRing_of_ours (bell := bell) (descs := descs) (.inl hrun) hours
      have hreads := serveRing_reads hroom hnext descs
      rw [htake] at hreads
      have hring (q : RingId) : ringGet (pollRing bell descs s r) q
          = if r = q then ringRead { g with state := .running, served := true, lost := false } else ringGet s q := by
        rw [ht, hreads.ring]
        by_cases hq : r = q
        · subst hq
          rw [if_pos rfl, if_pos rfl, ringGet_servedRing, if_pos rfl]
          rfl
        · rw [if_neg hq, if_neg hq, ringGet_servedRing, if_neg hq]
      have hothers : ∀ q, q ≠ r → ringGet (pollRing bell descs s r) q = ringGet s q := fun q hq =>
        (hring q).trans (if_neg hq.symm)
      refine ⟨_, hpoll.trans (congrArg _ (pollAll_of_one hoff hothers)), ?_, ?_, ?_, hothers⟩
      · have hgoes : serveRing s r (doorbellProd w) descs = writeEntry (busyNow (acceptOne (servedRing s r) x)) r := by
          rw [serveRing_of_inOrder hroom hnext, htake]
          rfl
        have hsealed : (ringGet (servedRing s r) x.ring).sealed = false := by
          rw [hx, ringGet_servedRing, if_pos rfl]
          exact hopen
        rw [ht, hgoes, descs_writeEntry, busyNow_descs, acceptOne_of_good hsealed hgood, takeEntry_descs,
          readEntry_of_open hsealed, hx, ringGet_servedRing, if_pos rfl, show (ringGet s r).readTo = g.accepted from hdone]
        rw [show serialLt g.accepted (ringGet s r).accepted = false from serialLt_self _]
        rfl
      · rw [hring, if_pos rfl]
        exact if_pos hdone
      · rw [hring, if_pos rfl]
        rfl
    case lost =>
      have hlost : pollRing bell descs s r = raise (setRing s r { g with state := .notOwner, lost := true }) .ringOwnerLost [] := by
        rw [pollRing_of_other hrun hother, ownerDiffers]
        exact if_pos (by simp [hrun, show (ringGet s r).served = true from hserved])
      rw [hpoll, pollAll_of_one hoff fun q hq => ?_, hlost]
      rw [hlost, ringGet_raise, ringGet_setRing, if_neg hq.symm]
    case other =>
      have hnot : pollRing bell descs s r = setRing s r { g with state := .notOwner } := by
        rw [pollRing_of_other hrun hother, ownerDiffers]
        exact if_neg (by simp [show (ringGet s r).served = false from hnever])
      rw [hpoll, pollAll_of_one hoff fun q hq => ?_, hnot]
      rw [hnot, ringGet_setRing, if_neg hq.symm]

end Sys2Proof.Machine

/-! # Release of records and the shadow header (O32) -/

namespace Sys2Proof.Machine

open Sys2Proof

/-! ## Host memory -/

theorem Ram.read_writeN (r : Ram) (a b : Nat) (bs : List Byte) :
    (r.writeN a bs).read b = if a ≤ b ∧ b < a + bs.length then nth bs (b - a) 0 else r.read b := by
  rw [← Ram.writeWhere_true, Ram.read_writeWhere]
  simp

/-- What is read inside a string that has been written. -/
theorem Ram.readN_writeN_inside (r : Ram) (a : Nat) {bs : List Byte} {k n : Nat} (h : k + n ≤ bs.length) :
    (r.writeN a bs).readN (a + k) n = (bs.drop k).take n := by
  refine List.ext_getElem (by simp; omega) fun i hi hi' => ?_
  have hin : i < n := by simpa using hi
  have hbs : k + i < bs.length := by omega
  simp only [Ram.readN, List.getElem_map, List.getElem_range, List.getElem_take, List.getElem_drop]
  rw [Ram.read_writeN, if_pos (by omega), show a + k + i - a = k + i by omega, nth, List.getElem?_eq_getElem hbs]
  rfl

/-- What is read outside of it. -/
theorem Ram.readN_writeN_outside (r : Ram) {a b n : Nat} {bs : List Byte} (h : b + n ≤ a ∨ a + bs.length ≤ b) :
    (r.writeN a bs).readN b n = r.readN b n := by
  refine List.map_congr_left fun i hi => ?_
  have hin := List.mem_range.mp hi
  rw [Ram.read_writeN, if_neg (by omega)]

/-! ## Shadow entries (R319, R331) -/

/-- The device may write a ring's shadow entry. -/
def entryOpen (s : State) (r : RingId) : Prop :=
  hostReach s = true ∧ s.rings.shBase ≠ 0 ∧ (ringGet s r).lost = false ∧ (ringGet s r).served = true
    ∧ (ringGet s r).state ≠ .notOwner

theorem entryOpen_iff (s : State) (r : RingId) : (hostReach s && s.rings.shBase != 0 && !(ringGet s r).lost && (ringGet s r).served
    && (ringGet s r).state != .notOwner) = true ↔ entryOpen s r := by
  have hbase : (s.rings.shBase != 0) = true ↔ s.rings.shBase ≠ 0 := bne_iff_ne
  have hstate : ((ringGet s r).state != .notOwner) = true ↔ (ringGet s r).state ≠ .notOwner := bne_iff_ne
  unfold entryOpen
  rw [Bool.and_eq_true, Bool.and_eq_true, Bool.and_eq_true, Bool.and_eq_true, Bool.not_eq_true', hbase, hstate]
  constructor
  · exact fun ⟨⟨⟨⟨h1, h2⟩, h3⟩, h4⟩, h5⟩ => ⟨h1, h2, h3, h4, h5⟩
  · exact fun ⟨h1, h2, h3, h4, h5⟩ => ⟨⟨⟨⟨h1, h2⟩, h3⟩, h4⟩, h5⟩

theorem mem_writeEntry_of_open {s : State} {r : RingId} (h : entryOpen s r) :
    (writeEntry s r).host.mem = s.host.mem.writeN (entryAddr s r) (entryBytes s r) := by
  have hwrites : writeEntry s r = hostWrite s (entryAddr s r) (entryBytes s r) := if_pos ((entryOpen_iff s r).mpr h)
  rw [hwrites, hostWrite]

theorem writeEntry_of_closed {s : State} {r : RingId} (h : ¬ entryOpen s r) : writeEntry s r = s :=
  if_neg fun hc => h ((entryOpen_iff s r).mp hc)

theorem writeEntry_of_lost {s : State} {r : RingId} (h : (ringGet s r).lost = true) : writeEntry s r = s :=
  writeEntry_of_closed fun ⟨_, _, hlost, _⟩ => Bool.false_ne_true (hlost.symm.trans h)

theorem entryBytes_length (s : State) (r : RingId) : (entryBytes s r).length = 32 := by
  simp [entryBytes]

/-- The entry's second word is COMPLETE. -/
theorem entryBytes_complete (s : State) (r : RingId) : ((entryBytes s r).drop 4).take 4 = leBytes 4 (ringGet s r).complete.toNat := by
  simp only [entryBytes, List.append_assoc]
  rw [List.drop_left' (leBytes_length ..), List.take_left' (leBytes_length ..)]

theorem readN_writeEntry_complete {s : State} {r : RingId} (h : entryOpen s r) :
    (writeEntry s r).host.mem.readN (entryAddr s r + 4) 4 = leBytes 4 (ringGet s r).complete.toNat := by
  have hlength : 4 + 4 ≤ (entryBytes s r).length := by rw [entryBytes_length]; decide
  rw [mem_writeEntry_of_open h, ← entryBytes_complete s r]
  exact Ram.readN_writeN_inside s.host.mem (entryAddr s r) (k := 4) hlength

/-- Nothing else of host memory is written. -/
theorem readN_writeEntry_outside {s : State} {r : RingId} {b n : Nat}
    (h : s.rings.shBase = 0 ∨ entryAddr s r + 32 ≤ b ∨ b + n ≤ entryAddr s r) :
    (writeEntry s r).host.mem.readN b n = s.host.mem.readN b n := by
  by_cases hopen : entryOpen s r
  · have hout : b + n ≤ entryAddr s r ∨ entryAddr s r + (entryBytes s r).length ≤ b := by
      rw [entryBytes_length]
      exact (h.resolve_left hopen.2.1).symm
    rw [mem_writeEntry_of_open hopen]
    exact Ram.readN_writeN_outside s.host.mem hout
  · rw [writeEntry_of_closed hopen]

/-! ## Release (R327, R331, R344) -/

/-- What the release of a record may write: rings, host memory, the trace and the accepted descriptors. -/
def ReleaseFrame (s t : State) : Prop :=
  ∃ rg h sl ds, t = { s with rings := rg, host := h, sluice := sl, descs := ds }
    ∧ rg.shBase = s.rings.shBase ∧ rg.detached = s.rings.detached

theorem ReleaseFrame.refl (s : State) : ReleaseFrame s s := ⟨_, _, _, _, rfl, rfl, rfl⟩

theorem ReleaseFrame.trans {a b c : State} (h : ReleaseFrame a b) (k : ReleaseFrame b c) : ReleaseFrame a c := by
  obtain ⟨_, _, _, _, rfl, hb, hd⟩ := h
  obtain ⟨_, _, _, _, rfl, kb, kd⟩ := k
  exact ⟨_, _, _, _, rfl, kb.trans hb, kd.trans hd⟩

theorem ReleaseFrame.reach {s t : State} (h : ReleaseFrame s t) : hostReach t = hostReach s ∧ t.rings.shBase = s.rings.shBase
    ∧ ∀ r, entryAddr t r = entryAddr s r := by
  obtain ⟨_, _, _, _, rfl, hb, hd⟩ := h
  refine ⟨?_, hb, fun r => ?_⟩
  · simp only [hostReach, pcieUp, hd]
  · simp only [entryAddr, hb]

theorem ReleaseFrame.rest {s t : State} (h : ReleaseFrame s t) :
    t.jobs = s.jobs ∧ t.world = s.world ∧ t.motion = s.motion ∧ t.klink = s.klink ∧ SameFabric s t ∧ SameFaults s t := by
  obtain ⟨_, _, _, _, rfl, -, -⟩ := h
  exact ⟨rfl, rfl, rfl, rfl, ⟨rfl, rfl, rfl⟩, rfl, rfl⟩

theorem releaseFrame_modRing (s : State) (r : RingId) (f : Ring → Ring) : ReleaseFrame s (modRing s r f) := ⟨_, _, _, _, rfl, rfl, rfl⟩

theorem releaseFrame_writeEntry (s : State) (r : RingId) : ReleaseFrame s (writeEntry s r) := by
  obtain ⟨m, h⟩ := writeEntry_frame s r
  rw [h]
  exact ⟨_, _, _, _, rfl, rfl, rfl⟩

theorem releaseFrame_ringOff (s : State) (r : RingId) : ReleaseFrame s (ringOff s r) :=
  ((releaseFrame_modRing s r _).trans (releaseFrame_writeEntry _ r)).trans (releaseFrame_modRing _ r _)

theorem settleRing_cases (s : State) (r : RingId) : settleRing s r = s ∨ settleRing s r = ringOff s r := by
  unfold settleRing
  dsimp only
  split
  · exact .inl rfl
  · split
    · exact .inr rfl
    · split
      · exact .inl rfl
      · exact .inr rfl
    all_goals exact .inl rfl

theorem releaseFrame_settleRing (s : State) (r : RingId) : ReleaseFrame s (settleRing s r) := by
  rcases settleRing_cases s r with h | h <;> rw [h]
  · exact .refl s
  · exact releaseFrame_ringOff s r

theorem ringGet_ringOff (s : State) (r q : RingId) : ringGet (ringOff s r) q = if r = q then
    { ringGet s r with state := .off, enable := false, session := none, served := false, lost := false } else ringGet s q := by
  unfold ringOff
  rw [ringGet_modRing, ringGet_writeEntry, ringGet_writeEntry, setRState, ringGet_modRing, ringGet_modRing, if_pos rfl]
  split <;> rfl

theorem complete_settleRing (s : State) (r q : RingId) : (ringGet (settleRing s r) q).complete = (ringGet s q).complete := by
  rcases settleRing_cases s r with h | h <;> rw [h]
  rw [ringGet_ringOff]
  split
  next h => subst h; rfl
  next => rfl

theorem descs_settleRing (s : State) (r : RingId) : (settleRing s r).descs = s.descs := by
  rcases settleRing_cases s r with h | h <;> rw [h]
  exact descs_writeEntry (setRState s r .off) r

/-- A ring that goes off writes its shadow entry once more. -/
theorem mem_ringOff (s : State) (r : RingId) : (ringOff s r).host = (writeEntry (setRState s r .off) r).host := rfl

theorem readN_settleRing_outside {s : State} {r : RingId} {b n : Nat}
    (h : s.rings.shBase = 0 ∨ entryAddr s r + 32 ≤ b ∨ b + n ≤ entryAddr s r) :
    (settleRing s r).host.mem.readN b n = s.host.mem.readN b n := by
  rcases settleRing_cases s r with heq | heq <;> rw [heq]
  rw [mem_ringOff]
  exact readN_writeEntry_outside (s := setRState s r .off) h

theorem ringGet_setRState (s : State) (r : RingId) (x : RState) : ringGet (setRState s r x) r = { ringGet s r with state := x } := by
  rw [setRState, ringGet_modRing, if_pos rfl]

/-- The entry holds COMPLETE whether or not the ring then goes off. -/
theorem readN_settleRing_complete {s : State} {r : RingId} (h : entryOpen s r)
    (hread : s.host.mem.readN (entryAddr s r + 4) 4 = leBytes 4 (ringGet s r).complete.toNat) :
    (settleRing s r).host.mem.readN (entryAddr s r + 4) 4 = leBytes 4 (ringGet s r).complete.toNat := by
  rcases settleRing_cases s r with heq | heq <;> rw [heq]
  · exact hread
  · obtain ⟨hreach, hbase, hlost, hserved, -⟩ := h
    have hopen : entryOpen (setRState s r .off) r := by
      refine ⟨hreach, hbase, ?_⟩
      rw [ringGet_setRState]
      exact ⟨hlost, hserved, (fun h => RState.noConfusion h)⟩
    have hentry := readN_writeEntry_complete hopen
    rw [ringGet_setRState] at hentry
    rw [mem_ringOff]
    exact hentry

/-- The descriptor is off its ring: COMPLETE has advanced, and its place is free. -/
theorem retireEntry_spec (s : State) (d : DescEntry) :
    ringGet (retireEntry s d) d.ref.ring = { ringGet s d.ref.ring with complete := (ringGet s d.ref.ring).complete + 1 }
      ∧ findDesc (retireEntry s d) d.ref = none ∧ (retireEntry s d).host = s.host ∧ ReleaseFrame s (retireEntry s d) := by
  have hring := ringGet_modRing s d.ref.ring d.ref.ring fun g => { g with complete := g.complete + 1 }
  rw [if_pos rfl] at hring
  refine ⟨hring, ?_, rfl, ⟨_, _, _, _, rfl, rfl, rfl⟩⟩
  refine List.find?_eq_none.mpr fun e he => ?_
  have hne := (List.mem_filter.mp he).2
  simpa using hne

/-- A record's bytes: its head, and its seal. -/
theorem recordHead_length (s : State) (d : DescEntry) (res : Result) : (recordHead s d res).length = 24 := by
  simp [recordHead]

/-- Where the record of a descriptor stands in its completion ring. -/
def recordAddr (s : State) (d : DescEntry) : Nat :=
  (ringGet s d.ref.ring).cq.toNat + 32 * (d.ref.index.toNat % 2 ^ (ringGet s d.ref.ring).size)

/-- The result buffer, written before the record. -/
def bufferWritten (s : State) (d : DescEntry) (res : Result) : State :=
  match resultBuf d.desc with
  | some (a, _) => if res.report.isSome then hostWrite s a (resultBytes s d res) else s
  | none => s

/-- The record, written over the state `u` that the result buffer leaves. -/
def recordWritten (s u : State) (d : DescEntry) (res : Result) : State :=
  hostWrite u (recordAddr s d) (recordHead u d res ++ recordSeal u d (recordHead u d res) (resultBytes s d res))

/-- The epoch of an encrypted result, noted on its ring. -/
def noteEpoch (d : DescEntry) (res : Result) (g : Ring) : Ring :=
  { g with encOut := ⟨g.session, g.owner, d.ref.index, res.epoch⟩ :: g.encOut }

theorem writeRecord_eq (s : State) (d : DescEntry) (res : Result) : writeRecord s d res =
    if d.desc.encrypted && res.epoch != 0 && res.report.isSome then
      modRing (recordWritten s (bufferWritten s d res) d res) d.ref.ring (noteEpoch d res)
    else recordWritten s (bufferWritten s d res) d res := rfl

theorem bufferWritten_frame (s : State) (d : DescEntry) (res : Result) :
    ∃ m, bufferWritten s d res = { s with host := { s.host with mem := m } } := by
  unfold bufferWritten
  split
  · split <;> exact ⟨_, rfl⟩
  · exact ⟨_, rfl⟩

/-- Host memory alone differs. -/
theorem recordWritten_frame (s : State) (d : DescEntry) (res : Result) :
    ∃ m mac, recordWritten s (bufferWritten s d res) d res
      = { s with host := { s.host with mem := Ram.writeN m (recordAddr s d) (recordHead s d res ++ mac) } } := by
  obtain ⟨m, hbuffer⟩ := bufferWritten_frame s d res
  rw [hbuffer]
  exact ⟨m, _, rfl⟩

/-- The record's head stands in its slot. -/
theorem recordWritten_spec (s : State) (d : DescEntry) (res : Result) :
    (recordWritten s (bufferWritten s d res) d res).host.mem.readN (recordAddr s d) 24 = recordHead s d res
      ∧ (recordWritten s (bufferWritten s d res) d res).rings = s.rings
      ∧ ReleaseFrame s (recordWritten s (bufferWritten s d res) d res) := by
  obtain ⟨m, mac, hrecord⟩ := recordWritten_frame s d res
  have hlength : 0 + 24 ≤ (recordHead s d res ++ mac).length := by
    rw [List.length_append, recordHead_length]
    omega
  have hin := Ram.readN_writeN_inside m (recordAddr s d) (k := 0) hlength
  rw [Nat.add_zero, List.drop_zero, List.take_left' (recordHead_length s d res)] at hin
  have hmem : (recordWritten s (bufferWritten s d res) d res).host.mem = m.writeN (recordAddr s d) (recordHead s d res ++ mac) := by
    rw [hrecord]
  refine ⟨?_, ?_, ?_⟩
  · rw [hmem]
    exact hin
  · rw [hrecord]
  · rw [hrecord]
    exact ⟨_, _, _, _, rfl, rfl, rfl⟩

/-- Of the ring's registers the noted epochs alone may differ. -/
theorem writeRecord_spec (s : State) (d : DescEntry) (res : Result) :
    (writeRecord s d res).host.mem.readN (recordAddr s d) 24 = recordHead s d res
      ∧ (∃ e, ringGet (writeRecord s d res) d.ref.ring = { ringGet s d.ref.ring with encOut := e })
      ∧ ReleaseFrame s (writeRecord s d res) := by
  obtain ⟨hread, hrings, hframe⟩ := recordWritten_spec s d res
  have hring := ringGet_congr (congrArg Rings.ring hrings) d.ref.ring
  rw [writeRecord_eq]
  split
  · rw [modRing_host, ringGet_modRing, if_pos rfl, hring]
    exact ⟨hread, ⟨_, rfl⟩, hframe.trans (releaseFrame_modRing _ _ _)⟩
  · rw [hring]
    exact ⟨hread, ⟨_, rfl⟩, hframe⟩

/-- After the record: the shadow entry, and an interrupt. -/
theorem afterRelease_spec (s : State) (d : DescEntry) :
    (afterRelease s d).host.mem = (writeEntry s d.ref.ring).host.mem ∧ (afterRelease s d).rings = s.rings
      ∧ (afterRelease s d).descs = s.descs ∧ ReleaseFrame s (afterRelease s d) := by
  obtain ⟨m, hentry⟩ := writeEntry_frame s d.ref.ring
  have hirq (h : HostIf) (v : Nat) : (h.irq v).mem = h.mem := by
    unfold HostIf.irq
    split <;> rfl
  unfold afterRelease
  dsimp only
  split
  · refine ⟨hirq _ _, ?_, ?_, ?_⟩
    all_goals rw [hentry]
    exacts [rfl, rfl, ⟨_, _, _, _, rfl, rfl, rfl⟩]
  · refine ⟨rfl, ?_, ?_, releaseFrame_writeEntry s _⟩
    all_goals rw [hentry]

theorem exec_recordRelease {s : State} (hs : Live s) (r : RingId) : exec (.recordRelease r) s = .next (releaseOne s r) :=
  live_of_hub hs fun s => releaseOne s r

theorem dueRecord_of_done {s : State} {r : RingId} {d : DescEntry} {res : Result}
    (hd : findDesc s ⟨r, (ringGet s r).complete⟩ = some d) (hdone : d.stage = .done res) : dueRecord s r = some (d, res) := by
  simp only [dueRecord, hd, hdone]

theorem releaseOne_of_lost {s : State} {r : RingId} {d : DescEntry} {res : Result} (hdue : dueRecord s r = some (d, res))
    (hlost : (ringGet s r).lost = true) : releaseOne s r = settleRing (retireEntry s d) r := by
  unfold releaseOne
  rw [hdue]
  exact if_pos hlost

theorem releaseOne_of_open {s : State} {r : RingId} {d : DescEntry} {res : Result} (hdue : dueRecord s r = some (d, res))
    (hlost : (ringGet s r).lost = false) (hmay : mayRelease s r = true) : releaseOne s r
      = settleRing (afterRelease (retireEntry (released (writeRecord s d res) d res) d) d) r := by
  unfold releaseOne
  rw [hdue]
  dsimp only
  rw [hlost, hmay]
  rfl

/-- The record is written and its descriptor off the ring; the shadow entry is to follow. -/
def recordOut (s : State) (d : DescEntry) (res : Result) : State := retireEntry (released (writeRecord s d res) d res) d

theorem released_frame (s : State) (d : DescEntry) (res : Result) : ∃ x, released s d res = { s with sluice := x } :=
  traceDesc_frame s 6 d res.status.code res.detail

theorem recordOut_spec (s : State) (d : DescEntry) (res : Result) :
    (recordOut s d res).host.mem.readN (recordAddr s d) 24 = recordHead s d res
      ∧ (∃ e, ringGet (recordOut s d res) d.ref.ring
        = { ringGet s d.ref.ring with complete := (ringGet s d.ref.ring).complete + 1, encOut := e })
      ∧ findDesc (recordOut s d res) d.ref = none ∧ ReleaseFrame s (recordOut s d res) := by
  obtain ⟨hread, ⟨e, hring⟩, hframe⟩ := writeRecord_spec s d res
  obtain ⟨x, htrace⟩ := released_frame (writeRecord s d res) d res
  obtain ⟨hretired, hgone, hhost, hretire⟩ := retireEntry_spec (released (writeRecord s d res) d res) d
  have hrings : ringGet (released (writeRecord s d res) d res) d.ref.ring = ringGet (writeRecord s d res) d.ref.ring :=
    ringGet_congr (by rw [htrace]) _
  have hmem : (recordOut s d res).host = (writeRecord s d res).host := hhost.trans (by rw [htrace])
  have htraced : ReleaseFrame (writeRecord s d res) (released (writeRecord s d res) d res) := by
    rw [htrace]
    exact ⟨_, _, _, _, rfl, rfl, rfl⟩
  refine ⟨by rw [hmem]; exact hread, ⟨e, ?_⟩, hgone, (hframe.trans htraced).trans hretire⟩
  rw [recordOut, hretired, hrings, hring]

/-- What the release of a record leaves to be read. -/
theorem release_spec {s : State} {d : DescEntry} (res : Result) (hreach : hostReach s = true)
    (hlost : (ringGet s d.ref.ring).lost = false) (hserved : (ringGet s d.ref.ring).served = true) :
    (ringGet (settleRing (afterRelease (recordOut s d res) d) d.ref.ring) d.ref.ring).complete = (ringGet s d.ref.ring).complete + 1
      ∧ findDesc (settleRing (afterRelease (recordOut s d res) d) d.ref.ring) d.ref = none
      ∧ (s.rings.shBase = 0 ∨ entryAddr s d.ref.ring + 32 ≤ recordAddr s d ∨ recordAddr s d + 24 ≤ entryAddr s d.ref.ring →
        (settleRing (afterRelease (recordOut s d res) d) d.ref.ring).host.mem.readN (recordAddr s d) 24 = recordHead s d res)
      ∧ (s.rings.shBase ≠ 0 → (ringGet s d.ref.ring).state ≠ .notOwner →
        (settleRing (afterRelease (recordOut s d res) d) d.ref.ring).host.mem.readN (entryAddr s d.ref.ring + 4) 4
          = leBytes 4 ((ringGet s d.ref.ring).complete + 1).toNat)
      ∧ ReleaseFrame s (settleRing (afterRelease (recordOut s d res) d) d.ref.ring) := by
  obtain ⟨hread, ⟨e, hring⟩, hgone, hframe⟩ := recordOut_spec s d res
  obtain ⟨hmem, hrings, hdescs, hafter⟩ := afterRelease_spec (recordOut s d res) d
  have hall := hframe.trans hafter
  obtain ⟨oreach, obase, oaddr⟩ := hframe.reach
  obtain ⟨areach, abase, aaddr⟩ := hall.reach
  have hget : ringGet (afterRelease (recordOut s d res) d) d.ref.ring = ringGet (recordOut s d res) d.ref.ring :=
    ringGet_congr (by rw [hrings]) _
  refine ⟨?_, ?_, fun hapart => ?_, fun hbase hstate => ?_, hall.trans (releaseFrame_settleRing _ _)⟩
  · rw [complete_settleRing, hget, hring]
  · rw [findDesc_congr ((descs_settleRing _ _).trans hdescs)]
    exact hgone
  · rw [readN_settleRing_outside (by rw [abase, aaddr]; exact hapart), hmem,
      readN_writeEntry_outside (by rw [obase, oaddr]; exact hapart), hread]
  · have hopenOut : entryOpen (recordOut s d res) d.ref.ring := by
      refine ⟨oreach.trans hreach, obase ▸ hbase, ?_⟩
      rw [hring]
      exact ⟨hlost, hserved, hstate⟩
    have hopenAfter : entryOpen (afterRelease (recordOut s d res) d) d.ref.ring := by
      refine ⟨areach.trans hreach, abase ▸ hbase, ?_⟩
      rw [hget, hring]
      exact ⟨hlost, hserved, hstate⟩
    have hentry := readN_writeEntry_complete hopenOut
    have hsettled := readN_settleRing_complete hopenAfter (by rw [hmem, aaddr, ← oaddr, hget]; exact hentry)
    rw [aaddr, hget, hring] at hsettled
    exact hsettled

theorem hostReach_iff (s : State) : hostReach s = true ↔ s.pwr.hub = true ∧ s.pwr.perstN = true ∧ s.rings.detached = false := by
  simp only [hostReach, pcieUp, Bool.and_eq_true, Bool.not_eq_true', and_assoc]

theorem exec_shadowHeaderRefresh {s : State} (hs : Live s) :
    exec .shadowHeaderRefresh s = .next (if canWriteHeader s then writeHeader s else s) :=
  live_of_hub hs fun s => if canWriteHeader s then writeHeader s else s

/-- Settles O32: a released record, entry by entry of host memory; a discarded one writes none. -/
theorem recordsAndHeader : Obligations.RecordsAndHeader := by
  constructor
  · intro s r d res hs g at_ hd hdone
    have href : d.ref = ⟨r, g.complete⟩ := findDesc_ref hd
    have hring : d.ref.ring = r := by rw [href]
    have hindex : d.ref.index = g.complete := by rw [href]
    have hdue := dueRecord_of_done hd hdone
    refine ⟨fun hlost hattached hserved hperst hrelight hhalt => ?released, fun hlost => ?discarded⟩
    case released =>
      have hreach : hostReach s = true := (hostReach_iff s).mpr ⟨hs, hperst, hattached⟩
      have hmay : mayRelease s r = true := by
        simp [mayRelease, hreach, hrelight, hhalt, show (ringGet s r).served = true from hserved]
      have haddr : recordAddr s d = at_ := by rw [recordAddr, hring, hindex]
      obtain ⟨hcomplete, hgone, hrecord, hentry, hframe⟩ := release_spec (s := s) (d := d) res hreach (hring ▸ hlost) (hring ▸ hserved)
      rw [hring] at hcomplete hgone hrecord hentry hframe
      obtain ⟨hjobs, hworld, hmotion, -, hfabric, hfaults⟩ := hframe.rest
      have hstep := exec_recordRelease hs r
      rw [releaseOne_of_open hdue hlost hmay] at hstep
      refine ⟨_, hstep, hcomplete, hgone, fun hapart => ?_, hentry, hjobs, hworld, hmotion, hfabric, hfaults⟩
      rw [← haddr]
      exact hrecord (hapart.imp_right fun h => h.imp (fun h => haddr ▸ h) fun h => haddr ▸ (Nat.add_le_add_left (by decide) at_).trans h)
    case discarded =>
      obtain ⟨hretired, hgone, hhost, hretire⟩ := retireEntry_spec s d
      rw [hring] at hretired
      have hstep := exec_recordRelease hs r
      rw [releaseOne_of_lost hdue hlost] at hstep
      have hframe := hretire.trans (releaseFrame_settleRing (retireEntry s d) r)
      obtain ⟨hjobs, hworld, hmotion, hklink, hfabric, hfaults⟩ := hframe.rest
      have hquiet : (settleRing (retireEntry s d) r).host = s.host := by
        rcases settleRing_cases (retireEntry s d) r with heq | heq
        · rw [heq, hhost]
        · rw [heq, mem_ringOff, writeEntry_of_lost ?_]
          · exact hhost
          · rw [ringGet_setRState, hretired]
            exact hlost
      refine ⟨_, hstep, ?_, ?_, hquiet, hjobs, ⟨hworld, hmotion, hklink⟩, hfabric, hfaults⟩
      · rw [complete_settleRing, hretired]
      · rw [findDesc_congr (descs_settleRing _ _)]
        exact hgone
  · intro s hs
    refine ⟨fun hattached hperst hbase => ?_, fun hclosed => ?_⟩
    · have hcan : canWriteHeader s = true := by
        have hreach : hostReach s = true := (hostReach_iff s).mpr ⟨hs, hperst, hattached⟩
        rw [canWriteHeader, hreach, Bool.true_and, bne_iff_ne]
        exact hbase
      rw [exec_shadowHeaderRefresh hs, if_pos hcan]
      rfl
    · have hcannot : ¬ canWriteHeader s = true := by
        rw [canWriteHeader, Bool.and_eq_true, hostReach_iff, bne_iff_ne]
        rintro ⟨⟨-, hperst, hattached⟩, hbase⟩
        rcases hclosed with h | h | h
        · exact Bool.false_ne_true (hattached.symm.trans h)
        · exact Bool.false_ne_true (h.symm.trans hperst)
        · exact hbase h
      rw [exec_shadowHeaderRefresh hs, if_neg hcannot]

end Sys2Proof.Machine

/-! # Enabling and disabling rings, and detachment (O33) -/

namespace Sys2Proof.Machine

open Sys2Proof

/-! ## Writes of `RING_CTRL` (R322, R328, R330) -/

/-- `RING_ENABLE` writes ENABLE = 1 and leaves the other bits of the value. -/
theorem bit_or_one (v : W32) : bit (v ||| 1).toNat 0 = true ∧ bit (v ||| 1).toNat 1 = v.getLsbD 1
    ∧ bit (v ||| 1).toNat 2 = v.getLsbD 2 := by
  have hone (i : Nat) : (1 : W32).getLsbD i = decide (i = 0) := by
    rw [show (1 : W32) = 1#32 from rfl, BitVec.getLsbD_one]
    simp
  simp only [bit_eq_testBit, BitVec.testBit_toNat, BitVec.getLsbD_or, hone]
  simp

/-- `RING_DISABLE` writes ENABLE = 0. -/
theorem bit_and_not_one (v : W32) : bit (v &&& ~~~ 1).toNat 0 = false := by
  rw [bit_eq_testBit, BitVec.testBit_toNat, BitVec.getLsbD_and]
  exact Bool.and_false _

/-- An enabled ring, before its indices are checked. -/
def armedRing (s : State) (g : Ring) : Ring :=
  { g with enable := true, served := false, lost := false
           session := if s.sec.session == .owned then some s.sec.sessId else none }

/-- An enabled ring that runs from `acc` and `cmp`. -/
def startedRing (s : State) (acc cmp : W32) (g : Ring) : Ring :=
  { armedRing s g with state := .running, accepted := acc, readTo := cmp, complete := cmp }

/-- The device with a ring that runs from `acc` and `cmp`. -/
def startRing (s : State) (r : RingId) (acc cmp : W32) : State :=
  modRing (modRing s r (armedRing s)) r fun g => { g with state := .running, accepted := acc, readTo := cmp, complete := cmp }

theorem ringGet_startRing (s : State) (r : RingId) (acc cmp : W32) :
    ringGet (startRing s r acc cmp) r = startedRing s acc cmp (ringGet s r) := by
  rw [startRing, ringGet_modRing, if_pos rfl, ringGet_modRing, if_pos rfl]
  rfl

theorem enableRing_of_indices {s : State} {r : RingId} {acc cmp : W32} (replay : List RawDesc) (h : startIndices s r = (acc, cmp)) :
    enableRing s r replay = if !indicesOk (ringGet s r) acc cmp then ringOverrun (modRing s r (armedRing s)) r
      else ((replay.filter fun x => x.ring == r).take (min (acc - cmp).toNat (weirFree (startRing s r acc cmp) r))).foldl
        acceptOne (startRing s r acc cmp) := by
  have harmed : indicesOk (ringGet (modRing s r (armedRing s)) r) acc cmp = indicesOk (ringGet s r) acc cmp := by
    rw [ringGet_modRing, if_pos rfl]
    rfl
  unfold enableRing
  rw [h, ← harmed]
  rfl

theorem startIndices_of_registers {s : State} {r : RingId} (h : (ringGet s r).startSrc = false) :
    startIndices s r = ((ringGet s r).startAcc, (ringGet s r).startCmp) :=
  if_neg fun hsrc => Bool.false_ne_true (h.symm.trans hsrc)

/-- From the start registers a ring runs, and reads what lies between them, or it stops. -/
theorem enableRing_spec {s : State} {r : RingId} {g : Ring} (replay : List RawDesc) (hg : ringGet s r = g) (hsrc : g.startSrc = false) :
    (indicesOk g g.startAcc g.startCmp = true → ∃ n ≤ (g.startAcc - g.startCmp).toNat,
      ReadsOn r n (startRing s r g.startAcc g.startCmp) (enableRing s r replay))
    ∧ (indicesOk g g.startAcc g.startCmp = false →
      (ringGet (enableRing s r replay) r).state = .stopped ∧ (enableRing s r replay).descs = s.descs) := by
  subst hg
  rw [enableRing_of_indices replay (startIndices_of_registers hsrc)]
  refine ⟨fun hgood => ?_, fun hbad => ?_⟩
  · rw [hgood]
    exact ⟨_, (List.length_take_le _ _).trans (Nat.min_le_left _ _), readsOn_acceptSome _ r replay _⟩
  · obtain ⟨hring, hdescs⟩ := ringOverrun_spec (modRing s r (armedRing s)) r r
    rw [if_pos rfl] at hring
    rw [hbad]
    exact ⟨congrArg Ring.state hring, hdescs⟩

/-- A ring that reads no further than to ACCEPTED keeps every register but READ. -/
theorem ringRead_iterate_readTo {n : Nat} {g : Ring} (h : n ≤ (g.accepted - g.readTo).toNat) :
    ringRead^[n] g = { g with readTo := g.readTo + BitVec.ofNat 32 n } := by
  obtain ⟨a, heq⟩ := ringRead_iterate n g
  have hacc := ringRead_iterate_replay n h
  rw [heq] at hacc
  rw [heq, show a = g.accepted from hacc]

theorem ringCtrlWrite_enable {s : State} {r : RingId} {v : Nat} (replay : List RawDesc) (hoff : (ringGet s r).state = .off)
    (hv : bit v 0 = true) : ringCtrlWrite s r v replay = enableRing (modRing s r fun g => ctrlFields g v) r replay := by
  unfold ringCtrlWrite
  rw [hoff, hv]
  rfl

theorem ringCtrlWrite_disable {s : State} {r : RingId} {v : Nat} (replay : List RawDesc) (hon : (ringGet s r).state ≠ .off)
    (hv : bit v 0 = false) : ringCtrlWrite s r v replay = disableRing s r := by
  unfold ringCtrlWrite
  rw [beq_eq_false_iff_ne.mpr hon, hv]
  rfl

/-- A ring on its way off. -/
def drainedRing (s : State) (r : RingId) : State := writeEntry (modRing s r fun g => { g with state := .draining, enable := false }) r

theorem disableRing_of_served {s : State} {r : RingId} (h : (ringGet s r).state = .running ∨ (ringGet s r).state = .notOwner) :
    disableRing s r = settleRing (drainedRing s r) r := by
  rcases h with h | h <;> (rw [disableRing, h]; rfl)

theorem drainedRing_spec (s : State) (r : RingId) :
    ringGet (drainedRing s r) r = { ringGet s r with state := .draining, enable := false } ∧ (drainedRing s r).descs = s.descs := by
  unfold drainedRing
  rw [ringGet_writeEntry, descs_writeEntry, ringGet_modRing, if_pos rfl]
  exact ⟨rfl, rfl⟩

theorem ringIdle_congr {s t : State} {r : RingId} (hdescs : t.descs = s.descs) (hread : (ringGet t r).readTo = (ringGet s r).readTo)
    (hacc : (ringGet t r).accepted = (ringGet s r).accepted) : ringIdle t r = ringIdle s r := by
  rw [ringIdle, ringIdle, hdescs, hread, hacc]

/-- A draining ring is off once nothing accepted is left. -/
theorem settleRing_of_draining {s : State} {r : RingId} (h : (ringGet s r).state = .draining) :
    settleRing s r = if ringIdle s r then ringOff s r else s := by
  unfold settleRing
  dsimp only
  rw [h]
  cases ringIdle s r <;> rfl

theorem accepted_settleRing (s : State) (r : RingId) : (ringGet (settleRing s r) r).accepted = (ringGet s r).accepted := by
  rcases settleRing_cases s r with h | h <;> rw [h]
  rw [ringGet_ringOff, if_pos rfl]

/-- A ring that is disabled drains, and is off at once where nothing accepted is left. -/
theorem settle_drainedRing_spec (s : State) (r : RingId) :
    (ringGet (settleRing (drainedRing s r) r) r).state = (if ringIdle s r then .off else .draining)
      ∧ (ringGet (settleRing (drainedRing s r) r) r).accepted = (ringGet s r).accepted
      ∧ (settleRing (drainedRing s r) r).descs = s.descs := by
  obtain ⟨hring, hdescs⟩ := drainedRing_spec s r
  have hidle : ringIdle (drainedRing s r) r = ringIdle s r := ringIdle_congr hdescs (by rw [hring]) (by rw [hring])
  refine ⟨?_, ?_, (descs_settleRing _ r).trans hdescs⟩
  · rw [settleRing_of_draining (by rw [hring]), hidle]
    split
    · rw [ringGet_ringOff, if_pos rfl]
    · rw [hring]
  · rw [accepted_settleRing, hring]

/-! ## Detach and return (R331, R333, R359) -/

/-- A refresh of the shadow header writes its note of the header and the host's side alone. -/
theorem refreshHeader_note (s : State) : ∃ f h, refreshHeader s = { s with rings := { s.rings with header := f }, host := h } := by
  unfold refreshHeader
  split
  · dsimp only
    split <;> exact ⟨_, _, rfl⟩
  · exact ⟨_, _, rfl⟩

theorem workKept_refreshHeader (s : State) : WorkKept s (refreshHeader s) := by
  obtain ⟨f, h, heq⟩ := refreshHeader_note s
  rw [heq]
  exact ⟨rfl, rfl, rfl⟩

theorem refreshHeader_held (s : State) : (refreshHeader s).rings.held = s.rings.held := by
  obtain ⟨f, h, heq⟩ := refreshHeader_note s
  rw [heq]

theorem ReleaseFrame.workKept {s t : State} (h : ReleaseFrame s t) : WorkKept s t := by
  obtain ⟨_, _, _, _, rfl, -, hdetached⟩ := h
  exact ⟨rfl, rfl, hdetached⟩

theorem WorkKept.foldl {α : Type} {f : State → α → State} (hf : ∀ s a, WorkKept s (f s a)) (l : List α) (s : State) :
    WorkKept s (l.foldl f s) :=
  List.foldlRecOn l f (WorkKept.refl s) fun t ht a _ => ht.trans (hf t a)

/-- Whatever is due on a ring: nothing, a record to discard, one to keep, or one to write. -/
theorem releaseFrame_releaseOne (s : State) (r : RingId) : ReleaseFrame s (releaseOne s r) := by
  cases hdue : dueRecord s r with
  | none =>
    rw [releaseOne, hdue]
    exact .refl s
  | some due =>
    obtain ⟨d, res⟩ := due
    cases hlost : (ringGet s r).lost with
    | true =>
      obtain ⟨-, -, -, hretire⟩ := retireEntry_spec s d
      rw [releaseOne_of_lost hdue hlost]
      exact hretire.trans (releaseFrame_settleRing _ r)
    | false =>
      cases hmay : mayRelease s r with
      | true =>
        obtain ⟨-, -, -, hout⟩ := recordOut_spec s d res
        obtain ⟨-, -, -, hafter⟩ := afterRelease_spec (recordOut s d res) d
        rw [releaseOne_of_open hdue hlost hmay]
        exact (hout.trans hafter).trans (releaseFrame_settleRing _ r)
      | false =>
        have hkept : releaseOne s r = s := by
          rw [releaseOne, hdue]
          simp [hlost, hmay]
        rw [hkept]
        exact .refl s

theorem workKept_releaseRing (n : Nat) (s : State) (r : RingId) : WorkKept s (releaseRing n s r) := by
  induction n generalizing s with
  | zero => exact .refl s
  | succ n ih => exact (releaseFrame_releaseOne s r).workKept.trans (ih _)

theorem workKept_readRest (replay : List RawDesc) (s : State) (r : RingId) : WorkKept s (readRest replay s r) :=
  .foldl workKept_takeEntry _ s

theorem workKept_holdRecord (s : State) (d : DescEntry) : WorkKept s (holdRecord s d) := by
  unfold holdRecord
  split
  · exact (weirFrame_finish s d.ref .deviceDetachedHold 0).workKept
  · exact .refl s

/-- A ring that is off, or still this device's, stays as it is. -/
theorem ownAgain_of_ours {bell : List W64} {s : State} {r : RingId}
    (h : (ringGet s r).state = .off ∨ doorbellGen (nth bell r.val 0) = (ringGet s r).owner) : ownAgain bell s r = s := by
  refine if_pos ?_
  rw [Bool.or_eq_true, beq_iff_eq, beq_iff_eq]
  exact h

theorem ownAgain_all {bell : List W64} {s : State}
    (h : ∀ r, (ringGet s r).state = .off ∨ doorbellGen (nth bell r.val 0) = (ringGet s r).owner) (l : List RingId) :
    l.foldl (ownAgain bell) s = s :=
  List.foldlRecOn (motive := fun t => t = s) l (ownAgain bell) rfl fun t ht r _ => by
    rw [ht, ownAgain_of_ours (h r)]

/-- The device that has been attached again. -/
def attachedAgain (s : State) : State := { s with rings := { s.rings with detached := false } }

/-- The return in its steps, the unread descriptors read already: what was never dispatched is held, and every due record is released. -/
def returnHeld (held : Bool) (s : State) : State := refreshHeader { s with rings := { s.rings with held } }

def returnReleased (s : State) : State :=
  (List.finRange 64).foldl (releaseRing (s.descs.foldl holdRecord s).descs.length) (s.descs.foldl holdRecord s)

/-- The whole of it, with the header's note of what is held. -/
def returnFrom (s : State) : State :=
  returnHeld false (returnReleased (returnHeld (s.descs.any fun d => d.stage.isDone || (d.stage.inWeir && !d.ever)) s))

theorem reattach_eq (bell : List W64) (replay : List RawDesc) (s : State) : reattach bell replay s =
    if !s.rings.detached then s
    else if s.safety.state == .halt then refreshHeader (attachedAgain s)
    else returnFrom ((List.finRange 64).foldl (readRest replay) ((List.finRange 64).foldl (ownAgain bell) (attachedAgain s))) := by
  unfold reattach returnFrom returnHeld returnReleased attachedAgain
  rfl

theorem reattach_of_ours {bell : List W64} {s : State} (replay : List RawDesc) (hdetached : s.rings.detached = true)
    (hhalt : s.safety.state ≠ .halt)
    (hours : ∀ r, (ringGet s r).state = .off ∨ doorbellGen (nth bell r.val 0) = (ringGet s r).owner) :
    reattach bell replay s = returnFrom ((List.finRange 64).foldl (readRest replay) (attachedAgain s)) := by
  rw [reattach_eq, ownAgain_all (s := attachedAgain s) hours, hdetached, beq_eq_false_iff_ne.mpr hhalt, Bool.not_true,
    if_neg Bool.false_ne_true, if_neg Bool.false_ne_true]

theorem reattach_of_halt {s : State} (bell : List W64) (replay : List RawDesc) (hdetached : s.rings.detached = true)
    (hhalt : s.safety.state = .halt) : reattach bell replay s = refreshHeader (attachedAgain s) := by
  rw [reattach_eq, hdetached, Bool.not_true, if_neg Bool.false_ne_true]
  exact if_pos (beq_iff_eq.mpr hhalt)

theorem workKept_returnHeld (held : Bool) (s : State) : WorkKept s (returnHeld held s) :=
  workKept_refreshHeader { s with rings := { s.rings with held } }

theorem workKept_returnReleased (s : State) : WorkKept s (returnReleased s) :=
  (WorkKept.foldl workKept_holdRecord s.descs s).trans (.foldl (workKept_releaseRing _) _ _)

theorem workKept_returnFrom (s : State) : WorkKept s (returnFrom s) :=
  ((workKept_returnHeld _ s).trans (workKept_returnReleased _)).trans (workKept_returnHeld false _)

theorem returnFrom_held (s : State) : (returnFrom s).rings.held = false := refreshHeader_held _

theorem exec_deviceReattach {s : State} (hs : Live s) (bell : List W64) (replay : List RawDesc) :
    exec (.deviceReattach bell replay) s = .next (reattach bell replay s) :=
  live_of_hub hs (reattach bell replay)

theorem exec_deviceDetach {s : State} (hs : Live s) (c : DetachCause) : exec (.deviceDetach c) s = .next (detach s) :=
  live_of_hub hs detach

theorem exec_ringEnable {s : State} (hs : OnLink s) (r : RingId) (v : W32) (replay : List RawDesc) :
    exec (.ringEnable r v replay) s = .next (ringCtrlWrite s r (v ||| 1).toNat replay) :=
  busLive_of_onLink hs fun s => ringCtrlWrite s r (v ||| 1).toNat replay

theorem exec_ringDisable {s : State} (hs : OnLink s) (r : RingId) (v : W32) :
    exec (.ringDisable r v) s = .next (ringCtrlWrite s r (v &&& ~~~ 1).toNat []) :=
  busLive_of_onLink hs fun s => ringCtrlWrite s r (v &&& ~~~ 1).toNat []

/-- Settles O33: what each write of `RING_CTRL` leaves of its ring, and the steps of a return, none of which touches a job. -/
theorem ringsAndDetachment : Obligations.RingsAndDetachment := by
  constructor
  · intro s r v replay hs g
    refine ⟨fun hoff hsrc => ?enabled, fun hon => ?disabled⟩
    case enabled =>
      obtain ⟨hone, hsealed, hbit2⟩ := bit_or_one v
      have hfields : ringGet (modRing s r fun g => ctrlFields g (v ||| 1).toNat) r = ctrlFields g (v ||| 1).toNat := by
        rw [ringGet_modRing, if_pos rfl]
      have hstart : (ctrlFields g (v ||| 1).toNat).startSrc = false := hbit2.trans hsrc
      obtain ⟨hruns, hstops⟩ := enableRing_spec replay hfields hstart
      have hstep := exec_ringEnable hs r v replay
      rw [ringCtrlWrite_enable replay hoff hone] at hstep
      refine ⟨fun hok => ?_, fun hbad => ⟨_, hstep, hstops hbad⟩⟩
      obtain ⟨n, hn, hreads⟩ := hruns hok
      have hring := hreads.ring r
      rw [if_pos rfl, ringGet_startRing, hfields, ringRead_iterate_readTo (by exact hn)] at hring
      refine ⟨_, hstep, ?_⟩
      rw [hring]
      exact ⟨rfl, rfl, rfl, rfl, hsealed, rfl, rfl⟩
    case disabled =>
      have hnot : (ringGet s r).state ≠ .off := by
        intro hoff
        rcases hon with h | h <;> exact RState.noConfusion (hoff.symm.trans h)
      have hstep := exec_ringDisable hs r v
      rw [ringCtrlWrite_disable [] hnot (bit_and_not_one v), disableRing_of_served hon] at hstep
      exact ⟨_, hstep, settle_drainedRing_spec s r⟩
  · intro s c bell replay hs
    refine ⟨fun hattached => ?detached, fun hdetached hhalt hours => ?returned, fun hdetached hhalt => ?halted⟩
    case detached =>
      rw [exec_deviceDetach hs c, detach, hattached, if_neg Bool.false_ne_true]
    case returned =>
      have hread : WorkKept (attachedAgain s) ((List.finRange 64).foldl (readRest replay) (attachedAgain s)) :=
        .foldl (workKept_readRest replay) _ _
      obtain ⟨hjobs, hmotion, hagain⟩ := hread.trans (workKept_returnFrom _)
      have hstep := exec_deviceReattach hs bell replay
      rw [reattach_of_ours replay hdetached hhalt hours] at hstep
      exact ⟨_, hstep, hagain, returnFrom_held _, hjobs, hmotion⟩
    case halted =>
      obtain ⟨f, h, hrefresh⟩ := refreshHeader_note (attachedAgain s)
      have hstep := exec_deviceReattach hs bell replay
      rw [reattach_of_halt bell replay hdetached hhalt, hrefresh] at hstep
      exact ⟨_, hstep, rfl, rfl, rfl, rfl⟩

end Sys2Proof.Machine
